-- ==== Sys2Proof/Word.lean ====
section
/-! DEFINITION. The words of the GJ416: bytes on a serial line, the numbers of stations, classes and
accounts, and the largest values of the counters (00_scope.md, Conventions). -/

namespace Sys2Proof

/-- One byte on a serial line. -/
abbrev Byte := BitVec 8

/-- A station number, 0 to 15 (Conventions, "Stations and station masks"). -/
abbrev StationId := Fin 16

/-- A page class: 0 SMALL-MONO, 1 SMALL-COLOUR, 2 LARGE-MONO, 3 LARGE-COLOUR. -/
abbrev ClassId := Fin 4

/-- An account index, 0 to 2,047 (R107). -/
abbrev AccountId := Fin 2048

/-- A station mask or bitmap: entry `n` stands for station `n` (R204). -/
abbrev Mask := BitVec 16

/-- A quantity kept per page class, in the order of the four classes. -/
abbrev PerClass (α : Type) := Vector α 4

/-- A card ID as its decimal digits, first digit read first (Conventions, "Card IDs"). -/
abbrev CardId := List Nat

/-- The largest value of a 32-bit counter. -/
abbrev max32 : Nat := 4294967295

/-- The largest value of a side count kept per class (R59, R107). -/
abbrev maxSides : Nat := 16777215

/-- The most a session's gross mills may reach (R64). -/
abbrev maxGross : Nat := 999999990

/-- The largest value of a signed 32-bit money field. -/
abbrev maxMoney : Nat := 2147483647

/-- Addition that stops at a largest value (Conventions, "Counters"). -/
def satAdd (top a b : Nat) : Nat := min top (a + b)

end Sys2Proof
end

