-- ==== Sys2Proof/Syntax.lean ====
section
/-! DEFINITION. The steps of the GJ416 as syntax: one constructor of `Instr` for each row of
spec/opcode_table.json, with the operands the step carries from outside its own state, and the plain data
those operands are made of. A host command carries its operands in the frame that stands at the head of the
command queue (R191, R192), so its row has none here. -/

namespace Sys2Proof

/-- What pays for a session, as a name (R11, R204). -/
inductive FundingKind where
  | account | bank | free
  deriving DecidableEq, Repr

/-- Why a session ended (R28, R204). -/
inductive EndReason where
  | finished | idleTimeout | hostEnd | disabled | cardLost | overrun | jamLimit | jamAbandoned | linkLost | reset
  deriving DecidableEq, Repr

/-- Why a first bank request ended without a session (R167). -/
inductive VoidCause where
  | timeout | unusable | reset
  deriving DecidableEq, Repr

/-- The kind of a priced side (R61). -/
inductive SideKind where
  | simplex | first | second
  deriving DecidableEq, Repr

/-- A SESSION record of the settlement log (R166). `account` is present for ACCOUNT, `tags` for BANK
(approved, then voided), `limit` for all but FREE. -/
structure SessionRecord where
  number : Nat
  station : StationId
  kind : FundingKind
  account : Option AccountId
  tags : Option (List Nat × List Nat)
  cardTail : List Nat
  limit : Option Nat
  openTime : Nat
  openClockSet : Bool
  closeTime : Nat
  closeClockSet : Bool
  stamp : Nat
  sideCounts : PerClass Nat
  sheetsExited : Nat
  sheetsCredited : Nat
  creditedMills : Nat
  overrunSides : Nat
  jamCount : Nat
  jobs : Nat
  gross : Nat
  discount : Nat
  charge : Nat
  minimumApplied : Bool
  endReason : EndReason
  deriving DecidableEq, Repr

/-- A VOID record (R167). -/
structure VoidRecord where
  tag : Nat
  station : StationId
  time : Nat
  clockSet : Bool
  cause : VoidCause
  deriving DecidableEq, Repr

/-- A STATEMENT record (R167). -/
structure StatementRecord where
  account : AccountId
  periodStart : Nat
  startClockSet : Bool
  periodEnd : Nat
  endClockSet : Bool
  sideCounts : PerClass Nat
  jobs : Nat
  sessions : Nat
  charge : Nat
  deriving DecidableEq, Repr

/-- What a record of the settlement log says, apart from its number (R164). -/
inductive LogBody where
  | session (r : SessionRecord)
  | void (r : VoidRecord)
  | statement (r : StatementRecord)
  deriving DecidableEq, Repr

/-- The steps of the part, one constructor per row of spec/opcode_table.json, in the table's order. The `pause` of an
account run is the number of records it takes before other events come between (R120, R122); none takes the rest whole
(log entry 17). The `asker` of a classification, a binding lookup or a side advance is the station at which the answer
stays (R105, R117; log entries 17 and 20); with none the row answers and no more. -/
inductive Instr where
  -- resets, the clock and the host link
  | coldReset (strap1 strap0 backupLost : Bool)
  | tableInitializationComplete
  | shopClockTick
  | hostFrameReceived (bytes : List Byte)
  | hostFrameGapTimeout
  | unknownCommand
  | transmitNextFrame
  -- host commands: each executes the frame at the head of the command queue
  | identify
  | setTime
  | reset
  | warmReset
  | stationConfig
  | stationEnable
  | stationDisable
  | stationQuery
  | stationList
  | startConfirm
  | startDeny
  | cancelStart
  | endSession
  | stageTariff
  | tariffApply
  | tariffQueryStatus
  | tariffQueryStaged
  | tariffQueryActive
  | tariffQueryNext
  | ruleWrite
  | ruleRead
  | defaultAction
  | bindCard
  | unbindCard
  | markLost
  | bindingQueryByCard
  | bindingQueryByPosition
  | accountWriteRecords (pause : Option Nat := none)
  | accountWriteQuantum
  | accountRead (pause : Option Nat := none)
  | accountAdjust
  | accountBlock
  | accountUnblock
  | closePeriod
  | authFetchNew
  | authFetchOutstanding
  | authResult
  | logRead
  | logDrop
  | auditControlStart
  | auditControlStop
  | auditControlClear
  | auditQuery
  | noticeConfig
  | noticeMask
  | noticeQuery
  -- the station links
  | stationFrameError (st : StationId) (bytes : List Byte)
  | stationFrameGapTimeout (st : StationId)
  | stationSendRecord (st : StationId)
  | announce (st : StationId) (model : BitVec 16) (classes capacity : Byte)
  | status (st : StationId)
  | card (st : StationId) (bytes : List Byte)
  | start (st : StationId) (mode : Byte) (originals copies : BitVec 16) (duplex : Byte)
  | imaged (st : StationId) (sheet : BitVec 16) (cls sides : Byte)
  | exited (st : StationId) (sheet : BitVec 16)
  | jobEnd (st : StationId) (outcome : Byte)
  | jam (st : StationId) (location sheets : Byte)
  | cleared (st : StationId)
  | finish (st : StationId)
  | meter (st : StationId) (m0 m1 m2 m3 : BitVec 32)
  -- the part's own timers
  | probeTick
  | linkSilence (st : StationId)
  | idleTimerExpiry (st : StationId)
  | confirmTimerExpiry (st : StationId)
  | drainTimerExpiry (st : StationId)
  | recoveryTimerExpiry (st : StationId)
  | requestTimerExpiry (st : StationId)
  | intervalTimerExpiry (st : StationId)
  -- operations and the requests one block makes of another
  | tariffCheckCompletion
  | commit (st : StationId)
  | classification (card : CardId) (asker : Option StationId := none)
  | bindingLookup (card : CardId) (asker : Option StationId := none)
  | admission (st : StationId) (account : AccountId)
  | holdExtension (st : StationId)
  | sideAdvance (account : AccountId) (cls : ClassId) (asker : Option StationId := none)
  | sideReturn (account : AccountId) (cls : ClassId) (sides : Nat)
  | jobCount (account : AccountId)
  | posting (account : AccountId) (st : StationId) (charge : Nat)
  | wake (account : AccountId)
  | admissionReservation (st : StationId) (card : CardId)
  | handover (st : StationId)
  | reservationReturn (st : StationId)
  | recordOffer (body : LogBody)
  | sidePrice (st : StationId) (cls : ClassId) (kind : SideKind) (count gross : Nat)
  | openingFigures (st : StationId) (discountClass : Fin 8)
  | settlementCharge (st : StationId) (kind : FundingKind) (gross discount limit sideTotal : Nat)
  | tagTake
  | sessionNumberTake
  deriving DecidableEq, Repr

end Sys2Proof
end

