-- ==== Sys2Proof/Decode.lean ====
section
/-! DEFINITION. The command that a word spells by the opcode table's bits. The table of this part gives no row any
bits (its steps are events, not words), so no word spells a command. The bytes of the host link and of the station
links are read by their receivers, in Machine/Links.lean. -/

namespace Sys2Proof

/-- The command a word of `nbits` bits spells: none, since no row of spec/opcode_table.json has bits. -/
def decodeTableWord (nbits w : Nat) : Option Instr :=
  match nbits, w with
  | _, _ => none

end Sys2Proof
end

