-- ==== Sys2Proof/Config.lean ====
section
/-! DEFINITION. What the manual fixes for one part but does not state, and what it leaves open: opaque constants,
so that no proof can see a value and every claim holds for all of them. -/

namespace Sys2Proof.Config

/-- The seed of the design revision; IDENTIFY reports a number from 1 to 255 (R193), which the manual leaves to
the part. -/
opaque revisionSeed : Nat

/-- The design revision that IDENTIFY reports: some number from 1 to 255 (R193). Free value, log entry 5. -/
def designRevision : Nat := 1 + revisionSeed % 255

/-- The order in which the stations' requests of one step reach a shared block, for the `k`-th time the part needs
one. The manual fixes none ("The part fixes no order between them", R169). Free value, log entry 4. -/
opaque orderSeed (k : Nat) : List StationId

/-- The order as a list that names every station once: the free list without repeats, and then the stations it does
not name. Every order of the sixteen stations is one of these. -/
def stationOrder (k : Nat) : List StationId :=
  let named := (orderSeed k).dedup
  named ++ (List.finRange 16).filter (fun n => !(named.contains n))

/-- The type byte of a BUSY refusal for a frame whose type names no command: R191 says that the reply carries the
frame's type, and R206 gives a reply's type only for a command code. Free value, log entry 6. -/
opaque busyTypeOfUnknown (received : Byte) : Byte

end Sys2Proof.Config
end

