-- ==== Sys2Proof/Machine/State.lean ====
section
/-! DEFINITION. The state of the GJ416 as plain data: every item the manual gives a block, under the rule that names
it, and the state right after cold reset. The items that belong to one station (its controller, its authorization
slot, its tariffs, its audit record, its link) stand together in `Station`. -/

namespace Sys2Proof.Machine

/-! ## Named values -/

/-- The station states of R1, in the order of their codes (R204). JAMMED is two states here, since which of the two
applies is part of the station's state. -/
inductive StationState where
  | disabled | down | idle | authorizing | opened | confirming | running | starved
  | jammedFree | suspended | closing | service | jammedSession
  deriving DecidableEq, Repr

/-- START modes of a station (R3). -/
inductive StartMode where
  | panel | attended
  deriving DecidableEq, Repr

/-- Job modes (R14). -/
inductive JobMode where
  | single | run | set
  deriving DecidableEq, Repr

/-- Whose side count selects a tier (R56). -/
inductive TierBasis where
  | session | period
  deriving DecidableEq, Repr

/-- What a card rule makes of a card (R90). -/
inductive CardAction where
  | refuse | bank | account | free
  deriving DecidableEq, Repr

/-- The message codes of a PANEL record (R204). -/
inductive PanelCode where
  | presentCard | refused | unknownCard | lostCard | noFunds | logFull | noTariff | inUse
  | authorizing | confirming | starved | jammed | service
  deriving DecidableEq, Repr

/-- The status of a reply (R192). -/
inductive Status where
  | ok | accepted | busy | notReady | badParameter | unknownCommand | notFound | duplicate | tableFull | logFull
  | insufficient | notPending | tooLate | wrongState
  deriving DecidableEq, Repr

/-- The twelve notice sources, in their order from 1 (R196). -/
inductive NoticeSource where
  | logLow | authWaiting | confirmWaiting | lostCard | jam | stationDown | service | protocol | settlement | starved
  | audit | tariff
  deriving DecidableEq, Repr

/-! ## Cards -/

/-- A digit of a rule's pattern: a decimal value, or the wildcard (R90). -/
inductive PatternDigit where
  | digit (d : Nat)
  | wildcard
  deriving DecidableEq, Repr

/-- A card rule; the defaults are the cold reset values (R90). -/
structure Rule where
  enabled : Bool := false
  length : Nat := 0
  offset : Nat := 0
  pattern : List PatternDigit := [.wildcard]
  action : CardAction := .refuse
  discountClass : Nat := 0
  deriving DecidableEq, Repr

/-- The outcome of a classification (R92). -/
structure CardOutcome where
  action : CardAction := .refuse
  discountClass : Nat := 0
  deriving DecidableEq, Repr

/-- A card binding (R95). -/
structure Binding where
  card : CardId
  account : AccountId
  lost : Bool
  deriving DecidableEq, Repr

/-- An admission in passage (R101, R105, R168): the card; the outcome of its classification and the binding that its
lookup found, once the card router has answered, which stand whatever the host then changes (R105); the panel code of
the account table's refusal, which stands in the same way (R102, R105); and the account, funding limit and discount class
once the account table has placed the hold. It holds one log reservation. -/
structure Passage where
  card : CardId
  outcome : Option CardOutcome := none
  found : Option (Option Binding) := none
  refused : Option PanelCode := none
  hold : Option (AccountId × Nat × Nat)
  deriving DecidableEq, Repr

/-! ## A station controller -/

/-- The settings of STATION-CONFIG with their values after cold reset (R3). -/
structure Settings where
  window : Nat := 8
  startMode : StartMode := .panel
  idleTime : Nat := 120
  recoveryTime : Nat := 600
  confirmTime : Nat := 60
  jamLimit : Nat := 3
  auditThreshold : Nat := 4
  probeMinutes : Nat := 5
  auditLock : Bool := false
  deriving DecidableEq, Repr

/-- What the copier announced (R4): unknown model and capacity and all four classes after cold reset (R34). -/
structure Identity where
  model : Option Nat := none
  classes : BitVec 4 := 15#4
  capacity : Option Nat := none
  deriving DecidableEq, Repr

/-- A job descriptor taken and not yet granted (R15). -/
structure Descriptor where
  mode : JobMode
  originals : Nat
  copies : Nat
  duplex : Bool
  deriving DecidableEq, Repr

/-- The job record (R14), with the unmet want (R48) and the last sheet of a SINGLE job (R44) held beside it. -/
structure Job where
  mode : JobMode
  originals : Nat
  copies : Nat
  duplex : Bool
  setSides : Nat
  setsRemaining : Nat
  released : Nat
  reprint : Nat
  unmet : Nat
  lastSheet : Option Nat
  deriving DecidableEq, Repr

/-- What funds a session, with the fields R11 gives that kind alone. -/
inductive Funding where
  | account (index : AccountId)
  | bank (approved voided : List Nat) (topups : Nat)
  | free
  deriving DecidableEq, Repr

/-- The session record (R11). `limit` is absent for FREE. The card tail is the last four digits of `card`. -/
structure Session where
  number : Nat
  funding : Funding
  card : CardId
  limit : Option Nat
  stamp : Nat
  discount : Nat
  gross : Nat
  credited : Nat
  sideCounts : PerClass Nat
  sheetsExited : Nat
  sheetsCredited : Nat
  overrunSides : Nat
  jamCount : Nat
  jobs : Nat
  openTime : Nat
  clockSet : Bool
  lastActivity : Nat
  endReason : Option EndReason
  deriving DecidableEq, Repr

/-- An entry of the in-path list (R36). -/
structure Sheet where
  number : Nat
  cls : Nat
  sides : Nat
  charged : Nat
  mills : Nat
  basis : TierBasis
  overrun : Bool
  deriving DecidableEq, Repr

/-- The station counters (R30). -/
structure Counters where
  sessions : Nat := 0
  jobs : Nat := 0
  sides : PerClass Nat := Vector.replicate 4 0
  sheetsExited : Nat := 0
  jams : Nat := 0
  sheetsCredited : Nat := 0
  overrunSides : Nat := 0
  sequenceGaps : Nat := 0
  frameErrors : Nat := 0
  protocolFaults : Nat := 0
  unattributed : Nat := 0
  deriving DecidableEq, Repr

/-- The last jam report (R145). -/
structure JamReport where
  location : Nat
  sheetsInPath : Nat
  time : Nat
  clockSet : Bool
  sheets : Nat
  sides : Nat
  mills : Nat
  deriving DecidableEq, Repr

/-- A record waiting on a station's send list (R202). -/
inductive OutRecord where
  | grant (sides : Nat)
  | halt
  | panel (locked : Bool) (amount : Nat) (code : Option PanelCode)
  | probe
  deriving DecidableEq, Repr

/-- The condition of a link receiver: hunting, or in a frame with the bytes collected after the start byte
(R190, R201). -/
inductive Receiver where
  | hunting
  | inFrame (bytes : List Byte)
  deriving DecidableEq, Repr

/-! ## An authorization slot -/

/-- A request outstanding at a slot (R128). -/
structure Request where
  tag : Nat
  amount : Nat
  time : Nat
  clockSet : Bool
  timer : Nat
  fetched : Bool
  deriving DecidableEq, Repr

/-- An authorization slot (R128). A slot in REQUESTED holds one log reservation. -/
inductive Slot where
  | free
  | requested (card : CardId) (discountClass : Nat) (req : Request)
  | active (card : CardId) (discountClass : Nat)
  | topup (card : CardId) (discountClass : Nat) (req : Request)
  deriving DecidableEq, Repr

/-! ## Tariffs -/

/-- The header of a tariff: stamp, duplex rate, minimum charge, discount table (R57, R75). -/
structure Header where
  stamp : Nat
  duplex : Nat
  minimum : Nat
  discounts : Vector Nat 8
  deriving DecidableEq, Repr

/-- A pricing section: tier count, breakpoints B1 to B3, prices P0 to P3, tier basis (R56). -/
structure Pricing where
  tiers : Nat
  breaks : Vector Nat 3
  prices : Vector Nat 4
  basis : TierBasis
  deriving DecidableEq, Repr

/-- A complete tariff with its ceiling (R77). -/
structure Tariff where
  header : Header
  pricing : PerClass Pricing
  ceiling : Nat
  deriving DecidableEq, Repr

/-- How a station's latest apply ended (R77). -/
inductive ApplyStatus where
  | none | inProgress | applied | pending | rejectedInvalid | rejectedBusy | aborted
  deriving DecidableEq, Repr

/-- A station's active tariff, next tariff and apply status (R77). -/
structure StationTariff where
  active : Option Tariff := none
  next : Option Tariff := none
  status : ApplyStatus := .none
  deriving DecidableEq, Repr

/-- A section of the staged tariff, in the order of the STAGE-TARIFF selector (R204). -/
inductive Selector where
  | pricing (cls : ClassId)
  | header
  deriving DecidableEq, Repr

/-- The last check result (R80, R87). -/
inductive CheckResult where
  | none | passed | sectionEmpty (sel : Selector) | badStamp | badDuplex | badMinimum | badDiscount
  | badBreakpoints (cls : ClassId) | badPrices (cls : ClassId) | noPrice | aborted
  deriving DecidableEq, Repr

/-- When an applied tariff is to be taken (R78). -/
inductive Timing where
  | atIdle | now
  deriving DecidableEq, Repr

/-- The staged tariff and the checker (R75, R78, R80). `check` is the mask and timing of the check in flight. -/
structure TariffStore where
  header : Option Header := none
  pricing : PerClass (Option Pricing) := Vector.replicate 4 none
  check : Option (Mask × Timing) := none
  lastResult : CheckResult := .none
  deriving DecidableEq, Repr

/-! ## The meter audit -/

/-- The states of a station's audit (R177). -/
inductive AuditState where
  | off | baseline | tracking | outOfStep
  deriving DecidableEq, Repr

/-- The accounted counters of one class (R177). -/
structure Accounted where
  billed : Nat := 0
  free : Nat := 0
  overrun : Nat := 0
  unattributed : Nat := 0
  deriving DecidableEq, Repr

/-- A station's audit record (R177). The threshold, probe interval and lock stand in `Settings`. -/
structure Audit where
  state : AuditState := .off
  baseline : Option (PerClass Nat) := none
  latest : Option (PerClass Nat) := none
  latestTime : Option (Nat × Bool) := none
  accounted : PerClass Accounted := Vector.replicate 4 {}
  discrepancy : PerClass Int := Vector.replicate 4 0
  readings : Nat := 0
  rebaselines : Nat := 0
  intervalTimer : Option Nat := none
  meterRequest : Bool := false
  deriving DecidableEq, Repr

/-! ## One station -/

/-- Everything that belongs to one station: its controller (R2, R37, R145), its authorization slot (R128), its
tariffs (R77), its audit record (R177) and its link (R201, R202). `advances` is the model's own (log entry 17): the
answers of side advances that the station has asked for its next sheet ahead of it, each with its class. The defaults
are the values after cold reset. -/
structure Station where
  state : StationState := .disabled
  session : Option Session := none
  job : Option Job := none
  startPending : Bool := false
  descriptor : Option Descriptor := none
  inPath : List Sheet := []
  lastSeq : Nat := 0
  seqKnown : Bool := false
  settings : Settings := {}
  identity : Identity := {}
  silence : Nat := 100
  idleTimer : Option Nat := none
  confirmTimer : Option Nat := none
  drainTimer : Option Nat := none
  recoveryTimer : Option Nat := none
  prior : Option StationState := none
  serviceDue : Bool := false
  disablePending : Bool := false
  jamDuringClose : Bool := false
  changed : Bool := true
  counters : Counters := {}
  lastJam : Option JamReport := none
  passage : Option Passage := none
  advances : List (ClassId × Nat) := []
  slot : Slot := .free
  tariff : StationTariff := {}
  audit : Audit := {}
  sendList : List OutRecord := []
  line : List Byte := []
  rx : Receiver := .hunting
  deriving DecidableEq, Repr

/-! ## Accounts -/

/-- States of an account record (R107). -/
inductive AccountState where
  | free | active | blocked
  deriving DecidableEq, Repr

/-- Kinds of account (R107). -/
inductive AccountKind where
  | prepaid | credit
  deriving DecidableEq, Repr

/-- An entry of an account's funded list (R107). -/
structure Funded where
  station : StationId
  hold : Nat
  deriving DecidableEq, Repr

/-- A wake walk in progress (R115): the station it stands at, which is the lowest of the list as the walk starts; whether
that station is past, its wake taken or its entry gone (the model's own field, log entry 19); and the restart mark. -/
structure Walk where
  position : StationId
  visited : Bool
  restart : Bool
  deriving DecidableEq, Repr

/-- An account record (R107); the defaults are the cold reset values. The held total and the open-session count are
the sum and the length of the funded list, by R107, and are worked from it. -/
structure Account where
  state : AccountState := .free
  kind : AccountKind := .prepaid
  balance : Int := 0
  creditLimit : Nat := 0
  cap : Nat := 1
  discountClass : Nat := 0
  funded : List Funded := []
  sides : PerClass Nat := Vector.replicate 4 0
  jobs : Nat := 0
  sessions : Nat := 0
  charge : Nat := 0
  periodStart : Nat := 0
  startClockSet : Bool := false
  walk : Option Walk := none
  deriving DecidableEq, Repr

/-- The account table: the 2,048 records, of which those that differ from the cold reset values are listed, indices
strictly rising. An unlisted index reads as the cold reset values. -/
abbrev AccountTable := List (Nat × Account)

/-! ## The settlement log -/

/-- A record standing in the log, with its number (R164). -/
structure LogRecord where
  number : Nat
  body : LogBody
  deriving DecidableEq, Repr

/-- The settlement log (R164, R165, R168, R173). -/
structure Log where
  records : List LogRecord := []
  reservations : Nat := 0
  counter : Nat := 1
  armed : Bool := true
  deriving DecidableEq, Repr

/-! ## Notices and the host link -/

/-- A notice source's pending flag, station bitmap and level (R196). -/
structure Source where
  pending : Bool := false
  bitmap : Mask := 0#16
  level : Nat := 0
  deriving DecidableEq, Repr

/-- The notice arbiter: the twelve sources with the levels of R196, and the mask level (R199). -/
structure Notices where
  sources : Vector Source 12 :=
    #v[{ level := 3 }, { level := 2 }, { level := 2 }, { level := 2 }, { level := 1 }, { level := 1 },
       { level := 1 }, { level := 1 }, { level := 1 }, { level := 0 }, { level := 0 }, { level := 0 }]
  maskLevel : Nat := 0
  deriving DecidableEq, Repr

/-- A command frame that has passed its check (R190). -/
structure Frame where
  type : Byte
  tag : Byte
  payload : List Byte
  deriving DecidableEq, Repr

/-- A reply made and not yet handed over whole: its type byte, command tag, status, data, and how many of its
segments have been begun (R192, R206). -/
structure Reply where
  type : Byte
  tag : Byte
  status : Status
  data : List Byte
  begun : Nat := 0
  deriving DecidableEq, Repr

/-- Where an executed RESET stands (R195): none, its reply in the reply list, its reply handed to the transmitter. -/
inductive ResetPhase where
  | none | replyListed | replyBegun
  deriving DecidableEq, Repr

/-- The kind of the last reset (R193). -/
inductive ResetKind where
  | cold | warm
  deriving DecidableEq, Repr

/-- An account run that other events have come within (R120, R122, R192): the records of it that have been taken, and
for ACCOUNT-READ the accounts as they read. -/
structure Run where
  taken : Nat := 0
  read : List Account := []
  deriving DecidableEq, Repr

/-- The host link interface (R190, R191, R193, R195, R200). `line` is the frame the transmitter was last given, `run` the
ACCOUNT-READ or ACCOUNT-WRITE that is executing while other events are taken within it (R192). -/
structure HostLink where
  rx : Receiver := .hunting
  queue : List Frame := []
  replies : List Reply := []
  crcFailures : Nat := 0
  abandoned : Nat := 0
  discarded : Nat := 0
  rate : Nat := 19200
  lastReset : ResetKind := .cold
  resetPhase : ResetPhase := .none
  run : Option Run := none
  line : List Byte := []
  deriving DecidableEq, Repr

/-- The account table's answer to an admission (R112). -/
inductive AdmissionAnswer where
  | admitted (limit discountClass : Nat)
  | refusedState
  | refusedCap
  | refusedFloor
  deriving DecidableEq, Repr

/-- The answer a block gives to a request of another block, when the request is a step of its own (log entry 3). -/
inductive Answer where
  | outcome (o : CardOutcome)
  | binding (b : Option Binding)
  | admission (a : AdmissionAnswer)
  | extension (amount : Option Nat)
  | count (n : Nat)
  | reserved (granted : Bool)
  | recordNumber (n : Option Nat)
  | mills (m : Nat)
  | opening (floor discount : Nat)
  | charge (cents : Nat) (minimumApplied : Bool)
  | tag (t : Nat)
  | sessionNumber (n : Nat)
  deriving DecidableEq, Repr

/-! ## The whole part -/

/-- The state of the part. `tenths`, `draws`, `answer` and `pending` are the model's own (log entries 1 to 4). The
defaults are the values after the first power-up, with both straps low. -/
structure State where
  stations : Vector Station 16 := Vector.replicate 16 {}
  accounts : AccountTable := []
  quantum : Nat := 2000
  tablesReady : Bool := false
  rules : Vector Rule 32 := Vector.replicate 32 {}
  defaultAction : CardOutcome := {}
  bindings : List Binding := []
  tariffs : TariffStore := {}
  tagCounter : Nat := 1
  fetchOrder : List StationId := []
  sessionCounter : Nat := 1
  log : Log := {}
  host : HostLink := {}
  notices : Notices := {}
  clock : Nat := 0
  clockSet : Bool := false
  tenths : Nat := 0
  draws : Nat := 0
  answer : Option Answer := none
  pending : List Instr := []
  deriving DecidableEq, Repr

/-- Why the part stops. No meaning of this model raises it: the manual gives every step an effect. Safe. -/
inductive Fault where
  /-- Raised by no meaning: the manual names no fault that stops the part. Safe, since nothing is claimed of it. -/
  | stopped
  deriving DecidableEq, Repr

/-- Why the model gives no meaning to a step. -/
inductive Refusal where
  /-- Raised by `exec`'s arm of a step that has no meaning yet (there is none). Safe: the run stops by name. -/
  | notModelled (mnemonic : String)
  deriving DecidableEq, Repr

/-- What a step answers. -/
abbrev Result := Host.Outcome State Fault Refusal

/-- The part right after the cold reset of its first power-up (R34, R88, R90, R107, R144, R175, R189, R191, R199),
both straps low (log entry 7). -/
def State.reset : State := {}

end Sys2Proof.Machine
end

