-- ==== Sys2Proof/Machine/Operands.lean ====
section
/-! DEFINITION. Fields on the lines (12_frame_and_record_formats.md): how numbers, named values, card IDs and masks
are written and read as bytes (R204), and the two checks of the links (R190, R201). -/

namespace Sys2Proof.Machine

/-! ## Numbers -/

/-- One byte (R204). -/
def be1 (n : Nat) : List Byte := [BitVec.ofNat 8 n]

/-- Two bytes, most significant first (R204). -/
def be2 (n : Nat) : List Byte := be1 (n / 256) ++ be1 n

/-- Four bytes, most significant first (R204). -/
def be4 (n : Nat) : List Byte := be2 (n / 65536) ++ be2 n

/-- Eight bytes, most significant first (R204). -/
def be8 (n : Nat) : List Byte := be4 (n / 4294967296) ++ be4 n

/-- A signed field of four bytes, two's complement (R204). -/
def beSigned4 (i : Int) : List Byte := be4 (i % 4294967296).toNat

/-- A signed field of eight bytes, two's complement (R204). -/
def beSigned8 (i : Int) : List Byte := be8 (i % 18446744073709551616).toNat

/-- A flag in a reply whose layout the manual does not draw: 00h clear, 01h set (R204). -/
def beFlag (b : Bool) : List Byte := be1 (if b then 1 else 0)

/-- A field that may be absent: a presence byte, then the field, or as many 00h bytes as `absent` has when it is
absent (R204). -/
def beOption {α : Type} (enc : α → List Byte) (absent : List Byte) : Option α → List Byte
  | none => beFlag false ++ absent
  | some a => beFlag true ++ enc a

/-- A list: its count in one byte, then its entries (R204). -/
def beList {α : Type} (enc : α → List Byte) (l : List α) : List Byte :=
  be1 l.length ++ l.flatMap enc

/-- A quantity kept per class, in class order (Conventions). -/
def bePerClass {α : Type} (enc : α → List Byte) (v : PerClass α) : List Byte := v.toList.flatMap enc

/-- The unsigned number that bytes hold, most significant first (R204). -/
def natOf (bytes : List Byte) : Nat := bytes.foldl (fun acc b => acc * 256 + b.toNat) 0

/-- The field of `len` bytes at offset `off` of a payload, as an unsigned number. -/
def fieldAt (payload : List Byte) (off len : Nat) : Nat := natOf ((payload.drop off).take len)

/-- The signed four-byte field at offset `off` of a payload, two's complement (R204). -/
def signedAt (payload : List Byte) (off : Nat) : Int :=
  let n := fieldAt payload off 4
  if n < 2147483648 then (n : Int) else (n : Int) - 4294967296

/-- A station number read from a byte, when it is at most 15. -/
def stationOf (n : Nat) : Option StationId := if h : n < 16 then some ⟨n, h⟩ else none

/-- An account index read from a field, when it is at most 2,047. -/
def accountOf (n : Nat) : Option AccountId := if h : n < 2048 then some ⟨n, h⟩ else none

/-- A class number read from a byte, when it is at most 3. -/
def classOf (n : Nat) : Option ClassId := if h : n < 4 then some ⟨n, h⟩ else none

/-- The mask in the two bytes at offset `off`: bit `n` stands for station `n` (R204). -/
def maskAt (payload : List Byte) (off : Nat) : Mask := BitVec.ofNat 16 (fieldAt payload off 2)

/-- The station is in the mask. -/
def inMask (m : Mask) (n : StationId) : Bool := m.getLsbD n.val

/-- The mask of one station. -/
def maskOf (n : StationId) : Mask := 1#16 <<< n.val

/-! ## Card IDs -/

/-- The two half-bytes of a byte, high half first. -/
def halves (b : Byte) : List Nat := [b.toNat / 16, b.toNat % 16]

/-- The card ID in 11 received bytes: the digit count, then digits packed two to a byte; none when the count is not 8
to 19 or one of its first count half-bytes is no decimal digit (R204). -/
def cardIdOf (bytes : List Byte) : Option CardId :=
  match bytes with
  | [] => none
  | c :: rest =>
    let digits := (rest.take 10).flatMap halves |>.take c.toNat
    if 8 ≤ c.toNat ∧ c.toNat ≤ 19 ∧ digits.length = c.toNat ∧ digits.all (fun d => decide (d ≤ 9)) then some digits
    else none

/-- Half-bytes packed two to a byte, first in the high half. -/
def packHalves : List Nat → List Byte
  | [] => []
  | [a] => be1 (a * 16 + 15)
  | a :: b :: t => be1 (a * 16 + b) ++ packHalves t

/-- A card ID as the part sends it: 11 bytes, Fh in every half-byte after the last digit (R204). -/
def beCardId (card : CardId) : List Byte :=
  be1 card.length ++ packHalves ((card ++ List.replicate 20 15).take 20)

/-- The card tail: the last four digits (R11). -/
def cardTail (card : CardId) : List Nat := card.drop (card.length - 4)

/-- A card tail in two bytes, packed as a card ID is (R204). -/
def beTail (tail : List Nat) : List Byte := packHalves tail

/-- Card-ID order: digit by digit, the shorter first where one is the other's beginning (R95). -/
def cardBefore : CardId → CardId → Bool
  | [], [] => false
  | [], _ :: _ => true
  | _ :: _, [] => false
  | a :: s, b :: t => if a = b then cardBefore s t else decide (a < b)

/-! ## The checks of the links -/

/-- One bit of the CRC-16 with polynomial 1021h (R190). -/
def crc16Shift (c : BitVec 16) : BitVec 16 := if c.msb then (c <<< 1) ^^^ 0x1021#16 else c <<< 1

/-- One byte into the CRC-16, most significant bit first (R190). -/
def crc16Byte (c : BitVec 16) (b : Byte) : BitVec 16 :=
  Nat.iterate crc16Shift 8 (c ^^^ ((b.setWidth 16) <<< 8))

/-- The CRC-16 of the host link: initial value FFFFh, no final inversion (R190). -/
def crc16 (bytes : List Byte) : BitVec 16 := bytes.foldl crc16Byte 0xFFFF#16

/-- One bit of the CRC-8 with polynomial 07h (R201). -/
def crc8Shift (c : Byte) : Byte := if c.msb then (c <<< 1) ^^^ 0x07#8 else c <<< 1

/-- One byte into the CRC-8, most significant bit first (R201). -/
def crc8Byte (c : Byte) (b : Byte) : Byte := Nat.iterate crc8Shift 8 (c ^^^ b)

/-- The CRC-8 of the station links: initial value 00h, no final inversion (R201). -/
def crc8 (bytes : List Byte) : Byte := bytes.foldl crc8Byte 0#8

/-- A host link frame: start byte, length, type, command tag, payload, CRC-16 high byte first (R205). -/
def hostFrame (type tag : Byte) (payload : List Byte) : List Byte :=
  let body := be1 payload.length ++ [type, tag] ++ payload
  0xA5#8 :: body ++ be2 (crc16 body).toNat

/-- A station link frame: start byte, length, kind, payload, CRC-8 (R213). -/
def stationFrame (kind : Byte) (payload : List Byte) : List Byte :=
  let body := be1 payload.length ++ [kind] ++ payload
  0x5A#8 :: body ++ [crc8 body]

/-! ## Named values (R204) -/

/-- The code of a station state. -/
def StationState.code : StationState → Nat
  | .disabled => 0 | .down => 1 | .idle => 2 | .authorizing => 3 | .opened => 4 | .confirming => 5 | .running => 6
  | .starved => 7 | .jammedFree => 8 | .suspended => 9 | .closing => 10 | .service => 11 | .jammedSession => 12

/-- The code of a reply status. -/
def Status.code : Status → Nat
  | .ok => 0 | .accepted => 1 | .busy => 2 | .notReady => 3 | .badParameter => 4 | .unknownCommand => 5
  | .notFound => 6 | .duplicate => 7 | .tableFull => 8 | .logFull => 9 | .insufficient => 10 | .notPending => 11
  | .tooLate => 12 | .wrongState => 13

/-- The code of a panel code; FFh stands for absent. -/
def panelCodeByte : Option PanelCode → Nat
  | none => 255
  | some .presentCard => 0 | some .refused => 1 | some .unknownCard => 2 | some .lostCard => 3 | some .noFunds => 4
  | some .logFull => 5 | some .noTariff => 6 | some .inUse => 7 | some .authorizing => 8 | some .confirming => 9
  | some .starved => 10 | some .jammed => 11 | some .service => 12

/-- The code of a funding kind. -/
def fundingKindCode : FundingKind → Nat
  | .account => 0 | .bank => 1 | .free => 2

/-- The code of an end reason. -/
def endReasonCode : EndReason → Nat
  | .finished => 0 | .idleTimeout => 1 | .hostEnd => 2 | .disabled => 3 | .cardLost => 4 | .overrun => 5
  | .jamLimit => 6 | .jamAbandoned => 7 | .linkLost => 8 | .reset => 9

/-- The code of a VOID cause. -/
def voidCauseCode : VoidCause → Nat
  | .timeout => 0 | .unusable => 1 | .reset => 2

/-- The code of a card action. -/
def CardAction.code : CardAction → Nat
  | .refuse => 0 | .bank => 1 | .account => 2 | .free => 3

/-- The card action of a code, if it is one. -/
def cardActionOf : Nat → Option CardAction
  | 0 => some .refuse | 1 => some .bank | 2 => some .account | 3 => some .free | _ => none

/-- The code of an account state. -/
def AccountState.code : AccountState → Nat
  | .free => 0 | .active => 1 | .blocked => 2

/-- The account state of a code, if it is one. -/
def accountStateOf : Nat → Option AccountState
  | 0 => some .free | 1 => some .active | 2 => some .blocked | _ => none

/-- The code of an account kind. -/
def AccountKind.code : AccountKind → Nat
  | .prepaid => 0 | .credit => 1

/-- The account kind of a code, if it is one. -/
def accountKindOf : Nat → Option AccountKind
  | 0 => some .prepaid | 1 => some .credit | _ => none

/-- The code of a job mode. -/
def JobMode.code : JobMode → Nat
  | .single => 0 | .run => 1 | .set => 2

/-- The job mode of a code, if it is one. -/
def jobModeOf : Nat → Option JobMode
  | 0 => some .single | 1 => some .run | 2 => some .set | _ => none

/-- The code of a start mode. -/
def StartMode.code : StartMode → Nat
  | .panel => 0 | .attended => 1

/-- The start mode of a code, if it is one. -/
def startModeOf : Nat → Option StartMode
  | 0 => some .panel | 1 => some .attended | _ => none

/-- The code of a tier basis. -/
def TierBasis.code : TierBasis → Nat
  | .session => 0 | .period => 1

/-- The tier basis of a code, if it is one. -/
def tierBasisOf : Nat → Option TierBasis
  | 0 => some .session | 1 => some .period | _ => none

/-- The code of a STAGE-TARIFF selector: classes 0 to 3, then HEADER. -/
def Selector.code : Selector → Nat
  | .pricing c => c.val
  | .header => 4

/-- The apply timing of a code, if it is one. -/
def timingOf : Nat → Option Timing
  | 0 => some .atIdle | 1 => some .now | _ => none

/-- The code of an apply status. -/
def ApplyStatus.code : ApplyStatus → Nat
  | .none => 0 | .inProgress => 1 | .applied => 2 | .pending => 3 | .rejectedInvalid => 4 | .rejectedBusy => 5
  | .aborted => 6

/-- The code of a check result. -/
def CheckResult.code : CheckResult → Nat
  | .none => 0 | .passed => 1 | .sectionEmpty _ => 2 | .badStamp => 3 | .badDuplex => 4 | .badMinimum => 5
  | .badDiscount => 6 | .badBreakpoints _ => 7 | .badPrices _ => 8 | .noPrice => 9 | .aborted => 10

/-- The class or section a check result names, as its code (R80). -/
def checkResultNames (r : CheckResult) : Option Nat :=
  match r with
  | .sectionEmpty s => some s.code
  | .badBreakpoints c => some c.val
  | .badPrices c => some c.val
  | .none => none | .passed => none | .badStamp => none | .badDuplex => none | .badMinimum => none
  | .badDiscount => none | .noPrice => none | .aborted => none

/-- The code of an audit state. -/
def AuditState.code : AuditState → Nat
  | .off => 0 | .baseline => 1 | .tracking => 2 | .outOfStep => 3

/-- A pattern digit read from a byte: 00h to 09h a digit, 0Fh the wildcard (R209). -/
def patternDigitOf (b : Byte) : Option PatternDigit :=
  if b.toNat ≤ 9 then some (.digit b.toNat) else if b = 0x0F#8 then some .wildcard else none

/-- A pattern digit as a byte (R209). -/
def PatternDigit.code : PatternDigit → Nat
  | .digit d => d
  | .wildcard => 15

/-- The code of a binding state: VALID, LOST. -/
def bindingStateCode (lost : Bool) : Nat := if lost then 1 else 0

/-- The code of the last reset kind. DESIGN CHOICE (log entry 11): COLD 0, WARM 1, in the order R193 names them. -/
def ResetKind.code : ResetKind → Nat
  | .cold => 0 | .warm => 1

end Sys2Proof.Machine
end

