-- ==== Sys2Proof/Machine/Flags.lean ====
section
/-! DEFINITION. The flags blocks raise for the host: the twelve notice sources (R196), and the LOG_LOW armed flag of
the settlement log (R173). -/

namespace Sys2Proof.Machine

/-- The place of a source among the twelve, from 0; its number is one more (R196). -/
def NoticeSource.index : NoticeSource → Fin 12
  | .logLow => 0 | .authWaiting => 1 | .confirmWaiting => 2 | .lostCard => 3 | .jam => 4 | .stationDown => 5
  | .service => 6 | .protocol => 7 | .settlement => 8 | .starved => 9 | .audit => 10 | .tariff => 11

/-- What a notice source holds. -/
def State.source (s : State) (src : NoticeSource) : Source := s.notices.sources[src.index]

/-- A raise for the stations of a mask: the source is pending, and the stations merge into its bitmap (R196). -/
def raiseMask (src : NoticeSource) (m : Mask) (s : State) : State :=
  let x := s.source src
  { s with notices := { s.notices with
      sources := s.notices.sources.set src.index.val { x with pending := true, bitmap := x.bitmap ||| m } } }

/-- A raise for one station (R196). -/
def raiseFor (src : NoticeSource) (n : StationId) (s : State) : State := raiseMask src (maskOf n) s

/-- A raise of a source that has no station bitmap (R196). -/
def raise (src : NoticeSource) (s : State) : State := raiseMask src 0#16 s

/-- Every pending flag and bitmap clear; levels and mask level kept (R199). -/
def clearNotices (s : State) : State :=
  { s with notices := { s.notices with
      sources := s.notices.sources.map (fun x => { x with pending := false, bitmap := 0#16 }) } }

/-- The log's unreserved space: its free entries less its reservation count (R168). -/
def Log.unreserved (l : Log) : Nat := 256 - l.records.length - l.reservations

/-- What a request or drop does to LOG_LOW once it has been taken: at 16 or less with the flag set the notice is raised
and the flag cleared; above 16 the flag is set (R173). -/
def logLowCheck (s : State) : State :=
  if s.log.unreserved ≤ 16 then
    if s.log.armed then raise .logLow { s with log := { s.log with armed := false } } else s
  else { s with log := { s.log with armed := true } }

/-- A masked source is not sent: its level lies below the mask level, LOG_LOW excepted (R197). -/
def Notices.sendable (ns : Notices) (src : NoticeSource) : Bool :=
  let x := ns.sources[src.index]
  x.pending && (decide (src = .logLow) || decide (ns.maskLevel ≤ x.level))

/-- The sources in source order (R196). -/
def noticeOrder : List NoticeSource :=
  [.logLow, .authWaiting, .confirmWaiting, .lostCard, .jam, .stationDown, .service, .protocol, .settlement, .starved,
   .audit, .tariff]

/-- The source whose notice is sent next: the highest level among the sendable, and the lowest source number within
that level (R200). -/
def nextNotice (ns : Notices) : Option NoticeSource :=
  noticeOrder.foldl (fun best src =>
    if ns.sendable src then
      match best with
      | none => some src
      | some b => if ns.sources[b.index].level < ns.sources[src.index].level then some src else some b
    else best) none

end Sys2Proof.Machine
end

