-- ==== Sys2Proof/Machine/Rating.lean ====
section
/-! DEFINITION. The rating engine's arithmetic (03_rating_arithmetic.md): tiers, side prices, opening figures and the
settlement charge, as functions of the tariff and of the values a request carries. The engine has no state (R55). -/

namespace Sys2Proof.Machine

/-- The tier of a side whose counter stands at `n`: how many of the used breakpoints the side number `n + 1` is
greater than (R58). -/
def tierIndex (p : Pricing) (n : Nat) : Nat :=
  ((p.breaks.toList.take (p.tiers - 1)).filter (fun b => decide (b < n + 1))).length

/-- The price at the tier of the counter `n` (R58). -/
def tierPrice (p : Pricing) (n : Nat) : Nat := p.prices.toList.getD (tierIndex p n) 0

/-- The price of a side before the gross cap: the tier's price, or its duplex share rounded for a second side
(R62, R63). -/
def listPrice (t : Tariff) (cls : ClassId) (kind : SideKind) (n : Nat) : Nat :=
  match kind with
  | .simplex => tierPrice t.pricing[cls] n
  | .first => tierPrice t.pricing[cls] n
  | .second => (tierPrice t.pricing[cls] n * t.header.duplex + 50) / 100

/-- The mills of a side, reduced so that the gross mills do not pass 999,999,990 (R64). -/
def sideMills (t : Tariff) (cls : ClassId) (kind : SideKind) (n gross : Nat) : Nat :=
  min (listPrice t cls kind n) (maxGross - gross)

/-- The opening floor: the larger of the minimum charge and the ceiling in cents, rounded up (R66). -/
def openingFloor (t : Tariff) : Nat := max t.header.minimum ((t.ceiling + 9) / 10)

/-- The discount percent of a discount class (R65). -/
def discountPercent (t : Tariff) (cls : Nat) : Nat := t.header.discounts.toList.getD cls 0

/-- The net mills after the discount (R68). -/
def netMills (gross discount : Nat) : Nat := gross - gross * discount / 100

/-- The charge in cents before the minimum (R69). -/
def roundedCents (gross discount : Nat) : Nat := (netMills gross discount + 5) / 10

/-- The minimum applies: at least one charged side kept, and the rounded charge below the minimum (R70). -/
def minimumApplies (t : Tariff) (gross discount sideTotal : Nat) : Bool :=
  decide (1 ≤ sideTotal) && decide (roundedCents gross discount < t.header.minimum)

/-- The settlement charge in cents and the minimum-applied flag (R67 to R72). -/
def settlementCharge (t : Tariff) (kind : FundingKind) (gross discount limit sideTotal : Nat) : Nat × Bool :=
  match kind with
  | .free => (0, false)
  | _ =>
    let applied := minimumApplies t gross discount sideTotal
    (min (if applied then t.header.minimum else roundedCents gross discount) limit, applied)

/-! ## The tariff checker's tests (R80) -/

/-- Strictly increasing, and each at least 1. -/
def risingFromOne : List Nat → Bool
  | [] => true
  | [b] => decide (1 ≤ b)
  | a :: b :: t => decide (1 ≤ a) && decide (a < b) && risingFromOne (b :: t)

/-- Non-increasing. -/
def nonIncreasing : List Nat → Bool
  | [] => true
  | [_] => true
  | a :: b :: t => decide (b ≤ a) && nonIncreasing (b :: t)

/-- Test 6 for one class. -/
def breaksOk (p : Pricing) : Bool := risingFromOne (p.breaks.toList.take (p.tiers - 1))

/-- Test 7 for one class. -/
def pricesOk (p : Pricing) : Bool := nonIncreasing (p.prices.toList.take p.tiers)

/-- The largest P0 of the four classes (R80). -/
def ceilingOf (pricing : PerClass Pricing) : Nat :=
  max (max pricing[0].prices[0] pricing[1].prices[0]) (max pricing[2].prices[0] pricing[3].prices[0])

/-- The lowest class, in class order, that fails a test. -/
def firstClassFailing (test : Pricing → Bool) (pricing : PerClass Pricing) : Option ClassId :=
  (List.finRange 4).find? (fun c => !(test pricing[c]))

/-- Test 1: the five sections, when all are loaded, or the lowest empty one, HEADER before class 0 (R80). -/
def stagedSections (ts : TariffStore) : Except Selector (Header × PerClass Pricing) :=
  match ts.header with
  | none => .error .header
  | some h =>
    match ts.pricing[0], ts.pricing[1], ts.pricing[2], ts.pricing[3] with
    | none, _, _, _ => .error (.pricing 0)
    | some _, none, _, _ => .error (.pricing 1)
    | some _, some _, none, _ => .error (.pricing 2)
    | some _, some _, some _, none => .error (.pricing 3)
    | some a, some b, some c, some d => .ok (h, #v[a, b, c, d])

/-- The checker's judgement of the staged tariff: the first test that fails, or the tariff with its ceiling (R80). -/
def judgeStaged (ts : TariffStore) : Except CheckResult Tariff :=
  match stagedSections ts with
  | .error sel => .error (.sectionEmpty sel)
  | .ok (h, pricing) =>
    if h.stamp = 0 then .error .badStamp
    else if 100 < h.duplex then .error .badDuplex
    else if 2000 < h.minimum then .error .badMinimum
    else if h.discounts.toList.any (fun d => decide (50 < d)) then .error .badDiscount
    else
      match firstClassFailing breaksOk pricing with
      | some c => .error (.badBreakpoints c)
      | none =>
        match firstClassFailing pricesOk pricing with
        | some c => .error (.badPrices c)
        | none =>
          if ceilingOf pricing = 0 then .error .noPrice
          else .ok { header := h, pricing := pricing, ceiling := ceilingOf pricing }

end Sys2Proof.Machine
end

