-- ==== Sys2Proof/Machine/Ops.lean ====
section
/-! DEFINITION. The operations the blocks share: a station's place in the state, the send list to its copier (R202),
panels (R29), changes of station state with what each brings (R1, R6, R13, R29, R84), protocol faults (R31), the log's
requests (R168, R169), and the account table's six requests with the wake (R112 to R119). -/

namespace Sys2Proof.Machine

/-! ## Places in the state -/

/-- A station. -/
def State.st (s : State) (n : StationId) : Station := s.stations[n.val]

/-- One station changed, everything else kept. -/
def State.modSt (s : State) (n : StationId) (f : Station → Station) : State :=
  { s with stations := s.stations.set n.val (f (s.st n)) }

/-- A station's session record changed, where it has one. -/
def modSession (n : StationId) (f : Session → Session) (s : State) : State :=
  s.modSt n (fun x => { x with session := x.session.map f })

/-- A station's job record changed, where it has one. -/
def modJob (n : StationId) (f : Job → Job) (s : State) : State :=
  s.modSt n (fun x => { x with job := x.job.map f })

/-- A station's counters changed (R30). -/
def modCounters (n : StationId) (f : Counters → Counters) (s : State) : State :=
  s.modSt n (fun x => { x with counters := f x.counters })

/-- One entry of a per-class quantity changed. -/
def modClass {α : Type} (v : PerClass α) (c : ClassId) (f : α → α) : PerClass α := v.set c.val (f v[c])

/-- The stations in the order of this step's free draw (log entry 4), and the draw used up. -/
def takeOrder (s : State) : List StationId × State :=
  (Config.stationOrder s.draws, { s with draws := s.draws + 1 })

/-- A step taken at each station of a list in turn. -/
def atEach (stations : List StationId) (f : StationId → State → State) (s : State) : State :=
  stations.foldl (fun acc n => f n acc) s

/-- The answer of a request that is a step of its own (log entry 3). -/
def answerWith (a : Answer) (s : State) : State := { s with answer := some a }

/-! ## What a station holds -/

/-- The station's link is alive: its silence measure is below 100 (R8). -/
def Station.alive (x : Station) : Bool := decide (x.silence < 100)

/-- The station holds a session: in AUTHORIZING, or with a session record (R1). -/
def Station.holdsSession (x : Station) : Bool := decide (x.state = .authorizing) || x.session.isSome

/-- The slot is in REQUESTED (R128). -/
def Slot.isRequested : Slot → Bool
  | .requested _ _ _ => true
  | .free => false
  | .active _ _ => false
  | .topup _ _ _ => false

/-- The request outstanding at a slot (R128). -/
def Slot.request : Slot → Option Request
  | .requested _ _ r => some r
  | .topup _ _ r => some r
  | .free => none
  | .active _ _ => none

/-- The funding kind of a session (R11). -/
def Funding.kind : Funding → FundingKind
  | .account _ => .account
  | .bank _ _ _ => .bank
  | .free => .free

/-- A session's remaining amount: its limit less its gross mills in cents rounded up, and 0 for FREE (R29). -/
def Session.remaining (ses : Session) : Nat :=
  match ses.limit with
  | none => 0
  | some l => l - (ses.gross + 9) / 10

/-- The station's remaining amount, 0 without a session record (R29). -/
def Station.remaining (x : Station) : Nat :=
  match x.session with
  | none => 0
  | some ses => ses.remaining

/-- The ceiling of the station's active tariff (R57). -/
def Station.ceiling (x : Station) : Nat :=
  match x.tariff.active with
  | none => 0
  | some t => t.ceiling

/-- Sides granted and not yet reported imaged; 0 when no job record exists (R2, R14). -/
def Station.released (x : Station) : Nat :=
  match x.job with
  | none => 0
  | some j => j.released

/-! ## The send list (R202) -/

/-- A PANEL joins the tail in place of any unsent one. -/
def listPanel (locked : Bool) (amount : Nat) (code : Option PanelCode) (l : List OutRecord) : List OutRecord :=
  l.filter (fun r => match r with | .panel _ _ _ => false | .grant _ => true | .halt => true | .probe => true)
    ++ [.panel locked amount code]

/-- A GRANT adds to the unsent GRANT that no HALT follows; otherwise it joins the tail. R202 adds without a bound: the
listed sum may pass the 128 that R214 gives the byte (DESIGN CHOICE, log entry 28). -/
def listGrant (sides : Nat) : List OutRecord → List OutRecord
  | [] => [.grant sides]
  | .grant g :: t => if t.contains .halt then .grant g :: listGrant sides t else .grant (g + sides) :: t
  | .halt :: t => .halt :: listGrant sides t
  | .panel a b c :: t => .panel a b c :: listGrant sides t
  | .probe :: t => .probe :: listGrant sides t

/-- Every unsent GRANT is removed. -/
def dropGrants (l : List OutRecord) : List OutRecord :=
  l.filter (fun r => match r with | .grant _ => false | .halt => true | .panel _ _ _ => true | .probe => true)

/-- A HALT removes the unsent GRANTs and joins the tail unless an unsent HALT is listed. -/
def listHalt (l : List OutRecord) : List OutRecord :=
  let kept := dropGrants l
  if kept.contains .halt then kept else kept ++ [.halt]

/-- A PROBE joins the tail unless an unsent PROBE is listed. -/
def listProbe (l : List OutRecord) : List OutRecord := if l.contains .probe then l else l ++ [.probe]

/-- An unsent PROBE is removed, as on entry to DISABLED. -/
def dropProbes (l : List OutRecord) : List OutRecord := l.filter (fun r => decide (r ≠ .probe))

/-- The station produces a PANEL. -/
def sendPanel (n : StationId) (locked : Bool) (amount : Nat) (code : Option PanelCode) (s : State) : State :=
  s.modSt n (fun x => { x with sendList := listPanel locked amount code x.sendList })

/-- A refusal PANEL: locked, amount 0 (R101, R135, R136). -/
def refusalPanel (n : StationId) (code : PanelCode) (s : State) : State := sendPanel n true 0 (some code) s

/-- The station produces a HALT. -/
def sendHalt (n : StationId) (s : State) : State := s.modSt n (fun x => { x with sendList := listHalt x.sendList })

/-- The station produces a GRANT. -/
def sendGrant (n : StationId) (sides : Nat) (s : State) : State :=
  s.modSt n (fun x => { x with sendList := listGrant sides x.sendList })

/-- The station produces a PROBE. -/
def sendProbe (n : StationId) (s : State) : State := s.modSt n (fun x => { x with sendList := listProbe x.sendList })

/-! ## Panels of the station states (R29) -/

/-- Lock state and amount that R29 gives the station's state; none where entry sends no PANEL. -/
def Station.lockAndAmount (x : Station) : Option (Bool × Nat) :=
  match x.state with
  | .disabled => some (true, 0)
  | .down => none
  | .idle => some (true, 0)
  | .authorizing => some (true, 0)
  | .opened => some (false, x.remaining)
  | .confirming => some (true, x.remaining)
  | .running => some (false, x.remaining)
  | .starved => some (false, x.remaining)
  | .jammedFree => some (true, 0)
  | .suspended => none
  | .closing => some (true, x.remaining)
  | .service => some (true, 0)
  | .jammedSession => some (true, x.remaining)

/-- The message code that R29 gives a station state. -/
def StationState.panelCode : StationState → Option PanelCode
  | .disabled => none | .down => none | .idle => some .presentCard | .authorizing => some .authorizing
  | .opened => none | .confirming => some .confirming | .running => none | .starved => some .starved
  | .jammedFree => some .jammed | .suspended => none | .closing => none | .service => some .service
  | .jammedSession => some .jammed

/-- The PANEL of the station's state (R29); nothing in DOWN and SUSPENDED. -/
def statePanel (n : StationId) (s : State) : State :=
  match (s.st n).lockAndAmount with
  | none => s
  | some (locked, amount) => sendPanel n locked amount (s.st n).state.panelCode s

/-! ## Commit and changes of state -/

/-- What a commit does to the apply status (R84). -/
def ApplyStatus.afterCommit : ApplyStatus → ApplyStatus
  | .inProgress => .inProgress
  | .aborted => .aborted
  | .none => .applied | .applied => .applied | .pending => .applied | .rejectedInvalid => .applied
  | .rejectedBusy => .applied

/-- The tariff store commits the station's next tariff, if it holds one: it becomes active (R84), and notice TARIFF is
raised unless the commit belongs to a warm reset (`quiet`, R85, R89). -/
def commitTariff (quiet : Bool) (n : StationId) (s : State) : State :=
  match (s.st n).tariff.next with
  | none => s
  | some t =>
    let s1 := s.modSt n (fun x => { x with
      tariff := { active := some t, next := none, status := x.tariff.status.afterCommit } })
    if quiet then s1 else raiseFor .tariff n s1

/-- The states whose entry asks for a commit (R6, R84). -/
def StationState.commits : StationState → Bool
  | .idle => true | .down => true | .disabled => true | .service => true
  | .authorizing => false | .opened => false | .confirming => false | .running => false | .starved => false
  | .jammedFree => false | .suspended => false | .closing => false | .jammedSession => false

/-- The notice an entry raises (R9, R17, R53, R160). SERVICE is raised by `enterService`, which may find the station
in SERVICE already (R183). -/
def StationState.entryNotice : StationState → Option NoticeSource
  | .down => some .stationDown
  | .suspended => some .stationDown
  | .confirming => some .confirmWaiting
  | .starved => some .starved
  | .disabled => none | .idle => none | .authorizing => none | .opened => none | .running => none
  | .jammedFree => none | .closing => none | .service => none | .jammedSession => none

/-- The states in which the idle timer runs (R13). -/
def StationState.idleRuns : StationState → Bool
  | .opened => true | .starved => true
  | .disabled => false | .down => false | .idle => false | .authorizing => false | .confirming => false
  | .running => false | .jammedFree => false | .suspended => false | .closing => false | .service => false
  | .jammedSession => false

/-- A change of a station's own items on entry to a state: the state, the changed flag (R33), the idle timer (R13),
the unsent PROBE that DISABLED removes (R202). -/
def Station.entering (new : StationState) (x : Station) : Station :=
  { x with
    state := new
    changed := true
    idleTimer := if new.idleRuns then some x.settings.idleTime else none
    sendList := if new = .disabled then dropProbes x.sendList else x.sendList }

/-- The notice of an entry, where the state has one. -/
def raiseEntry (new : StationState) (n : StationId) (s : State) : State :=
  match new.entryNotice with
  | none => s
  | some src => raiseFor src n s

/-- A change of station state, with what it brings: changed flag, idle timer, notice, PANEL (R29), and the commit of
the states that ask for one (R6). A transition from a state to itself is no change (R1). -/
def enter (quiet : Bool) (new : StationState) (n : StationId) (s : State) : State :=
  if (s.st n).state = new then s
  else
    let s1 := statePanel n (raiseEntry new n (s.modSt n (Station.entering new)))
    if new.commits then commitTariff quiet n s1 else s1

/-- The station enters SERVICE, or stays there, and notice SERVICE is raised (R6, R101, R183). -/
def enterService (quiet : Bool) (n : StationId) (s : State) : State := enter quiet .service n (raiseFor .service n s)

/-- The audit lock withholds the station: lock on, and the audit OUT_OF_STEP (R6, R183). -/
def Station.lockedOut (x : Station) : Bool := x.settings.auditLock && decide (x.audit.state = .outOfStep)

/-- The entry to IDLE with its checks in order (R6). -/
def enterIdle (quiet : Bool) (n : StationId) (s : State) : State :=
  if (s.st n).serviceDue then enterService quiet n (s.modSt n (fun x => { x with serviceDue := false }))
  else if (s.st n).lockedOut then enterService quiet n s
  else if (s.st n).slot.isRequested then enter quiet .authorizing n s
  else enter quiet .idle n s

/-- A protocol fault: counted, PROTOCOL raised, and the service-due flag set where a session record is present
(R31). -/
def protocolFault (n : StationId) (s : State) : State :=
  raiseFor .protocol n (s.modSt n (fun x => { x with
    counters := { x.counters with protocolFaults := satAdd max32 x.counters.protocolFaults 1 }
    serviceDue := x.serviceDue || x.session.isSome }))

/-! ## The settlement log's requests -/

/-- Numbers that pass from 4,294,967,295 to 1 (R2, R165). -/
def nextNumber (n : Nat) : Nat := if max32 ≤ n then 1 else n + 1

/-- The admission reservation: granted when the unreserved space is at least 1 (R168). -/
def reserve (s : State) : Bool × State :=
  if 1 ≤ s.log.unreserved then
    (true, logLowCheck { s with log := { s.log with reservations := s.log.reservations + 1 } })
  else (false, s)

/-- A reservation is returned (R168). -/
def returnReservation (s : State) : State :=
  logLowCheck { s with log := { s.log with reservations := s.log.reservations - 1 } }

/-- A record joins the tail with the next number; SETTLEMENT where the log held none (R165, R169, R172). -/
def joinLog (body : LogBody) (reservations : Nat) (s : State) : State :=
  let s1 := { s with log := { s.log with
    records := s.log.records ++ [{ number := s.log.counter, body := body }]
    counter := nextNumber s.log.counter
    reservations := reservations } }
  logLowCheck (if s.log.records.isEmpty then raise .settlement s1 else s1)

/-- A SESSION or VOID record is offered with its reservation, which it spends (R169). The reservation it spends is an
entry held back, so the offer finds one; a list that holds 256 records takes none. -/
def offerReserved (body : LogBody) (s : State) : State :=
  if s.log.records.length < 256 then joinLog body (s.log.reservations - 1) s else s

/-- A STATEMENT is offered against unreserved space; the answer is its number, none when it is refused (R169). -/
def offerStatement (body : LogBody) (s : State) : Option Nat × State :=
  if 1 ≤ s.log.unreserved then (some s.log.counter, joinLog body s.log.reservations s) else (none, s)

/-! ## Account records -/

/-- The record at an index: the listed one, or the cold reset values (R107). -/
def lookupAccount : AccountTable → Nat → Account
  | [], _ => {}
  | (j, a) :: t, i => if i = j then a else lookupAccount t i

/-- A record in front of a table, unless it is the one an unlisted index reads as. -/
def consAccount (i : Nat) (a : Account) (t : AccountTable) : AccountTable := if a = {} then t else (i, a) :: t

/-- The record at an index replaced, the canonical form kept. -/
def putAccount (i : Nat) (a : Account) : AccountTable → AccountTable
  | [] => consAccount i a []
  | (j, b) :: t =>
    if i < j then consAccount i a ((j, b) :: t)
    else if i = j then consAccount i a t
    else (j, b) :: putAccount i a t

/-- The table's canonical form: indices strictly rising and below 2,048, no entry equal to the cold reset values. -/
abbrev AccountTable.wf (t : AccountTable) : Prop :=
  t.Pairwise (fun a b => a.1 < b.1) ∧ ∀ e ∈ t, e.1 < 2048 ∧ e.2 ≠ {}

/-- The record of an account. -/
def State.account (s : State) (i : AccountId) : Account := lookupAccount s.accounts i.val

/-- The record of an account changed. -/
def State.modAccount (s : State) (i : AccountId) (f : Account → Account) : State :=
  { s with accounts := putAccount i.val (f (s.account i)) s.accounts }

/-- The sum of the holds in the funded list (R107). -/
def Account.held (a : Account) : Nat := (a.funded.map Funded.hold).sum

/-- The available funds: balance, plus the credit limit of a CREDIT account, less the held total (R108). -/
def Account.available (a : Account) : Int :=
  a.balance + (if a.kind = .credit then (a.creditLimit : Int) else 0) - (a.held : Int)

/-- The station's entry in the funded list. -/
def Account.entryOf (a : Account) (n : StationId) : Option Funded := a.funded.find? (fun e => decide (e.station = n))

/-! ## The account table's requests -/

/-- Admission (R112): refused, or a hold of the smaller of the available funds and the hold quantum is placed. -/
def requestAdmission (i : AccountId) (n : StationId) (floor : Nat) (s : State) : AdmissionAnswer × State :=
  let a := s.account i
  if a.state ≠ .active then (.refusedState, s)
  else if a.cap ≤ a.funded.length then (.refusedCap, s)
  else if a.available < (floor : Int) then (.refusedFloor, s)
  else
    let hold := min a.available.toNat s.quantum
    (.admitted hold a.discountClass,
     s.modAccount i (fun a => { a with
       funded := a.funded ++ [{ station := n, hold := hold }]
       sessions := satAdd max32 a.sessions 1 }))

/-- The amount a hold extension would grant, if any (R113). -/
def extensionAmount (i : AccountId) (s : State) : Option Nat :=
  let a := s.account i
  if a.state = .blocked then none
  else if a.available ≤ 0 then none
  else some (min a.available.toNat s.quantum)

/-- A hold extension of `amount`: the hold of the station's entry and the session's funding limit rise together
(R113). -/
def extendHold (i : AccountId) (n : StationId) (amount : Nat) (s : State) : State :=
  modSession n (fun ses => { ses with limit := ses.limit.map (· + amount) })
    (s.modAccount i (fun a => { a with
      funded := a.funded.map (fun e => if e.station = n then { e with hold := e.hold + amount } else e) }))

/-- A hold extension asked by the station of an ACCOUNT session, with the PANEL for the rise of its limit (R51, R113,
R29). -/
def requestExtension (i : AccountId) (n : StationId) (s : State) : Option Nat × State :=
  match extensionAmount i s with
  | none => (none, s)
  | some amount => (some amount, statePanel n (extendHold i n amount s))

/-- A side advance: the period side count as it stands, and the count one higher (R117). -/
def requestSideAdvance (i : AccountId) (c : ClassId) (s : State) : Nat × State :=
  ((s.account i).sides[c],
   s.modAccount i (fun a => { a with sides := modClass a.sides c (fun k => satAdd maxSides k 1) }))

/-- A side return: the period side count lowered, not below 0 (R118). -/
def requestSideReturn (i : AccountId) (c : ClassId) (sides : Nat) (s : State) : State :=
  s.modAccount i (fun a => { a with sides := modClass a.sides c (fun k => k - sides) })

/-- A job count (R119). -/
def requestJobCount (i : AccountId) (s : State) : State :=
  s.modAccount i (fun a => { a with jobs := satAdd max32 a.jobs 1 })

/-- A walk as it starts: at the lowest station number in the funded list, its wake not yet taken. None starts over an empty
list (R115). -/
def newWalk (funded : List Funded) : Option Walk :=
  ((List.finRange 16).find? (fun n => funded.any (fun e => decide (e.station = n)))).map
    (fun n => { position := n, visited := false, restart := false })

/-- A wake is started (R115): a walk begins, or the walk in progress is marked for restart; a walk over an empty list
ends at once. -/
def startWake (i : AccountId) (s : State) : State :=
  s.modAccount i (fun a => { a with
    walk := match a.walk with
      | none => newWalk a.funded
      | some w => if a.funded.isEmpty then none else some { w with restart := true } })

/-- The walk when a station's entry leaves the funded list: an entry removed is not visited, so a walk that stands at the
station is past it (R115). -/
def Walk.leave (n : StationId) (w : Walk) : Walk := if w.position = n then { w with visited := true } else w

/-- What a posting leaves of the account record (R114): the charge out of the balance and in the period charge, the
station's entry off the funded list. A wake walk does not visit the entry removed, and one over a list that is now empty
ends (R115); one that has no station left above its position ends with its next row (log entry 19). -/
def Account.posted (n : StationId) (charge : Nat) (a : Account) : Account :=
  let rest := a.funded.filter (fun x => decide (x.station ≠ n))
  { a with
    balance := a.balance - (charge : Int)
    funded := rest
    charge := satAdd 999999999 a.charge charge
    walk := if rest.isEmpty then none else a.walk.map (Walk.leave n) }

/-- A posting (R114): the account is posted, and a charge below the released hold starts a wake. Only a station on the
list posts (R116). -/
def requestPosting (i : AccountId) (n : StationId) (charge : Nat) (s : State) : State :=
  match (s.account i).entryOf n with
  | none => s
  | some e =>
    let s1 := s.modAccount i (Account.posted n charge)
    if charge < e.hold then startWake i s1 else s1

end Sys2Proof.Machine
end

