-- ==== Sys2Proof/Machine/AuditUnit.lean ====
section
/-! DEFINITION. The meter audit unit (10_meter_audit.md): side reports (R178), meter readings (R180 to R182), the audit
lock (R183), and START, STOP and CLEAR (R184 to R186). -/

namespace Sys2Proof.Machine

/-- The categories of a side report (R45). -/
inductive SideCategory where
  | billed | free | overrun | unattributed
  deriving DecidableEq, Repr

/-- Sides accounted under a category, the counter stopping at 4,294,967,295 (R178). -/
def Accounted.add (cat : SideCategory) (sides : Nat) (a : Accounted) : Accounted :=
  match cat with
  | .billed => { a with billed := satAdd max32 a.billed sides }
  | .free => { a with free := satAdd max32 a.free sides }
  | .overrun => { a with overrun := satAdd max32 a.overrun sides }
  | .unattributed => { a with unattributed := satAdd max32 a.unattributed sides }

/-- The accounted total of a class (R177). -/
def Accounted.total (a : Accounted) : Nat := a.billed + a.free + a.overrun + a.unattributed

/-- The audit counts side reports and judges meters: TRACKING or OUT_OF_STEP (R177). -/
def AuditState.running : AuditState → Bool
  | .tracking => true | .outOfStep => true
  | .off => false | .baseline => false

/-- A side report: accounted in TRACKING and OUT_OF_STEP, discarded otherwise; a class number above 3 is not reported
(R45, R178). -/
def Audit.report (cls : Nat) (cat : SideCategory) (sides : Nat) (a : Audit) : Audit :=
  match classOf cls with
  | none => a
  | some c =>
    if a.state.running then { a with accounted := modClass a.accounted c (Accounted.add cat sides) } else a

/-- The station reports sides to its audit record. -/
def reportSides (cls : Nat) (cat : SideCategory) (sides : Nat) (n : StationId) (s : State) : State :=
  s.modSt n (fun x => { x with audit := x.audit.report cls cat sides })

/-- The station's probe interval in seconds (R179). -/
def Settings.interval (c : Settings) : Nat := c.probeMinutes * 60

/-- Zero accounts and zero discrepancies. -/
def Audit.zeroed (a : Audit) : Audit :=
  { a with accounted := Vector.replicate 4 {}, discrepancy := Vector.replicate 4 0 }

/-- A meter becomes baseline and latest: the first reading in BASELINE, and a meter gone backwards (R180, R181). -/
def Audit.rebase (meter : PerClass Nat) (time : Nat × Bool) (interval : Nat) (a : Audit) : Audit :=
  { a.zeroed with
    state := .tracking, baseline := some meter, latest := some meter, latestTime := some time, readings := 1
    intervalTimer := some interval }

/-- The meter delta of a class, modulo 4,294,967,296 (R177). -/
def meterDelta (baseline meter : PerClass Nat) (c : ClassId) : Nat :=
  (meter[c] + 4294967296 - baseline[c] % 4294967296) % 4294967296

/-- The meter has gone backwards in some class (R181). -/
def wentBackwards (baseline meter : PerClass Nat) : Bool :=
  (List.finRange 4).any (fun c => decide (2147483648 ≤ meterDelta baseline meter c))

/-- Each class's discrepancy: its meter delta less its accounted total (R177, R181). -/
def discrepancies (baseline meter : PerClass Nat) (acc : PerClass Accounted) : PerClass Int :=
  Vector.ofFn (fun c : Fin 4 => (meterDelta baseline meter c : Int) - (acc[c].total : Int))

/-- Some class lies beyond the threshold (R182). -/
def beyondThreshold (threshold : Nat) (d : PerClass Int) : Bool :=
  d.toList.any (fun x => decide (threshold < x.natAbs))

/-- The audit record after a judged METER that has not gone backwards (R181, R182). -/
def Audit.judged (meter : PerClass Nat) (time : Nat × Bool) (threshold : Nat) (baseline : PerClass Nat) (a : Audit) :
    Audit :=
  let d := discrepancies baseline meter a.accounted
  { a with
    latest := some meter, latestTime := some time, readings := satAdd max32 a.readings 1, discrepancy := d
    state := if beyondThreshold threshold d then .outOfStep else .tracking }

/-- The station of an audit that has entered OUT_OF_STEP goes from IDLE to SERVICE when its lock is on (R183). -/
def lockIdle (n : StationId) (s : State) : State :=
  if (s.st n).state = .idle ∧ (s.st n).lockedOut = true then enterService false n s else s

/-- A METER record in TRACKING or OUT_OF_STEP (R181, R182, R183). -/
def judgeMeter (meter : PerClass Nat) (n : StationId) (s : State) : State :=
  let a := (s.st n).audit
  let base := a.baseline.getD (Vector.replicate 4 0)
  let time := (s.clock, s.clockSet)
  if wentBackwards base meter then
    raiseFor .audit n (s.modSt n (fun x => { x with
      audit := { x.audit.rebase meter time x.settings.interval with
        rebaselines := satAdd 65535 x.audit.rebaselines 1 } }))
  else
    let s1 := s.modSt n (fun x => { x with audit := x.audit.judged meter time x.settings.auditThreshold base })
    let after := (s1.st n).audit.state
    if a.state = .tracking ∧ after = .outOfStep then lockIdle n (raiseFor .audit n s1)
    else if a.state = .outOfStep ∧ after = .tracking then raiseFor .audit n s1
    else s1

/-- A METER record by audit state (R180). -/
def takeMeter (meter : PerClass Nat) (n : StationId) (s : State) : State :=
  match (s.st n).audit.state with
  | .off => s
  | .baseline =>
    s.modSt n (fun x => { x with audit := x.audit.rebase meter (s.clock, s.clockSet) x.settings.interval })
  | .tracking => judgeMeter meter n s
  | .outOfStep => judgeMeter meter n s

/-- START at one station (R184): a PROBE is sent at once unless the station is in DISABLED. -/
def auditStart (n : StationId) (s : State) : State :=
  let s1 := s.modSt n (fun x => { x with audit := { x.audit.zeroed with
    readings := 0, rebaselines := 0, baseline := none, latest := none, latestTime := none, intervalTimer := none
    state := .baseline, meterRequest := true } })
  if (s.st n).state = .disabled then s1 else sendProbe n s1

/-- STOP at one station (R185). -/
def auditStop (n : StationId) (s : State) : State :=
  s.modSt n (fun x => { x with
    audit := if x.audit.state = .off then x.audit
      else { x.audit with state := .off, intervalTimer := none, meterRequest := false } })

/-- CLEAR at one station (R186). -/
def auditClear (n : StationId) (s : State) : State :=
  s.modSt n (fun x => { x with audit :=
    match x.audit.latest with
    | none => x.audit.zeroed
    | some m => { x.audit.zeroed with baseline := some m, readings := 1 } })

end Sys2Proof.Machine
end

