-- ==== Sys2Proof/Machine/Sessions.lean ====
section
/-! DEFINITION. A session from its opening to its settlement: the opening (R11), the slot's tags and requests (R129 to
R131, R140), credit of in-path sheets (R146), settlement (R28, R141), closing (R26, R27) and the settlements that do
not pass through CLOSING (R150). -/

namespace Sys2Proof.Machine

/-! ## Opening (R11) -/

/-- A session opening takes the session counter's value, and the counter advances (R2). -/
def takeSessionNumber (s : State) : Nat × State :=
  (s.sessionCounter, { s with sessionCounter := nextNumber s.sessionCounter })

/-- The session record at its opening (R11), with what the opening's own kind gives it. -/
def newSession (number : Nat) (funding : Funding) (card : CardId) (limit : Option Nat) (stamp discount time : Nat)
    (clockSet : Bool) : Session :=
  { number := number, funding := funding, card := card, limit := limit, stamp := stamp, discount := discount
    gross := 0, credited := 0, sideCounts := Vector.replicate 4 0, sheetsExited := 0, sheetsCredited := 0
    overrunSides := 0, jamCount := 0, jobs := 0, openTime := time, clockSet := clockSet, lastActivity := time
    endReason := none }

/-- The stamp of the station's active tariff. -/
def Station.stamp (x : Station) : Nat :=
  match x.tariff.active with
  | none => 0
  | some t => t.header.stamp

/-- The discount percent the station's active tariff gives a discount class (R65). -/
def Station.discountOf (x : Station) (cls : Nat) : Nat :=
  match x.tariff.active with
  | none => 0
  | some t => discountPercent t cls

/-- The opening: the record is made, the station counts it and enters OPEN (R11). The log reservation that the
admission or the slot held is the session's from here on; the count does not change (R168). -/
def openSession (funding : Funding) (card : CardId) (limit : Option Nat) (discount : Nat) (n : StationId)
    (s : State) : State :=
  let (number, s1) := takeSessionNumber s
  enter false .opened n (s1.modSt n (fun x => { x with
    session := some (newSession number funding card limit x.stamp discount s.clock s.clockSet)
    counters := { x.counters with sessions := satAdd max32 x.counters.sessions 1 } }))

/-! ## Tags and requests -/

/-- Tags pass from 65,535 to 1 (R129). -/
def nextTag (t : Nat) : Nat := if 65535 ≤ t then 1 else t + 1

/-- The tags of the requests outstanding (R129). -/
def outstandingTags (s : State) : List Nat := s.stations.toList.filterMap (fun x => x.slot.request.map Request.tag)

/-- The first tag from `t` on that no outstanding request carries; `tries` values may be passed over. -/
def freeTag (used : List Nat) : Nat → Nat → Nat
  | 0, t => t
  | tries + 1, t => if used.contains t then freeTag used tries (nextTag t) else t

/-- A request takes the next free tag, and the counter advances past it (R129). -/
def takeTag (s : State) : Nat × State :=
  let used := outstandingTags s
  let t := freeTag used used.length s.tagCounter
  (t, { s with tagCounter := nextTag t })

/-- The request a slot makes now: the tag, the hold quantum, the shop clock, 30 s, not fetched (R130, R131). -/
def newRequest (tag : Nat) (s : State) : Request :=
  { tag := tag, amount := s.quantum, time := s.clock, clockSet := s.clockSet, timer := 30, fetched := false }

/-- The request joins the tail of the fetch order and AUTH_WAITING is raised (R130, R131, R132). -/
def announceRequest (n : StationId) (s : State) : State :=
  raiseFor .authWaiting n { s with fetchOrder := s.fetchOrder ++ [n] }

/-- The slot's request leaves the fetch order (R132). -/
def leaveFetchOrder (n : StationId) (s : State) : State := { s with fetchOrder := s.fetchOrder.filter (· ≠ n) }

/-- A slot takes a bank card: REQUESTED, with the admission's reservation (R130). -/
def firstRequest (card : CardId) (discountClass : Nat) (n : StationId) (s : State) : State :=
  let (tag, s1) := takeTag s
  announceRequest n (s1.modSt n (fun x => { x with slot := .requested card discountClass (newRequest tag s) }))

/-- A slot in ACTIVE asks for a top-up of its session's funding and enters TOPUP; the session counts it (R52, R131). -/
def requestTopup (n : StationId) (s : State) : State :=
  match (s.st n).slot with
  | .active card discountClass =>
    let (tag, s1) := takeTag s
    announceRequest n (modSession n
      (fun ses => { ses with funding := match ses.funding with
        | .bank a v k => .bank a v (k + 1)
        | .account i => .account i
        | .free => .free })
      (s1.modSt n (fun x => { x with slot := .topup card discountClass (newRequest tag s) })))
  | .free => s
  | .requested _ _ _ => s
  | .topup _ _ _ => s

/-- A tag joins the session's voided tags (R140). -/
def Funding.voidTag (tag : Nat) : Funding → Funding
  | .bank a v k => .bank a (v ++ [tag]) k
  | .account i => .account i
  | .free => .free

/-- A tag joins the session's approved tags (R138). -/
def Funding.approveTag (tag : Nat) : Funding → Funding
  | .bank a v k => .bank (a ++ [tag]) v k
  | .account i => .account i
  | .free => .free

/-- A top-up ends without a result: its request leaves the fetch order, its tag joins the voided tags and the slot
returns to ACTIVE (R140). A slot that is not in TOPUP is left as it is. -/
def voidTopup (n : StationId) (s : State) : State :=
  match (s.st n).slot with
  | .topup card discountClass req =>
    leaveFetchOrder n (modSession n (fun ses => { ses with funding := ses.funding.voidTag req.tag })
      (s.modSt n (fun x => { x with slot := .active card discountClass })))
  | .free => s
  | .requested _ _ _ => s
  | .active _ _ => s

/-- A first request ends with a VOID record that spends the slot's reservation; the slot becomes FREE
(R135, R137, R143). -/
def voidFirst (cause : VoidCause) (n : StationId) (s : State) : State :=
  match (s.st n).slot with
  | .requested _ _ req =>
    offerReserved (.void { tag := req.tag, station := n, time := s.clock, clockSet := s.clockSet, cause := cause })
      (leaveFetchOrder n (s.modSt n (fun x => { x with slot := .free })))
  | .free => s
  | .active _ _ => s
  | .topup _ _ _ => s

/-! ## Credit (R146) -/

/-- The charged sides of a class among some sheets. -/
def chargedOf (sheets : List Sheet) (c : ClassId) : Nat :=
  ((sheets.filter (fun e => decide (e.cls = c.val))).map Sheet.charged).sum

/-- The charged sides among some sheets. -/
def chargedSum (sheets : List Sheet) : Nat := (sheets.map Sheet.charged).sum

/-- The provisional mills of some sheets. -/
def millsSum (sheets : List Sheet) : Nat := (sheets.map Sheet.mills).sum

/-- What credit does to the session record. The credited mills stop at the largest money value (log entry 12). -/
def Session.creditSheets (sheets : List Sheet) (ses : Session) : Session :=
  { ses with
    gross := ses.gross - millsSum sheets
    credited := satAdd maxMoney ses.credited (millsSum sheets)
    sideCounts := Vector.ofFn (fun c : Fin 4 => ses.sideCounts[c] - chargedOf sheets c)
    sheetsCredited := satAdd max32 ses.sheetsCredited sheets.length }

/-- What credit does to the job record: the last-sheet mark goes with its sheet. -/
def Job.creditSheets (sheets : List Sheet) (j : Job) : Job :=
  { j with lastSheet := j.lastSheet.filter (fun q => !(sheets.any (fun e => decide (e.number = q)))) }

/-- One side return per class in which the sheets carried charged sides (R118, R146). -/
def returnSides (i : AccountId) (sheets : List Sheet) (s : State) : State :=
  (List.finRange 4).foldl
    (fun acc c => if chargedOf sheets c = 0 then acc else requestSideReturn i c (chargedOf sheets c) acc) s

/-- Credit takes every entry of the station's in-path list at once and returns its price to the session (R146). -/
def credit (n : StationId) (s : State) : State :=
  let sheets := (s.st n).inPath
  let s1 := s.modSt n (fun x => { x with
    session := x.session.map (Session.creditSheets sheets)
    job := x.job.map (Job.creditSheets sheets)
    counters := { x.counters with sheetsCredited := satAdd max32 x.counters.sheetsCredited sheets.length }
    inPath := [] })
  match (s.st n).session with
  | none => s1
  | some ses =>
    match ses.funding with
    | .account i => returnSides i sheets s1
    | .bank _ _ _ => s1
    | .free => s1

/-- The charged sides credited join the job's reprint allowance, which stops at 16 (R147). -/
def allowReprint (sides : Nat) (n : StationId) (s : State) : State :=
  modJob n (fun j => { j with reprint := satAdd 16 j.reprint sides }) s

/-! ## Settlement (R28) -/

/-- The session's charge and minimum-applied flag, worked by the rating engine from the active tariff (R67). -/
def Station.charge (x : Station) (ses : Session) : Nat × Bool :=
  match x.tariff.active with
  | none => (0, false)
  | some t => settlementCharge t ses.funding.kind ses.gross ses.discount (ses.limit.getD 0) ses.sideCounts.toList.sum

/-- The SESSION record of a settlement (R166). -/
def sessionRecord (n : StationId) (ses : Session) (charge : Nat × Bool) (s : State) : SessionRecord :=
  { number := ses.number, station := n, kind := ses.funding.kind
    account := match ses.funding with
      | .account i => some i
      | .bank _ _ _ => none
      | .free => none
    tags := match ses.funding with
      | .bank a v _ => some (a, v)
      | .account _ => none
      | .free => none
    cardTail := cardTail ses.card, limit := ses.limit, openTime := ses.openTime, openClockSet := ses.clockSet
    closeTime := s.clock, closeClockSet := s.clockSet, stamp := ses.stamp, sideCounts := ses.sideCounts
    sheetsExited := ses.sheetsExited, sheetsCredited := ses.sheetsCredited, creditedMills := ses.credited
    overrunSides := ses.overrunSides, jamCount := ses.jamCount, jobs := ses.jobs, gross := ses.gross
    discount := ses.discount, charge := charge.1, minimumApplied := charge.2
    endReason := ses.endReason.getD .finished }

/-- The funding owner takes the charge: the account table posts it (R114); the slot's capture is the SESSION record
itself (R141); FREE has no owner. -/
def postCharge (n : StationId) (ses : Session) (charge : Nat) (s : State) : State :=
  match ses.funding with
  | .account i => requestPosting i n charge s
  | .bank _ _ _ => s
  | .free => s

/-- What a settlement leaves of the station's items: no session, no job, the slot of a BANK session FREE, the
jam-during-close flag clear, and the close's timers stopped (R28, R141). Side advances kept for a next sheet go with
the session (log entry 17). -/
def Station.settled (bank : Bool) (x : Station) : Station :=
  { x with
    session := none
    job := none
    slot := if bank then .free else x.slot
    advances := []
    jamDuringClose := false
    drainTimer := none
    recoveryTimer := none
    prior := none }

/-- Settlement up to the dropping of the session record (R28). -/
def settleRecord (n : StationId) (s : State) : State :=
  match (s.st n).session with
  | none => s
  | some ses =>
    let charge := (s.st n).charge ses
    let s1 := postCharge n ses charge.1 s
    let s2 := offerReserved (.session (sessionRecord n ses charge s1)) s1
    s2.modSt n (Station.settled (decide (ses.funding.kind = .bank)))

/-- Settlement, with the state the station enters by the table of R28. -/
def settle (n : StationId) (s : State) : State :=
  match (s.st n).session with
  | none => s
  | some ses =>
    let x := s.st n
    let reason := ses.endReason.getD .finished
    let s1 := settleRecord n s
    if x.disablePending ∨ reason = .disabled then
      enter false .disabled n (s1.modSt n (fun y => { y with disablePending := false }))
    else if reason = .jamLimit then
      enter false .jammedFree n (s1.modSt n (fun y => { y with serviceDue := true }))
    else if x.jamDuringClose ∨ reason = .jamAbandoned then enter false .jammedFree n s1
    else if reason = .linkLost ∨ x.alive = false then enter false .down n s1
    else enterIdle false n s1

/-! ## Closing (R26) and the settlements without CLOSING (R150) -/

/-- The job record is dropped, and with it released-outstanding, the reprint allowance and the unmet want. -/
def dropJob (n : StationId) (s : State) : State := s.modSt n (fun x => { x with job := none })

/-- The idle, confirm and recovery timers stop and the pending start is cleared (R26, R150). -/
def Station.stopForClose (x : Station) : Station :=
  { x with idleTimer := none, confirmTimer := none, recoveryTimer := none, startPending := false, descriptor := none
           prior := none }

/-- The end reason is set; one that is set already stays (R26). -/
def setEndReason (reason : EndReason) (n : StationId) (s : State) : State :=
  modSession n (fun ses => { ses with endReason := some (ses.endReason.getD reason) }) s

/-- The start of closing, in the order of R26, at a station with a session record that is not in CLOSING. -/
def startClosing (reason : EndReason) (n : StationId) (s : State) : State :=
  if (s.st n).session.isNone ∨ (s.st n).state = .closing then s
  else
    let s1 := s.modSt n (fun x => { x with
      jamDuringClose := x.jamDuringClose || decide (x.state = .jammedSession) })
    let s2 := voidTopup n s1
    let s3 := dropJob n (sendHalt n (s2.modSt n Station.stopForClose))
    let s4 := enter false .closing n (setEndReason reason n s3)
    if (s4.st n).inPath.isEmpty then settle n s4
    else s4.modSt n (fun x => { x with drainTimer := some 20 })

/-- The steps 1 to 6 of R150. -/
def closeAtOnce (reason : EndReason) (n : StationId) (s : State) : State :=
  setEndReason reason n (credit n (dropJob n (sendHalt n ((voidTopup n s).modSt n Station.stopForClose))))

/-- A session settles without passing through CLOSING (R150). -/
def settleNow (reason : EndReason) (n : StationId) (s : State) : State := settle n (closeAtOnce reason n s)

end Sys2Proof.Machine
end

