-- ==== Sys2Proof/Machine/Grants.lean ====
section
/-! DEFINITION. Grants: what a job mode wants (R20 to R23), the exposure check (R49), the request and its sizing
(R48, R50 to R53), the start grant (R16), the retry (R54), the reprint grant (R156) and the end of a job (R24). -/

namespace Sys2Proof.Machine

/-! ## What the job mode wants -/

/-- The release cap: the release window in SINGLE and RUN, twice the set sides in SET (R14). -/
def Job.cap (j : Job) (window : Nat) : Nat :=
  match j.mode with
  | .single => window
  | .run => window
  | .set => 2 * j.setSides

/-- The sides the job mode wants released at a consultation (R21, R22, R23). `atStart` is the start grant. -/
def Job.want (j : Job) (window : Nat) (atStart : Bool) : Nat :=
  match j.mode with
  | .single => if atStart then (if j.duplex then 2 else 1) else 0
  | .run => if j.released ≤ window / 2 then window - j.released else 0
  | .set => if j.released ≤ j.setSides ∧ 0 < j.setsRemaining then j.setSides else 0

/-- The request of a consultation: the mode's want when above 0, the unmet want otherwise (R48), within the release
cap (R14). -/
def Job.request (j : Job) (window : Nat) (atStart : Bool) : Nat :=
  let want := j.want window atStart
  min (if 0 < want then want else j.unmet) (j.cap window - j.released)

/-! ## The exposure check (R49) -/

/-- The session's exposure in mills: its gross mills plus its released-outstanding sides at the ceiling. -/
def Station.exposure (x : Station) : Nat :=
  (match x.session with
    | none => 0
    | some ses => ses.gross) + x.released * x.ceiling

/-- A grant of `g` sides passes the exposure check; every grant of a FREE session passes. -/
def Station.passes (x : Station) (g : Nat) : Bool :=
  match x.session with
  | none => false
  | some ses =>
    match ses.limit with
    | none => true
    | some l => decide (x.exposure + g * x.ceiling ≤ 10 * l)

/-- The largest passing grant within a request (R49, R50). -/
def Station.passing (x : Station) (request : Nat) : Nat :=
  match x.session with
  | none => 0
  | some ses =>
    match ses.limit with
    | none => request
    | some l => if x.passes request then request else min request ((10 * l - x.exposure) / x.ceiling)

/-- The grant a request is sized into: as much as passes, or in SET mode the whole set or nothing (R50). -/
def Station.sized (x : Station) (whole : Bool) (request : Nat) : Nat :=
  if whole then (if x.passes request then request else 0) else x.passing request

/-! ## Asking the funder (R51, R52) -/

/-- The mills by which a request misses passing whole. -/
def Station.shortfall (x : Station) (request : Nat) : Nat :=
  match x.session with
  | none => 0
  | some ses => x.exposure + request * x.ceiling - 10 * ses.limit.getD 0

/-- Hold extensions are asked until the request passes whole or one is refused (R51). Each grants at least a cent, so
as many tries as the shortfall has mills are enough. -/
def askExtensions (i : AccountId) (n : StationId) (request : Nat) : Nat → State → State
  | 0, s => s
  | tries + 1, s =>
    if (s.st n).passes request then s
    else
      match requestExtension i n s with
      | (none, s1) => s1
      | (some _, s1) => askExtensions i n request tries s1

/-- The station asks its funder where the request is cut short: hold extensions for ACCOUNT (R51), a top-up for BANK
while the slot is ACTIVE and fewer than 3 have been requested (R52). -/
def askFunder (n : StationId) (request : Nat) (s : State) : State :=
  if request = 0 ∨ (s.st n).passes request then s
  else
    match (s.st n).session with
    | none => s
    | some ses =>
      match ses.funding with
      | .account i => askExtensions i n request ((s.st n).shortfall request) s
      | .bank _ _ topups => if topups < 3 then requestTopup n s else s
      | .free => s

/-! ## Granting (R50, R53) -/

/-- What sizing leaves in the job record: the grant joins released-outstanding, a grant in SET mode lowers the sets
remaining, and the unmet want is what the grant left of the request (R48, R50). -/
def Job.granted (request g : Nat) (oneSet : Bool) (j : Job) : Job :=
  { j with
    released := j.released + g
    unmet := request - g
    setsRemaining := if oneSet ∧ 0 < g then j.setsRemaining - 1 else j.setsRemaining }

/-- A sized grant takes effect: the job record, and a GRANT record where the grant is above 0 (R50). -/
def giveGrant (n : StationId) (request g : Nat) (oneSet : Bool) (s : State) : State :=
  let s1 := modJob n (Job.granted request g oneSet) s
  if 0 < g then sendGrant n g s1 else s1

/-- The station's state after a grant has been sized (R53). -/
def grantOutcome (n : StationId) (request g : Nat) (s : State) : State :=
  if 0 < g then enter false .running n s
  else if 0 < request ∧ (s.st n).released = 0 ∧ (s.st n).state = .running then enter false .starved n s
  else s

/-- A consultation of the job mode: request, funder, sizing, outcome (R48, R50 to R53). -/
def consult (atStart : Bool) (n : StationId) (s : State) : State :=
  match (s.st n).job with
  | none => s
  | some j =>
    let request := j.request (s.st n).settings.window atStart
    let s1 := askFunder n request s
    let g := (s1.st n).sized (decide (j.mode = .set)) request
    grantOutcome n request g (giveGrant n request g (decide (j.mode = .set)) s1)

/-- A retry, in RUNNING or STARVED (R54). -/
def retry (n : StationId) (s : State) : State :=
  if (s.st n).state = .running ∨ (s.st n).state = .starved then consult false n s else s

/-! ## Start and end of a job -/

/-- The job record of a start grant, with SET turned to RUN where the set has no sides or more than 64 (R14, R16). -/
def jobOf (d : Descriptor) : Job :=
  let sides := if d.duplex then d.originals * 2 else d.originals
  let asSet := decide (d.mode = .set) && decide (0 < d.originals) && decide (sides ≤ 64)
  { mode := if d.mode = .set ∧ asSet = false then .run else d.mode
    originals := d.originals, copies := d.copies, duplex := d.duplex
    setSides := if asSet then sides else 0
    setsRemaining := if asSet then d.copies else 0
    released := 0, reprint := 0, unmet := 0, lastSheet := none }

/-- The start grant (R16): the pending start becomes a running job, is counted, and the first grant is consulted. -/
def startGrant (n : StationId) (s : State) : State :=
  match (s.st n).descriptor with
  | none => s
  | some d =>
    let s1 := s.modSt n (fun x => { x with
      job := some (jobOf d)
      startPending := false
      descriptor := none
      confirmTimer := none
      session := x.session.map (fun ses => { ses with jobs := satAdd max32 ses.jobs 1 })
      counters := { x.counters with jobs := satAdd max32 x.counters.jobs 1 } })
    let s2 := match (s.st n).session with
      | none => s1
      | some ses =>
        match ses.funding with
        | .account i => requestJobCount i s1
        | .bank _ _ _ => s1
        | .free => s1
    consult true n (enter false .running n s2)

/-- The end of a job that closes no session: the job record goes, and with it the unsent GRANTs; a running or starved
station enters OPEN (R24, R202). -/
def endJob (n : StationId) (s : State) : State :=
  let s1 := s.modSt n (fun x => { x with job := none, sendList := dropGrants x.sendList })
  if (s.st n).state = .running ∨ (s.st n).state = .starved then enter false .opened n s1 else s1

/-- A pending start is cleared, as on a deny, a jam or link silence (R17, R19, R160). -/
def dropStart (n : StationId) (s : State) : State :=
  s.modSt n (fun x => { x with startPending := false, descriptor := none, confirmTimer := none })

/-- START-DENY, and the expiry of the confirm timer: back to OPEN, then the PANEL with code REFUSED and with the lock
state and amount of OPEN (R19, R29). -/
def denyStart (n : StationId) (s : State) : State :=
  let s1 := enter false .opened n (dropStart n s)
  sendPanel n false (s1.st n).remaining (some .refused) s1

/-! ## The reprint grant (R156) -/

/-- The request of the reprint grant: the allowance, within the release cap. -/
def Job.reprintRequest (j : Job) (window : Nat) : Nat := min j.reprint (j.cap window - j.released)

/-- The reprint grant: sized as in RUN whatever the mode, no set counted, and the allowance used up. -/
def reprintGrant (n : StationId) (s : State) : State :=
  match (s.st n).job with
  | none => s
  | some j =>
    let request := j.reprintRequest (s.st n).settings.window
    let s1 := askFunder n request s
    modJob n (fun j => { j with reprint := 0 }) (giveGrant n request ((s1.st n).sized false request) false s1)

end Sys2Proof.Machine
end

