-- ==== Sys2Proof/Machine/Cards.lean ====
section
/-! DEFINITION. The card router's classification and bindings (R91, R92, R95), and the admission of a presented card
(R101 to R104). -/

namespace Sys2Proof.Machine

/-! ## Classification -/

/-- A pattern matches the digits it lies over: every digit that is no wildcard is equal (R91). -/
def patternMatches : List PatternDigit → List Nat → Bool
  | [], _ => true
  | _ :: _, [] => false
  | .wildcard :: p, _ :: c => patternMatches p c
  | .digit d :: p, x :: c => decide (d = x) && patternMatches p c

/-- A rule matches a card ID (R91). A pattern that runs past the last digit does not match. -/
def Rule.matchesCard (r : Rule) (card : CardId) : Bool :=
  r.enabled && (decide (r.length = 0) || decide (r.length = card.length)) &&
    decide (r.offset + r.pattern.length ≤ card.length) && patternMatches r.pattern (card.drop r.offset)

/-- The rules that match, lowest number first. -/
def matchingRules (s : State) (card : CardId) : List Rule := s.rules.toList.filter (fun r => r.matchesCard card)

/-- The winning action among matching rules: the first of REFUSE, BANK, ACCOUNT, FREE that appears (R92). -/
def winningAction (rules : List Rule) : Option CardAction :=
  [CardAction.refuse, CardAction.bank, CardAction.account, CardAction.free].find?
    (fun a => rules.any (fun r => decide (r.action = a)))

/-- A classification: the winning action with the discount class of the lowest-numbered rule that has it, or the
default action (R92). -/
def classify (s : State) (card : CardId) : CardOutcome :=
  let rules := matchingRules s card
  match winningAction rules with
  | none => s.defaultAction
  | some a =>
    match rules.find? (fun r => decide (r.action = a)) with
    | none => s.defaultAction
    | some r => { action := a, discountClass := r.discountClass }

/-! ## Bindings -/

/-- The binding that carries a card ID. A lookup made during the table initialization finds none (R95). -/
def lookupBinding (s : State) (card : CardId) : Option Binding :=
  if s.tablesReady then s.bindings.find? (fun b => decide (b.card = card)) else none

/-- A binding at its place in card-ID order (R95, R96). -/
def insertBinding (b : Binding) : List Binding → List Binding
  | [] => [b]
  | c :: t => if cardBefore b.card c.card then b :: c :: t else c :: insertBinding b t

/-! ## Admission -/

/-- The admission in passage ends. -/
def endPassage (n : StationId) (s : State) : State := s.modSt n (fun x => { x with passage := none })

/-- A refused admission: its reservation is returned and the copier is sent the refusal PANEL (R101, R102). -/
def refuseAdmission (code : PanelCode) (n : StationId) (s : State) : State :=
  refusalPanel n code (returnReservation (endPassage n s))

/-- An ACCOUNT session opens on an admitted hold (R102). -/
def openAccountSession (i : AccountId) (card : CardId) (limit discountClass : Nat) (n : StationId) (s : State) :
    State :=
  openSession (.account i) card (some limit) ((s.st n).discountOf discountClass) n (endPassage n s)

/-- The station's opening floor (R66). -/
def Station.floor (x : Station) : Nat :=
  match x.tariff.active with
  | none => 0
  | some t => openingFloor t

/-- The binding under which an admission in passage goes on: the one its lookup has found already, or the card's now
(R102, R105). -/
def Passage.binding (p : Passage) (s : State) : Option Binding := p.found.getD (lookupBinding s p.card)

/-- An ACCOUNT outcome: the binding is looked up and the account table asked for admission (R102). -/
def admitAccount (p : Passage) (n : StationId) (s : State) : State :=
  match p.binding s with
  | none => refuseAdmission .unknownCard n s
  | some b =>
    if b.lost then refuseAdmission .lostCard n (raiseFor .lostCard n s)
    else
      match requestAdmission b.account n (s.st n).floor s with
      | (.admitted limit discountClass, s1) => openAccountSession b.account p.card limit discountClass n s1
      | (.refusedState, s1) => refuseAdmission .refused n s1
      | (.refusedCap, s1) => refuseAdmission .inUse n s1
      | (.refusedFloor, s1) => refuseAdmission .noFunds n s1

/-- The outcome of a card that has passed the four checks (R101, R102, R103). -/
def admitOutcome (o : CardOutcome) (p : Passage) (n : StationId) (s : State) : State :=
  match o.action with
  | .refuse => refuseAdmission .refused n s
  | .free => openSession .free p.card none 0 n (endPassage n s)
  | .bank => enter false .authorizing n (firstRequest p.card o.discountClass n (endPassage n s))
  | .account => admitAccount p n s

/-- An admission in passage goes on to its end: checks 2 to 4 and the outcome (R101), the outcome alone where the card
has been classified already (R105), or the opening or the refusal where the account table has already answered (R102,
R105, R176). Without an admission in passage nothing happens. -/
def finishPassage (n : StationId) (s : State) : State :=
  match (s.st n).passage with
  | none => s
  | some p =>
    match p.hold with
    | some (i, limit, discountClass) => openAccountSession i p.card limit discountClass n s
    | none =>
      match p.refused with
      | some code => refuseAdmission code n s
      | none =>
        match p.outcome with
        | some o => admitOutcome o p n s
        | none =>
          if (s.st n).lockedOut then returnReservation (enterService false n (endPassage n s))
          else if (s.st n).tariff.active.isNone then refuseAdmission .noTariff n s
          else admitOutcome (classify s p.card) p n s

/-- Admission of a valid card at a station in IDLE (R101). -/
def presentCard (card : CardId) (n : StationId) (s : State) : State :=
  match reserve s with
  | (false, s1) => refusalPanel n .logFull s1
  | (true, s1) => finishPassage n (s1.modSt n (fun x => { x with passage := some { card := card, hold := none } }))

/-- A card at a station with a session: the session's own card ends it, another is answered IN_USE, but not in JAMMED
(R104). -/
def tapCard (card : CardId) (n : StationId) (s : State) : State :=
  match (s.st n).session with
  | none => s
  | some ses =>
    if ses.card = card then startClosing .finished n s
    else if (s.st n).state = .jammedSession then s
    else
      match (s.st n).lockAndAmount with
      | none => s
      | some (locked, amount) => sendPanel n locked amount (some .inUse) s

end Sys2Proof.Machine
end

