-- ==== Sys2Proof/Machine/Sheets.lean ====
section
/-! DEFINITION. IMAGED and EXITED records (02_sheet_metering_and_grants.md): the sequence check (R39), charged and overrun
sides (R41), pricing (R42), the in-path list (R43, R47), the completion of a record (R44), and sheets imaged with no
session (R46) or in a jam (R153). -/

namespace Sys2Proof.Machine

/-! ## Sheet numbering (R37, R39) -/

/-- The distance of an arriving sheet number ahead of another, modulo 65,536 (R37). -/
def seqDistance (s l : Nat) : Nat := (s + 65536 - l % 65536) % 65536

/-- An entry numbered `n` is at or before the sheet number `s` in wrapped order (R37). -/
def atOrBefore (n s : Nat) : Bool := decide (seqDistance s n < 32768)

/-- The sequence check's verdict on an IMAGED record: none for a duplicate, else the sheets skipped (R39). With the
sequence-known flag set R39 compares with the last number alone, so after large gaps a number may pass that stands in
the in-path list (log entry 26). -/
def Station.seqVerdict (x : Station) (sheet : Nat) : Option Nat :=
  if x.seqKnown then
    let d := seqDistance sheet x.lastSeq
    if 1 ≤ d ∧ d ≤ 32767 then some (d - 1) else none
  else if x.inPath.any (fun e => decide (e.number = sheet)) then none
  else some 0

/-- A record that passes becomes the last sheet sequence number, and its gap is counted (R37, R39). -/
def passSeq (sheet gap : Nat) (n : StationId) (s : State) : State :=
  s.modSt n (fun x => { x with
    lastSeq := sheet
    seqKnown := true
    counters := { x.counters with sequenceGaps := satAdd max32 x.counters.sequenceGaps gap } })

/-! ## Charged sides and prices (R40 to R42) -/

/-- The class of a record when it is valid: 0 to 3 and among the copier's supported classes (R40). -/
def Station.validClass (x : Station) (cls : Nat) : Option ClassId :=
  match classOf cls with
  | none => none
  | some c => if x.identity.classes.getLsbD c.val then some c else none

/-- The charged sides of a sheet: the smaller of its sides and the released sides, none for an invalid class
(R40, R41). -/
def Station.chargeable (x : Station) (cls sides : Nat) : Nat :=
  match x.validClass cls with
  | none => 0
  | some _ => min sides x.released

/-- The tier basis of a session's charged sides of a class (R42). -/
def Station.basisOf (x : Station) (c : ClassId) : TierBasis :=
  match x.session with
  | none => .session
  | some ses =>
    match ses.funding with
    | .account _ =>
      match x.tariff.active with
      | none => .session
      | some t => t.pricing[c].basis
    | .bank _ _ _ => .session
    | .free => .session

/-- The kind of the `k`-th side, from 0, of a sheet (R61). -/
def sideKindOf (sides k : Nat) : SideKind :=
  if sides = 1 then .simplex else if k = 0 then .first else .second

/-- A priced side joins the session: gross mills and the class's side count (R42, R59). -/
def Session.addSide (c : ClassId) (mills : Nat) (ses : Session) : Session :=
  { ses with gross := ses.gross + mills, sideCounts := modClass ses.sideCounts c (fun k => satAdd maxSides k 1) }

/-- The account table's answer to a side advance (R117): the one the station has asked ahead for this class, or the
answer to a request made now (log entry 17). -/
def takeAdvance (i : AccountId) (c : ClassId) (n : StationId) (s : State) : Nat × State :=
  match (s.st n).advances.find? (fun e => decide (e.1 = c)) with
  | some e => (e.2, s.modSt n (fun x => { x with advances := x.advances.erase e }))
  | none => requestSideAdvance i c s

/-- One charged side is priced (R42): for an ACCOUNT session the account table is asked for a side advance, and its
answer is the tier counter under PERIOD basis. The result carries the side's mills. -/
def priceSide (c : ClassId) (kind : SideKind) (n : StationId) (s : State) : Nat × State :=
  match (s.st n).session, (s.st n).tariff.active with
  | some ses, some t =>
    let own := ses.sideCounts[c]
    match ses.funding with
    | .account i =>
      let (answered, s1) := takeAdvance i c n s
      let counter := if t.pricing[c].basis = .period then answered else own
      let m := sideMills t c kind counter ses.gross
      (m, modSession n (Session.addSide c m) s1)
    | .bank _ _ _ =>
      let m := sideMills t c kind own ses.gross
      (m, modSession n (Session.addSide c m) s)
    | .free =>
      let m := sideMills t c kind own ses.gross
      (m, modSession n (Session.addSide c m) s)
  | some _, none => (0, s)
  | none, _ => (0, s)

/-- The charged sides of a sheet priced in order, first side before second (R42, R61). A sheet has at most two. Another
station's side advance comes between the two where the first has been asked ahead (R60, R117, log entry 17). -/
def priceSides (c : ClassId) (sides charged : Nat) (n : StationId) (s : State) : Nat × State :=
  match charged with
  | 0 => (0, s)
  | 1 => priceSide c (sideKindOf sides 0) n s
  | _ =>
    let (m0, s1) := priceSide c (sideKindOf sides 0) n s
    let (m1, s2) := priceSide c (sideKindOf sides 1) n s1
    (m0 + m1, s2)

/-! ## Metering a sheet -/

/-- What metering counts for a sheet: released-outstanding falls by the charged sides (R41), the overrun sides join the
session's and the station's counters (R41), and the charged sides join the station's counter of the class (R42). -/
def countSheet (cls charged overrun : Nat) (n : StationId) (s : State) : State :=
  s.modSt n (fun x => { x with
    job := x.job.map (fun j => { j with released := j.released - charged })
    session := x.session.map (fun ses => { ses with overrunSides := satAdd max32 ses.overrunSides overrun })
    counters := { x.counters with
      overrunSides := satAdd max32 x.counters.overrunSides overrun
      sides := match classOf cls with
        | none => x.counters.sides
        | some c => modClass x.counters.sides c (fun k => satAdd max32 k charged) } })

/-- The category of a session's charged sides (R45). -/
def Station.chargedCategory (x : Station) : SideCategory :=
  match x.session with
  | none => .unattributed
  | some ses =>
    match ses.funding with
    | .free => .free
    | .account _ => .billed
    | .bank _ _ _ => .billed

/-- Side advances asked ahead of a sheet and not used by it are forgotten (log entry 17). -/
def dropAdvances (n : StationId) (s : State) : State := s.modSt n (fun x => { x with advances := [] })

/-- Steps R40 to R42 and R45 for a sheet of a session: charged and overrun sides, prices, the audit report. The result
carries the sheet's in-path entry. -/
def meterSheet (sheet cls sides : Nat) (n : StationId) (s : State) : Sheet × State :=
  let x := s.st n
  let charged := x.chargeable cls sides
  let overrun := sides - charged
  let s1 := countSheet cls charged overrun n s
  let priced := match x.validClass cls with
    | none => (0, s1)
    | some c => priceSides c sides charged n s1
  let s3 := reportSides cls .overrun overrun n (reportSides cls x.chargedCategory charged n (dropAdvances n priced.2))
  ({ number := sheet, cls := cls, sides := sides, charged := charged, mills := priced.1
     basis := match x.validClass cls with
       | none => .session
       | some c => if charged = 0 then .session else x.basisOf c
     overrun := decide (0 < overrun) }, s3)

/-! ## Exits (R47) -/

/-- The head entry exits: the exited counters rise, and the last sheet of a SINGLE job ends the job (R47). -/
def exitHead (n : StationId) (s : State) : State :=
  match (s.st n).inPath with
  | [] => s
  | e :: rest =>
    let s1 := s.modSt n (fun x => { x with
      inPath := rest
      session := x.session.map (fun ses => { ses with sheetsExited := satAdd max32 ses.sheetsExited 1 })
      counters := { x.counters with sheetsExited := satAdd max32 x.counters.sheetsExited 1 } })
    match (s.st n).job with
    | none => s1
    | some j => if j.lastSheet = some e.number then endJob n s1 else s1

/-- Entries leave from the head while the head is at or before the sheet number (R47). -/
def exitUpTo (sheet : Nat) (n : StationId) : Nat → State → State
  | 0, s => s
  | k + 1, s =>
    match (s.st n).inPath with
    | [] => s
    | e :: _ => if atOrBefore e.number sheet then exitUpTo sheet n k (exitHead n s) else s

/-- An EXITED record in session metering; a removal that empties the list in CLOSING ends the drain (R27, R47). -/
def takeExited (sheet : Nat) (n : StationId) (s : State) : State :=
  let before := (s.st n).inPath.length
  let s1 := exitUpTo sheet n before s
  if (s1.st n).state = .closing ∧ (s1.st n).inPath = [] ∧ 0 < before then settle n s1 else s1

/-! ## The in-path list (R43, R44) -/

/-- The entry joins the tail; a list of 8 first loses its head as though exited, and a protocol fault is counted
(R43). -/
def joinPath (e : Sheet) (n : StationId) (s : State) : State :=
  let s1 := if 8 ≤ (s.st n).inPath.length then protocolFault n (exitHead n s) else s
  s1.modSt n (fun x => { x with inPath := x.inPath ++ [e] })

/-- The idle timer restarts where it runs (R13). -/
def restartIdle (n : StationId) (s : State) : State :=
  s.modSt n (fun x => { x with idleTimer := x.idleTimer.map (fun _ => x.settings.idleTime) })

/-- The session's last-activity time becomes the shop clock (R11). -/
def touchSession (n : StationId) (s : State) : State :=
  modSession n (fun ses => { ses with lastActivity := s.clock }) s

/-- In a SINGLE job with nothing released and no unmet want, the new entry is the job's last sheet (R44). -/
def markLast (sheet : Nat) (n : StationId) (s : State) : State :=
  modJob n (fun j => { j with
    lastSheet := if j.mode = .single ∧ j.released = 0 ∧ j.unmet = 0 then some sheet else j.lastSheet }) s

/-- The completion of a metered record, in the order of R44 (the audit report has been made by `meterSheet`). -/
def completeImaged (e : Sheet) (n : StationId) (s : State) : State :=
  let s1 := markLast e.number n (statePanel n (touchSession n (restartIdle n s)))
  if e.overrun ∧ (s1.st n).state ≠ .closing then startClosing .overrun n s1
  else if ¬ e.overrun ∧ (s1.st n).state = .running then consult false n s1
  else s1

/-- Session metering of an IMAGED record (R39 to R45). -/
def meterImaged (sheet cls sides : Nat) (n : StationId) (s : State) : State :=
  match (s.st n).seqVerdict sheet with
  | none => protocolFault n s
  | some gap =>
    let (e, s1) := meterSheet sheet cls sides n (passSeq sheet gap n s)
    completeImaged e n (joinPath e n s1)

/-- An IMAGED record with no session: its sides are unattributed (R46). -/
def unattributedImaged (sheet cls sides : Nat) (n : StationId) (s : State) : State :=
  match (s.st n).seqVerdict sheet with
  | none => protocolFault n s
  | some gap =>
    reportSides cls .unattributed sides n ((passSeq sheet gap n s).modSt n (fun x => { x with
      counters := { x.counters with unattributed := satAdd max32 x.counters.unattributed sides } }))

/-- What a credit adds to the last jam report (R149, R153). The sums stop at the largest value of their fields (log
entry 12). -/
def JamReport.add (sheets : List Sheet) (r : JamReport) : JamReport :=
  { r with
    sheets := satAdd max32 r.sheets sheets.length
    sides := satAdd max32 r.sides (chargedSum sheets)
    mills := satAdd maxMoney r.mills (millsSum sheets) }

/-- An IMAGED record in JAMMED with a session record: metered, and at once credited (R153). -/
def jammedImaged (sheet cls sides : Nat) (n : StationId) (s : State) : State :=
  match (s.st n).seqVerdict sheet with
  | none => protocolFault n s
  | some gap =>
    let (e, s1) := meterSheet sheet cls sides n (passSeq sheet gap n s)
    let s2 := s1.modSt n (fun x => { x with inPath := x.inPath ++ [e] })
    let sheets := (s2.st n).inPath
    let s3 := allowReprint (chargedSum sheets) n (credit n s2)
    statePanel n (touchSession n (s3.modSt n (fun x => { x with lastJam := x.lastJam.map (JamReport.add sheets) })))

/-- An IMAGED record by station state, once the station has been brought out of DOWN and SUSPENDED (R38). -/
def takeImaged (sheet cls sides : Nat) (n : StationId) (s : State) : State :=
  if (s.st n).state = .disabled then s
  else if sides ≠ 1 ∧ sides ≠ 2 then protocolFault n s
  else
    match (s.st n).state with
    | .running => meterImaged sheet cls sides n s
    | .starved => meterImaged sheet cls sides n s
    | .opened => meterImaged sheet cls sides n s
    | .confirming => meterImaged sheet cls sides n s
    | .closing => meterImaged sheet cls sides n s
    | .jammedSession => jammedImaged sheet cls sides n s
    | .idle => unattributedImaged sheet cls sides n s
    | .authorizing => unattributedImaged sheet cls sides n s
    | .service => unattributedImaged sheet cls sides n s
    | .jammedFree => unattributedImaged sheet cls sides n s
    | .disabled => s
    | .down => s
    | .suspended => s

end Sys2Proof.Machine
end

