-- ==== Sys2Proof/Machine/Recovery.lean ====
section
/-! DEFINITION. Jam and link recovery (08_jam_and_link_recovery.md): JAM and CLEARED records (R148 to R159), suspension
and resumption (R160 to R163), and the arrival of any valid record (R8, R10). -/

namespace Sys2Proof.Machine

/-! ## Suspension and resumption -/

/-- The prior session state kept in SUSPENDED: CONFIRMING is kept as OPEN (R160). -/
def StationState.priorOf : StationState → StationState
  | .confirming => .opened
  | .disabled => .disabled | .down => .down | .idle => .idle | .authorizing => .authorizing | .opened => .opened
  | .running => .running | .starved => .starved | .jammedFree => .jammedFree | .suspended => .suspended
  | .closing => .closing | .service => .service | .jammedSession => .jammedSession

/-- A station with a session goes into SUSPENDED on silence (R160). -/
def suspend (n : StationId) (s : State) : State :=
  let x := s.st n
  let s1 := if x.state = .confirming then dropStart n s else s
  enter false .suspended n (s1.modSt n (fun y => { y with
    prior := some x.state.priorOf
    recoveryTimer := if x.state = .jammedSession then y.recoveryTimer else some y.settings.recoveryTime }))

/-- The first valid record after silence resumes the session in its prior state (R162): the changed flag, the idle
timer of OPEN and STARVED, the recovery timer kept in JAMMED alone, and the PANEL. Resumption raises no notice. -/
def resume (n : StationId) (s : State) : State :=
  match (s.st n).prior with
  | none => s
  | some p =>
    statePanel n (s.modSt n (fun y => { Station.entering p y with
      prior := none
      recoveryTimer := if p = .jammedSession then y.recoveryTimer else none }))

/-- A valid record reaches the station: it counts as life on the link (R8), waits for an admission in passage to end
(R101), and brings the station out of DOWN or SUSPENDED before it is handled (R10). -/
def arrive (n : StationId) (s : State) : State :=
  let s1 := finishPassage n (s.modSt n (fun x => { x with silence := 0 }))
  if (s1.st n).state = .down then enterIdle false n s1
  else if (s1.st n).state = .suspended then resume n s1
  else s1

/-- What every CARD, START, EXITED, JOB_END, JAM, CLEARED and FINISH record does besides its own rule: the idle timer
restarts where it runs, and the session's last-activity time is set (R11, R13; log entry 21). -/
def activity (n : StationId) (s : State) : State := touchSession n (restartIdle n s)

/-- The silence measure reaches 100 (R9). -/
def linkSilent (n : StationId) (s : State) : State :=
  let s1 := finishPassage n (s.modSt n (fun x => { x with silence := 100 }))
  match (s1.st n).state with
  | .idle => enter false .down n s1
  | .authorizing => enter false .down n s1
  | .jammedFree => enter false .down n s1
  | .opened => suspend n s1
  | .confirming => suspend n s1
  | .running => suspend n s1
  | .starved => suspend n s1
  | .jammedSession => suspend n s1
  | .closing => s1
  | .disabled => s1
  | .down => s1
  | .service => s1
  | .suspended => s1

/-! ## JAM records -/

/-- A JAM the state takes is counted, and the last jam report starts afresh with nothing credited (R148). -/
def reportJam (location sheets : Nat) (n : StationId) (s : State) : State :=
  s.modSt n (fun x => { x with
    counters := { x.counters with jams := satAdd max32 x.counters.jams 1 }
    lastJam := some { location := location, sheetsInPath := sheets, time := s.clock, clockSet := s.clockSet
                      sheets := 0, sides := 0, mills := 0 } })

/-- The session's jam count rises, the in-path sheets are credited and go into the last jam report (R149, R152, R159). -/
def creditJam (n : StationId) (s : State) : State :=
  let sheets := (s.st n).inPath
  (credit n (modSession n (fun ses => { ses with jamCount := satAdd 255 ses.jamCount 1 }) s)).modSt n
    (fun x => { x with lastJam := x.lastJam.map (JamReport.add sheets) })

/-- A jam that brings the session's jam count to the station's limit settles it at once (R149, R151, R152). -/
def jamLimit (n : StationId) (s : State) : State :=
  match (s.st n).session with
  | none => s
  | some ses => if (s.st n).settings.jamLimit ≤ ses.jamCount then settleNow .jamLimit n s else s

/-- A JAM in OPEN, RUNNING or STARVED, or passed on from CONFIRMING, in the order of R149. -/
def jamInSession (n : StationId) (s : State) : State :=
  let sides := chargedSum (s.st n).inPath
  let s1 := (allowReprint sides n (creditJam n s)).modSt n (fun x => { x with
    idleTimer := none
    recoveryTimer := some x.settings.recoveryTime })
  jamLimit n (raiseFor .jam n (enter false .jammedSession n s1))

/-- A JAM record by station state, once the station has been brought out of DOWN and SUSPENDED (R148). -/
def takeJam (location sheets : Nat) (n : StationId) (s : State) : State :=
  match (s.st n).state with
  | .opened => jamInSession n (reportJam location sheets n s)
  | .running => jamInSession n (reportJam location sheets n s)
  | .starved => jamInSession n (reportJam location sheets n s)
  | .confirming => jamInSession n (dropStart n (reportJam location sheets n s))
  | .jammedSession => jamLimit n (raiseFor .jam n (creditJam n (reportJam location sheets n s)))
  | .closing =>
    settle n (raiseFor .jam n ((creditJam n (reportJam location sheets n s)).modSt n (fun x => { x with
      jamDuringClose := true, drainTimer := none })))
  | .idle => raiseFor .jam n (enter false .jammedFree n (reportJam location sheets n s))
  | .jammedFree => raiseFor .jam n (reportJam location sheets n s)
  | .authorizing => raiseFor .jam n (reportJam location sheets n s)
  | .service => raiseFor .jam n (reportJam location sheets n s)
  | .disabled => s
  | .down => s
  | .suspended => s

/-! ## CLEARED records -/

/-- A CLEARED in JAMMED with a session record, in the order of R155. -/
def endJam (n : StationId) (s : State) : State :=
  let s1 := s.modSt n (fun x => { x with recoveryTimer := none })
  match (s.st n).job with
  | none => enter false .opened n s1
  | some _ => consult false n (reprintGrant n (enter false .running n s1))

/-- A CLEARED record by station state (R155, R157). -/
def takeCleared (n : StationId) (s : State) : State :=
  match (s.st n).state with
  | .jammedSession => endJam n s
  | .jammedFree => enterIdle false n s
  | .idle => s | .authorizing => s | .opened => s | .confirming => s | .running => s | .starved => s | .closing => s
  | .service => s | .disabled => s | .down => s | .suspended => s

/-! ## The other records of a copier -/

/-- An ANNOUNCE record (R4, R37): the identity is replaced, the sequence-known flag cleared, and sheets still listed
are credited; in CLOSING that ends the drain (R27). -/
def takeAnnounce (model classes capacity : Nat) (n : StationId) (s : State) : State :=
  let s1 := s.modSt n (fun x => { x with
    identity := { model := some model, classes := BitVec.ofNat 4 classes, capacity := some capacity }
    seqKnown := false })
  if (s.st n).inPath.isEmpty then s1
  else
    let s2 := credit n s1
    if (s.st n).state = .closing then settle n (s2.modSt n (fun x => { x with drainTimer := none })) else s2

/-- A START's descriptor, when it is valid (R15). -/
def descriptorOf (mode originals copies : Nat) (duplex : Bool) : Option Descriptor :=
  match jobModeOf mode with
  | none => none
  | some m =>
    if 1 ≤ copies ∧ copies ≤ 9999 ∧ originals ≤ 999 then
      some { mode := m, originals := originals, copies := copies, duplex := duplex }
    else none

/-- A valid START in OPEN: stored, and granted at once or left to the host by the start mode (R15, R16, R17). -/
def pendStart (d : Descriptor) (n : StationId) (s : State) : State :=
  let s1 := s.modSt n (fun x => { x with startPending := true, descriptor := some d })
  match (s.st n).settings.startMode with
  | .panel => startGrant n s1
  | .attended =>
    enter false .confirming n (s1.modSt n (fun x => { x with confirmTimer := some x.settings.confirmTime }))

/-- A START record by station state (R15). -/
def takeStart (mode originals copies : Nat) (duplex : Bool) (n : StationId) (s : State) : State :=
  match (s.st n).state with
  | .opened =>
    match descriptorOf mode originals copies duplex with
    | none => protocolFault n s
    | some d => pendStart d n s
  | .confirming => protocolFault n s
  | .running => protocolFault n s
  | .starved => protocolFault n s
  | .jammedFree => protocolFault n s
  | .jammedSession => protocolFault n s
  | .closing => protocolFault n s
  | .service => protocolFault n s
  | .idle => s | .authorizing => s | .disabled => s | .down => s | .suspended => s

/-- A JOB_END record by station state (R24). -/
def takeJobEnd (n : StationId) (s : State) : State :=
  match (s.st n).state with
  | .running => endJob n s
  | .starved => endJob n s
  | .jammedSession => if (s.st n).job.isSome then endJob n s else protocolFault n s
  | .opened => protocolFault n s
  | .confirming => protocolFault n s
  | .jammedFree => protocolFault n s
  | .service => protocolFault n s
  | .closing => s | .idle => s | .authorizing => s | .disabled => s | .down => s | .suspended => s

/-- A FINISH record by station state (R25). -/
def takeFinish (n : StationId) (s : State) : State :=
  match (s.st n).state with
  | .opened => startClosing .finished n s
  | .confirming => startClosing .finished n s
  | .running => startClosing .finished n s
  | .starved => startClosing .finished n s
  | .jammedSession => startClosing .finished n s
  | .service => protocolFault n s
  | .jammedFree => protocolFault n s
  | .closing => s | .idle => s | .authorizing => s | .disabled => s | .down => s | .suspended => s

/-- An EXITED record by station state (R47, R153). -/
def takeExit (sheet : Nat) (n : StationId) (s : State) : State :=
  match (s.st n).state with
  | .running => takeExited sheet n s
  | .starved => takeExited sheet n s
  | .opened => takeExited sheet n s
  | .confirming => takeExited sheet n s
  | .closing => takeExited sheet n s
  | .jammedSession => s | .idle => s | .authorizing => s | .service => s | .jammedFree => s | .disabled => s
  | .down => s | .suspended => s

/-- A CARD record by station state (R100). -/
def takeCard (bytes : List Byte) (n : StationId) (s : State) : State :=
  match (s.st n).state with
  | .idle =>
    match cardIdOf bytes with
    | none => protocolFault n (refusalPanel n .refused s)
    | some c => presentCard c n s
  | .opened => match cardIdOf bytes with | none => protocolFault n s | some c => tapCard c n s
  | .confirming => match cardIdOf bytes with | none => protocolFault n s | some c => tapCard c n s
  | .running => match cardIdOf bytes with | none => protocolFault n s | some c => tapCard c n s
  | .starved => match cardIdOf bytes with | none => protocolFault n s | some c => tapCard c n s
  | .jammedSession => match cardIdOf bytes with | none => protocolFault n s | some c => tapCard c n s
  | .closing => s | .authorizing => s | .jammedFree => s | .service => s | .disabled => s | .down => s
  | .suspended => s

end Sys2Proof.Machine
end

