-- ==== Sys2Proof/Machine/Replies.lean ====
section
/-! DEFINITION. The data of the replies as bytes (R204, R206, R208 to R212). A reply whose layout the manual does not draw
carries the fields its command's rule names, in the order the rule names them (R204). -/

namespace Sys2Proof.Machine

/-- A time with its flag, where no layout draws a flags byte: four bytes and a flag byte (R204). -/
def beTime (t : Nat) (set : Bool) : List Byte := be4 t ++ beFlag set

/-- As many 00h bytes, for the bytes of an absent field (R204). -/
def zeros (k : Nat) : List Byte := List.replicate k 0#8

/-! ## IDENTIFY (R193) -/

/-- The data of an IDENTIFY reply. -/
def identifyData (s : State) : List Byte :=
  be2 416 ++ be1 Config.designRevision ++ be4 s.host.rate ++ beFlag s.tablesReady ++ beTime s.clock s.clockSet ++
  be1 s.host.lastReset.code ++ be4 s.host.crcFailures ++ be4 s.host.abandoned ++ be4 s.host.discarded

/-! ## Stations (R32, R33, R145) -/

/-- A job descriptor, in the order of R15. -/
def beDescriptor (d : Descriptor) : List Byte := be1 d.mode.code ++ be2 d.originals ++ be2 d.copies ++ beFlag d.duplex

/-- A job record, in the order of R14. -/
def beJob (j : Job) : List Byte :=
  be1 j.mode.code ++ be2 j.originals ++ be2 j.copies ++ beFlag j.duplex ++ be1 j.setSides ++ be2 j.setsRemaining ++
  be1 j.released ++ be1 j.reprint

/-- The fields R11 gives one funding kind: account index, approved tags, voided tags, top-ups requested. A field of another
kind is absent; an absent tag list, which has no fixed size, is its presence byte and one byte 00h in the place of its count
(DESIGN CHOICE, log entry 11). -/
def beFunding : Funding → List Byte
  | .account i => (beFlag true ++ be2 i.val) ++ (beFlag false ++ be1 0) ++ (beFlag false ++ be1 0) ++ (beFlag false ++ be1 0)
  | .bank a v k =>
    (beFlag false ++ be2 0) ++ (beFlag true ++ beList be2 a) ++ (beFlag true ++ beList be2 v) ++ (beFlag true ++ be1 k)
  | .free => (beFlag false ++ be2 0) ++ (beFlag false ++ be1 0) ++ (beFlag false ++ be1 0) ++ (beFlag false ++ be1 0)

/-- A session record as STATION-QUERY reports it: in the order of R11, the card tail in place of the card ID. R11 gives it
one clock-set flag, the open time's; the last-activity time is sent without a flag. R11 lists a card ID and a card tail; the
tail is sent once, in the place of both. These are a DESIGN CHOICE (log entry 11). -/
def beSession (x : Session) : List Byte :=
  be4 x.number ++ be1 (fundingKindCode x.funding.kind) ++ beFunding x.funding ++ beTail (cardTail x.card) ++
  beOption be4 (zeros 4) x.limit ++ be2 x.stamp ++ be1 x.discount ++ be4 x.gross ++ be4 x.credited ++
  bePerClass be4 x.sideCounts ++ be4 x.sheetsExited ++ be4 x.sheetsCredited ++ be4 x.overrunSides ++ be1 x.jamCount ++
  be4 x.jobs ++ be4 x.openTime ++ beFlag x.clockSet ++ be4 x.lastActivity ++
  beOption (fun r => be1 (endReasonCode r)) (zeros 1) x.endReason

/-- The settings of a station, in the order of R3. -/
def beSettings (c : Settings) : List Byte :=
  be1 c.window ++ be1 c.startMode.code ++ be2 c.idleTime ++ be2 c.recoveryTime ++ be2 c.confirmTime ++ be1 c.jamLimit ++
  be1 c.auditThreshold ++ be1 c.probeMinutes ++ beFlag c.auditLock

/-- The copier identity, in the order of R4. The model code and the capacity are unknown until the copier announces
itself; each has a presence byte in front of it, as a field that may be absent has. The supported-class set is one byte
whose bit c stands for class c, as R214 draws it for ANNOUNCE. Both are a DESIGN CHOICE (log entry 11). -/
def beIdentity (i : Identity) : List Byte :=
  beOption be2 (zeros 2) i.model ++ be1 i.classes.toNat ++ beOption be1 (zeros 1) i.capacity

/-- The station counters, in the order of R30. -/
def beCounters (c : Counters) : List Byte :=
  be4 c.sessions ++ be4 c.jobs ++ bePerClass be4 c.sides ++ be4 c.sheetsExited ++ be4 c.jams ++ be4 c.sheetsCredited ++
  be4 c.overrunSides ++ be4 c.sequenceGaps ++ be4 c.frameErrors ++ be4 c.protocolFaults ++ be4 c.unattributed

/-- The last jam report, in the order of R145. -/
def beJamReport (r : JamReport) : List Byte :=
  be1 r.location ++ be1 r.sheetsInPath ++ beTime r.time r.clockSet ++ be4 r.sheets ++ be4 r.sides ++ be4 r.mills

/-- The bytes of an absent session record: those of a FREE session with every field 0 (log entry 11). -/
def absentSession : List Byte :=
  zeros (beSession (newSession 0 .free [0, 0, 0, 0] none 0 0 0 false)).length

/-- The data of a STATION-QUERY reply: the items of R32, then those of R145. That these follow all of R32's items, and that
a stopped recovery timer is a presence byte 00h and two bytes 00h, is a DESIGN CHOICE (log entry 11). -/
def stationQueryData (x : Station) : List Byte :=
  be1 x.state.code ++ beFlag x.changed ++ beFlag x.serviceDue ++ beFlag x.disablePending ++ beFlag x.startPending ++
  beOption beDescriptor (zeros 6) x.descriptor ++ beOption beSession absentSession x.session ++
  beOption beJob (zeros 11) x.job ++ be1 x.inPath.length ++ beFlag x.alive ++ beSettings x.settings ++
  beIdentity x.identity ++ beCounters x.counters ++ be1 x.tariff.status.code ++
  beOption be2 (zeros 2) x.recoveryTimer ++ beOption (fun p => be1 p.code) (zeros 1) x.prior ++
  beOption beJamReport (zeros 19) x.lastJam

/-- The changed bitmap: entry `n` is station `n`'s changed flag (R33). -/
def changedBitmap (s : State) : Mask :=
  (List.finRange 16).foldl (fun m n => if (s.st n).changed then m ||| maskOf n else m) 0#16

/-- The data of a STATION-LIST reply (R33). -/
def stationListData (s : State) : List Byte :=
  s.stations.toList.flatMap (fun x => be1 x.state.code) ++ be2 (changedBitmap s).toNat

/-! ## Tariffs (R87, R208) -/

/-- A HEADER section without its selector byte (R208). -/
def beHeader (h : Header) : List Byte :=
  be2 h.stamp ++ be1 h.duplex ++ be2 h.minimum ++ h.discounts.toList.flatMap be1

/-- A pricing section without its selector byte (R208). -/
def bePricing (p : Pricing) : List Byte :=
  be1 p.tiers ++ p.breaks.toList.flatMap be2 ++ p.prices.toList.flatMap be2 ++ be1 p.basis.code

/-- A tariff: header, four pricing sections, ceiling (R208); absent, as many 00h bytes, so that its stamp is 0 (R204). -/
def beTariff : Option Tariff → List Byte
  | none => zeros 79
  | some t => beHeader t.header ++ bePerClass bePricing t.pricing ++ be2 t.ceiling

/-- The stamp of a tariff that may be absent: a presence byte, and the stamp or two bytes 00h (R87, R204). -/
def beStamp (t : Option Tariff) : List Byte := beOption be2 (zeros 2) (t.map (fun x => x.header.stamp))

/-- The data of a TARIFF-QUERY reply with target STATUS (R87). -/
def tariffStatusData (s : State) : List Byte :=
  beFlag s.tariffs.check.isSome ++ be1 s.tariffs.lastResult.code ++
  beOption be1 (zeros 1) (checkResultNames s.tariffs.lastResult) ++
  s.stations.toList.flatMap (fun x =>
    beStamp x.tariff.active ++ beStamp x.tariff.next ++ be1 x.tariff.status.code)

/-- The data of a TARIFF-QUERY reply with target STAGED: HEADER, then the classes, each with its loaded flag (R87). One
byte serves as the loaded flag and as the presence byte of the section's fields (DESIGN CHOICE, log entry 11). -/
def tariffStagedData (s : State) : List Byte :=
  beOption beHeader (zeros 13) s.tariffs.header ++ bePerClass (beOption bePricing (zeros 16)) s.tariffs.pricing

/-! ## Cards (R94, R99) -/

/-- A rule as RULE-WRITE carries it (R209): 15 bytes, those beyond the pattern 00h. -/
def beRule (number : Nat) (r : Rule) : List Byte :=
  be1 number ++ beFlag r.enabled ++ be1 r.length ++ be1 r.offset ++ be1 r.pattern.length ++
  ((r.pattern.flatMap (fun d => be1 d.code)) ++ zeros 8).take 8 ++ be1 r.action.code ++ be1 r.discountClass

/-- The data of a RULE-READ reply (R94, R209). -/
def ruleReadData (number : Nat) (r : Rule) (d : CardOutcome) : List Byte :=
  beRule number r ++ be1 d.action.code ++ be1 d.discountClass

/-- A binding with its card ID, account index and state (R99). -/
def beBinding (b : Binding) : List Byte := beCardId b.card ++ be2 b.account.val ++ be1 (bindingStateCode b.lost)

/-! ## Accounts (R122, R123) -/

/-- An account, in the order of R122. The wake walk, which R107's table has and R122's list has not, is not reported
(DESIGN CHOICE, log entry 11). -/
def beAccount (a : Account) : List Byte :=
  be1 a.state.code ++ be1 a.kind.code ++ beSigned4 a.balance ++ be4 a.creditLimit ++ be1 a.cap ++ be1 a.discountClass ++
  beList (fun e => be1 e.station.val ++ be4 e.hold) a.funded ++ be4 a.held ++ be1 a.funded.length ++
  beSigned4 a.available ++ bePerClass be4 a.sides ++ be4 a.jobs ++ be4 a.sessions ++ be4 a.charge ++
  beTime a.periodStart a.startClockSet

/-- The data of an ACCOUNT-READ reply (R122). -/
def accountReadData (accounts : List Account) (quantum : Nat) : List Byte := beList beAccount accounts ++ be4 quantum

/-! ## Bank requests (R211) -/

/-- A request as AUTH-FETCH reports it: 30 bytes (R132, R211). -/
def beRequest (n : StationId) (x : Station) (card : CardId) (discountClass : Nat) (r : Request) (topup : Bool) :
    List Byte :=
  be2 r.tag ++ be1 n.val ++ beFlag topup ++
  be4 (if topup then (match x.session with | none => 0 | some ses => ses.number) else 0) ++
  beCardId card ++ be1 discountClass ++ be4 r.amount ++ be4 r.time ++
  be1 ((if r.clockSet then 1 else 0) + (if r.fetched then 2 else 0)) ++ be1 r.timer

/-- The report of a station's outstanding request, if its slot has one. -/
def requestData (s : State) (n : StationId) : List Byte :=
  match (s.st n).slot with
  | .requested card dc r => beRequest n (s.st n) card dc r false
  | .topup card dc r => beRequest n (s.st n) card dc r true
  | .free => []
  | .active _ _ => []

/-- A station's request is outstanding and not yet fetched (R132). -/
def State.unfetched (s : State) (n : StationId) : Bool :=
  match (s.st n).slot.request with
  | none => false
  | some r => !r.fetched

/-- The data of an AUTH-FETCH reply: requests still unfetched, the number returned, the requests (R211). -/
def authFetchData (s : State) (returned : List StationId) : List Byte :=
  be1 ((s.fetchOrder.filter s.unfetched).length) ++ be1 returned.length ++ returned.flatMap (requestData s)

/-! ## The log (R212) -/

/-- The flags byte of a settlement record: the given flags from bit 0. -/
def beFlags : List Bool → Nat
  | [] => 0
  | b :: t => (if b then 1 else 0) + 2 * beFlags t

/-- A settlement record after its length byte: kind, log sequence number, and the fields of its kind (R212). -/
def beLogBody (number : Nat) : LogBody → List Byte
  | .session r =>
    be1 0 ++ be4 number ++ be4 r.number ++ be1 r.station.val ++ be1 (fundingKindCode r.kind) ++
    be1 (beFlags [r.openClockSet, r.closeClockSet, r.minimumApplied]) ++ be1 (endReasonCode r.endReason) ++
    beTail r.cardTail ++ be2 r.stamp ++ be4 (r.limit.getD 0) ++ be4 r.openTime ++ be4 r.closeTime ++
    bePerClass be4 r.sideCounts ++ be4 r.sheetsExited ++ be4 r.sheetsCredited ++ be4 r.creditedMills ++
    be4 r.overrunSides ++ be1 r.jamCount ++ be4 r.jobs ++ be4 r.gross ++ be1 r.discount ++ be4 r.charge ++
    (match r.account with | none => [] | some i => be2 i.val) ++
    (match r.tags with
      | none => []
      | some (a, v) => be1 a.length ++ be1 v.length ++ a.flatMap be2 ++ v.flatMap be2)
  | .void r =>
    be1 1 ++ be4 number ++ be2 r.tag ++ be1 r.station.val ++ be4 r.time ++ be1 (beFlags [r.clockSet]) ++
    be1 (voidCauseCode r.cause)
  | .statement r =>
    be1 2 ++ be4 number ++ be2 r.account.val ++ be4 r.periodStart ++ be4 r.periodEnd ++
    be1 (beFlags [r.startClockSet, r.endClockSet]) ++ bePerClass be4 r.sideCounts ++ be4 r.jobs ++ be4 r.sessions ++
    be4 r.charge

/-- A settlement record with its length byte, which counts every byte of the record (R212). -/
def beLogRecord (r : LogRecord) : List Byte :=
  let rest := beLogBody r.number r.body
  be1 (rest.length + 1) ++ rest

/-- The data of a LOG-READ reply (R170, R212). -/
def logReadData (l : Log) (returned : List LogRecord) : List Byte :=
  be2 l.records.length ++ be2 l.reservations ++ be2 l.unreserved ++ be4 l.counter ++ be1 returned.length ++
  returned.flatMap beLogRecord

/-- The data of a LOG-DROP reply (R171, R212). -/
def logDropData (l : Log) : List Byte :=
  be2 l.records.length ++ (match l.records with | [] => beFlag false ++ be4 0 | r :: _ => beFlag true ++ be4 r.number)

/-! ## The audit and the notices (R188, R198) -/

/-- The accounted counters of a class and their total (R188): four bytes each, eight for the total (R204). Each class's
total follows its own four counters (DESIGN CHOICE, log entry 11). -/
def beAccounted (a : Accounted) : List Byte :=
  be4 a.billed ++ be4 a.free ++ be4 a.overrun ++ be4 a.unattributed ++ be8 a.total

/-- The data of an AUDIT-QUERY reply, in the order of R188. A stopped interval timer is a presence byte 00h and two bytes
00h (DESIGN CHOICE, log entry 11). -/
def auditQueryData (x : Station) : List Byte :=
  let a := x.audit
  be1 a.state.code ++ beOption (bePerClass be4) (zeros 16) a.baseline ++ beOption (bePerClass be4) (zeros 16) a.latest ++
  beOption (fun p => beTime p.1 p.2) (zeros 5) a.latestTime ++ bePerClass beAccounted a.accounted ++
  bePerClass beSigned8 a.discrepancy ++ be4 a.readings ++ be2 a.rebaselines ++ beOption be2 (zeros 2) a.intervalTimer ++
  beFlag a.meterRequest ++ be1 x.settings.auditThreshold ++ be1 x.settings.probeMinutes ++ beFlag x.settings.auditLock

/-- The data of a NOTICE-QUERY reply (R198). -/
def noticeQueryData (ns : Notices) : List Byte :=
  ns.sources.toList.flatMap (fun x => beFlag x.pending ++ be2 x.bitmap.toNat ++ be1 x.level) ++ be1 ns.maskLevel

end Sys2Proof.Machine
end

