-- ==== Sys2Proof/Machine/Links.lean ====
section
/-! DEFINITION. The two kinds of link: the host link's receiver, command queue and transmitter (R190 to R192, R200, R206),
and the station links' receivers and transmitters (R201, R202, R213, R214). -/

namespace Sys2Proof.Machine

/-! ## The host link receiver (R190) and the command queue (R191) -/

/-- The type names one of the thirty-eight commands (R206). -/
def isCommand (type : Byte) : Bool := decide (1 ≤ type.toNat) && decide (type.toNat ≤ 38)

/-- The type of a reply to a command frame: its code with 80h added (R206); for a type that names no command, see log
entry 6. -/
def replyType (type : Byte) : Byte := if isCommand type then type + 0x80#8 else Config.busyTypeOfUnknown type

/-- The host link changed. -/
def State.modHost (s : State) (f : HostLink → HostLink) : State := { s with host := f s.host }

/-- A frame that has passed its check: it joins the queue, is refused with BUSY, or is discarded unanswered (R191). -/
def HostLink.offer (f : Frame) (h : HostLink) : HostLink :=
  if h.queue.length < 4 then { h with queue := h.queue ++ [f] }
  else if h.replies.length < 7 then
    { h with replies := h.replies ++ [{ type := replyType f.type, tag := f.tag, status := .busy, data := [] }] }
  else { h with discarded := satAdd max32 h.discarded 1 }

/-- A completed frame: `bytes` runs from the length byte to the two CRC bytes (R190). -/
def HostLink.complete (bytes : List Byte) (h : HostLink) : HostLink :=
  let body := bytes.take (bytes.length - 2)
  if natOf (bytes.drop (bytes.length - 2)) = (crc16 body).toNat then
    match body with
    | _ :: type :: tag :: payload => h.offer { type := type, tag := tag, payload := payload }
    | [] => h
    | [_] => h
    | [_, _] => h
  else { h with crcFailures := satAdd max32 h.crcFailures 1 }

/-- A frame is abandoned, and the receiver hunts again (R190). -/
def HostLink.abandon (h : HostLink) : HostLink :=
  { h with rx := .hunting, abandoned := satAdd max32 h.abandoned 1 }

/-- One byte reaches the host link receiver (R190). -/
def HostLink.byte (h : HostLink) (b : Byte) : HostLink :=
  match h.rx with
  | .hunting => if b = 0xA5#8 then { h with rx := .inFrame [] } else h
  | .inFrame [] => if 240 < b.toNat then h.abandon else { h with rx := .inFrame [b] }
  | .inFrame (len :: rest) =>
    let bytes := len :: rest ++ [b]
    if bytes.length = len.toNat + 5 then ({ h with rx := .hunting }).complete bytes
    else { h with rx := .inFrame bytes }

/-- More than 50 ms pass within a frame: it is abandoned (R190). A hunting receiver has no frame to abandon. -/
def HostLink.gap (h : HostLink) : HostLink :=
  match h.rx with
  | .hunting => h
  | .inFrame _ => h.abandon

/-! ## The transmitter (R200, R206) -/

/-- The segments of a reply: 238 data bytes each, and one for a reply without data (R206). -/
def Reply.segments (r : Reply) : Nat := max 1 ((r.data.length + 237) / 238)

/-- The segment the transmitter is to begin next, as a frame: status, segment byte, data (R206). -/
def Reply.nextSegment (r : Reply) : List Byte :=
  let more := decide (r.begun + 1 < r.segments)
  hostFrame r.type r.tag
    (be1 r.status.code ++ be1 (r.begun + (if more then 128 else 0)) ++ (r.data.drop (r.begun * 238)).take 238)

/-- The reply that RESET made (R195). -/
def Reply.isReset (r : Reply) : Bool := decide (r.type = 0x83#8) && decide (r.status = .ok)

/-- The next segment of the oldest reply is begun; a reply leaves the list when its last segment is (R206). Once the
RESET reply has been begun, only the warm reset is left (R195). -/
def HostLink.sendReply (r : Reply) (rest : List Reply) (h : HostLink) : HostLink :=
  let last := decide (r.segments ≤ r.begun + 1)
  { h with
    line := r.nextSegment
    replies := if last then rest else { r with begun := r.begun + 1 } :: rest
    resetPhase := if last ∧ r.isReset = true ∧ h.resetPhase = .replyListed then .replyBegun else h.resetPhase }

/-- A notice as a frame: type FFh, command tag 0, source number, level, bitmap (R200, R206). -/
def noticeFrame (src : NoticeSource) (x : Source) : List Byte :=
  hostFrame 0xFF#8 0#8 (be1 (src.index.val + 1) ++ be1 x.level ++ be2 x.bitmap.toNat)

/-- A notice is built and sent: its source's pending flag and bitmap are cleared (R200). -/
def sendNotice (src : NoticeSource) (s : State) : State :=
  let x := s.source src
  { s with
    host := { s.host with line := noticeFrame src x }
    notices := { s.notices with
      sources := s.notices.sources.set src.index.val { x with pending := false, bitmap := 0#16 } } }

/-- The transmitter is free and the arbiter chooses: the oldest reply, else the highest unmasked notice, else it stays
free (R200). A transmitter that has just sent the RESET reply takes nothing before the warm reset (R195). -/
def transmitNext (s : State) : State :=
  if s.host.resetPhase = .replyBegun then s
  else
    match s.host.replies with
    | r :: rest => s.modHost (HostLink.sendReply r rest)
    | [] =>
      match nextNotice s.notices with
      | some src => sendNotice src s
      | none => s.modHost (fun h => { h with line := [] })

/-! ## The station links (R201, R202, R213, R214) -/

/-- A record that a copier sends, its fields as sent (R214). -/
inductive CopierRecord where
  | announce (model : BitVec 16) (classes capacity : Byte)
  | status
  | card (bytes : List Byte)
  | start (mode : Byte) (originals copies : BitVec 16) (duplex : Byte)
  | imaged (sheet : BitVec 16) (cls sides : Byte)
  | exited (sheet : BitVec 16)
  | jobEnd (outcome : Byte)
  | jam (location sheets : Byte)
  | cleared
  | finish
  | meter (m0 m1 m2 m3 : BitVec 32)
  deriving DecidableEq, Repr

/-- A record reaches its station and is handled by the station's state (R10). Each IMAGED restarts the
idle timer where it runs (R13); it sets the last-activity time when it has been metered (R44, R153), since a faulted one
does not change the session (R38, R39; log entry 21). -/
def handleRecord (r : CopierRecord) (n : StationId) (s : State) : State :=
  let s1 := arrive n s
  match r with
  | .announce model classes capacity => takeAnnounce model.toNat classes.toNat capacity.toNat n s1
  | .status => s1
  | .card bytes => takeCard bytes n (activity n s1)
  | .start mode originals copies duplex =>
    takeStart mode.toNat originals.toNat copies.toNat (decide (duplex ≠ 0#8)) n (activity n s1)
  | .imaged sheet cls sides => takeImaged sheet.toNat cls.toNat sides.toNat n (restartIdle n s1)
  | .exited sheet => takeExit sheet.toNat n (activity n s1)
  | .jobEnd _ => takeJobEnd n (activity n s1)
  | .jam location sheets => takeJam location.toNat sheets.toNat n (activity n s1)
  | .cleared => takeCleared n (activity n s1)
  | .finish => takeFinish n (activity n s1)
  | .meter m0 m1 m2 m3 => takeMeter #v[m0.toNat, m1.toNat, m2.toNat, m3.toNat] n s1

/-- The 16-bit field at an offset of a payload. -/
def word16 (p : List Byte) (off : Nat) : BitVec 16 := BitVec.ofNat 16 (fieldAt p off 2)

/-- The 32-bit field at an offset of a payload. -/
def word32 (p : List Byte) (off : Nat) : BitVec 32 := BitVec.ofNat 32 (fieldAt p off 4)

/-- The byte at an offset of a payload. -/
def byteAt (p : List Byte) (off : Nat) : Byte := p.getD off 0#8

/-- The record of a kind byte and a payload; none when the kind names none of the eleven records a copier sends or the
payload is not of the size its kind requires (R201, R214). -/
def recordOf (kind : Nat) (p : List Byte) : Option CopierRecord :=
  match kind, p.length with
  | 0x01, 4 => some (.announce (word16 p 0) (byteAt p 2) (byteAt p 3))
  | 0x02, 0 => some .status
  | 0x03, 11 => some (.card p)
  | 0x04, 6 => some (.start (byteAt p 0) (word16 p 1) (word16 p 3) (byteAt p 5))
  | 0x05, 4 => some (.imaged (word16 p 0) (byteAt p 2) (byteAt p 3))
  | 0x06, 2 => some (.exited (word16 p 0))
  | 0x07, 1 => some (.jobEnd (byteAt p 0))
  | 0x08, 2 => some (.jam (byteAt p 0) (byteAt p 1))
  | 0x09, 0 => some .cleared
  | 0x0A, 0 => some .finish
  | 0x0B, 16 => some (.meter (word32 p 0) (word32 p 4) (word32 p 8) (word32 p 12))
  | _, _ => none

/-- A frame that fails its check is discarded and counted (R201). -/
def frameError (n : StationId) (s : State) : State :=
  s.modSt n (fun x => { x with
    rx := .hunting
    counters := { x.counters with frameErrors := satAdd max32 x.counters.frameErrors 1 } })

/-- A completed station frame: `bytes` runs from the length byte to the CRC byte. A frame that passes its check goes to
the station controller, one that fails is counted (R201). -/
def completeStationFrame (bytes : List Byte) (n : StationId) (s : State) : State :=
  let body := bytes.take (bytes.length - 1)
  let passed := decide (natOf (bytes.drop (bytes.length - 1)) = (crc8 body).toNat)
  match body with
  | _ :: kind :: payload =>
    match (if passed then recordOf kind.toNat payload else none) with
    | some r => handleRecord r n (s.modSt n (fun x => { x with rx := .hunting }))
    | none => frameError n s
  | [] => frameError n s
  | [_] => frameError n s

/-- One byte reaches a station link's receiver (R201). -/
def stationByte (n : StationId) (s : State) (b : Byte) : State :=
  match (s.st n).rx with
  | .hunting => if b = 0x5A#8 then s.modSt n (fun x => { x with rx := .inFrame [] }) else s
  | .inFrame [] =>
    if 32 < b.toNat then frameError n s else s.modSt n (fun x => { x with rx := .inFrame [b] })
  | .inFrame (len :: rest) =>
    let bytes := len :: rest ++ [b]
    if bytes.length = len.toNat + 3 then completeStationFrame bytes n s
    else s.modSt n (fun x => { x with rx := .inFrame bytes })

/-- A PROBE's request byte, decided as its frame is begun: set in BASELINE, where the flag is not consulted, and
otherwise as the meter-request flag says (R179). -/
def Audit.probeAsks (a : Audit) : Bool := decide (a.state = .baseline) || a.meterRequest

/-- What the sending of a PROBE does to the meter-request flag (R179, log entry 13). -/
def Audit.probed (a : Audit) : Audit := if a.state = .baseline then a else { a with meterRequest := false }

/-- The frame of a record on the send list (R213, R214). The byte of a GRANT is the merged sum modulo 256, also where it
has passed 128 (DESIGN CHOICE, log entry 28). -/
def outFrame (a : Audit) : OutRecord → List Byte
  | .grant g => stationFrame 0x81#8 (be1 g)
  | .halt => stationFrame 0x82#8 []
  | .panel locked amount code =>
    stationFrame 0x83#8 (be1 (if locked then 0 else 1) ++ be4 amount ++ be1 (panelCodeByte code))
  | .probe => stationFrame 0x84#8 (beFlag a.probeAsks)

/-- The oldest record of the send list is begun as a frame and leaves the list (R202). -/
def sendRecord (n : StationId) (s : State) : State :=
  s.modSt n (fun x =>
    match x.sendList with
    | [] => { x with line := [] }
    | r :: rest =>
      { x with
        sendList := rest
        line := outFrame x.audit r
        audit := if r = .probe then x.audit.probed else x.audit })

end Sys2Proof.Machine
end

