-- ==== Sys2Proof/Machine/HostQueue.lean ====
section
/-! DEFINITION. Execution of the command at the head of the command queue (R191, R192): when a command may execute, the
order of its judgements, the payload sizes each code allows (R207), its completion, and the account runs that other
events may come within (R120, R122). A host command's row carries its
operands in that frame; a row whose command does not stand at the head of the queue, or may not execute now, changes
nothing (log entry 2). -/

namespace Sys2Proof.Machine

/-- What a command's rule gives: the status and data of its reply, and the state it leaves. -/
abbrev Handled := Status × List Byte × State

/-- A reply of a status alone that changes nothing. -/
def refuse (status : Status) (s : State) : Handled := (status, [], s)

/-- A reply OK without data, and the state the command leaves. -/
def done (s : State) : Handled := (.ok, [], s)

/-- A reply OK with data. -/
def report (data : List Byte) (s : State) : Handled := (.ok, data, s)

/-- The payload sizes a command code allows (R207). -/
def sizeAllowed (type : Byte) (size : Nat) : Bool :=
  match type.toNat with
  | 0x01 => size = 0 | 0x02 => size = 4 | 0x03 => size = 0 | 0x04 => size = 13
  | 0x05 => size = 2 | 0x06 => size = 2 | 0x07 => size = 1 | 0x08 => size = 0
  | 0x09 => size = 1 | 0x0A => size = 1 | 0x0B => size = 1 | 0x0C => size = 1
  | 0x0D => size = 14 || size = 17
  | 0x0E => size = 3 | 0x0F => size = 2 | 0x10 => size = 15 | 0x11 => size = 1 | 0x12 => size = 2
  | 0x13 => size = 13 | 0x14 => size = 11 | 0x15 => size = 11
  | 0x16 => size = 12 || size = 4
  | 0x17 => decide (15 ≤ size) && decide (size ≤ 99) && decide ((size - 15) % 12 = 0)
  | 0x18 => size = 4 | 0x19 => size = 3 | 0x1A => size = 6 | 0x1B => size = 2 | 0x1C => size = 2
  | 0x1D => size = 2
  | 0x1E => size = 0 || size = 1
  | 0x1F => size = 6 | 0x20 => size = 1 | 0x21 => size = 6 | 0x22 => size = 3 | 0x23 => size = 1
  | 0x24 => size = 11 | 0x25 => size = 1 | 0x26 => size = 0
  | _ => false

/-- The commands that touch accounts or bindings: BIND-CARD to CLOSE-PERIOD (R110). -/
def touchesTables (type : Byte) : Bool := decide (0x13 ≤ type.toNat) && decide (type.toNat ≤ 0x1D)

/-- The status that refuses a command frame before its own rule: its size, then the tables it needs (R192, steps 2 and
3). -/
def refusedBefore (f : Frame) (s : State) : Option Status :=
  if sizeAllowed f.type f.payload.length = false then some .badParameter
  else if touchesTables f.type = true ∧ s.tablesReady = false then some .notReady
  else none

/-- A command frame is judged: its size, then the tables it needs, then its own rule (R192, steps 2 to 4). -/
def judge (rule : List Byte → State → Handled) (f : Frame) (s : State) : Handled :=
  match refusedBefore f s with
  | some status => refuse status s
  | none => rule f.payload s

/-- A command completes: its reply joins the tail of the reply list, and its frame leaves the queue (R192). -/
def complete (type tag : Byte) (h : Handled) : State :=
  h.2.2.modHost (fun x => { x with
    queue := x.queue.tail
    replies := x.replies ++ [{ type := type, tag := tag, status := h.1, data := h.2.1 }]
    run := none })

/-- The interface may execute a command: no command is executing, the reply list holds fewer than 4 replies (R192), and
no RESET has been executed (R195). -/
def State.mayExecute (s : State) : Bool :=
  s.host.run.isNone && decide (s.host.resetPhase = .none) && decide (s.host.replies.length < 4)

/-- The frame at the head of the queue, when it may execute now. -/
def State.headCommand (s : State) : Option Frame := if s.mayExecute then s.host.queue.head? else none

/-- The frame at the head of the queue is executed by a rule, when it may execute and is this row's command. -/
def runCommand (mine : Frame → Bool) (rule : List Byte → State → Handled) (s : State) : State :=
  match s.headCommand with
  | none => s
  | some f => if mine f then complete (f.type + 0x80#8) f.tag (judge rule f s) else s

/-- The frame's command code is `code`. -/
def ofCode (code : Nat) (f : Frame) : Bool := decide (f.type.toNat = code)

/-! ## Account runs (R120, R122) -/

/-- The frame at the head of the queue with the run it is to go on from: the run that other events have come within, or
a run not begun where a command may execute (R192). -/
def State.headRun (s : State) : Option (Frame × Run) :=
  match s.host.run with
  | none => s.headCommand.map (fun f => (f, {}))
  | some r => s.host.queue.head?.map (fun f => (f, r))

/-- How an account run goes on: to its reply, or to a point within it where other events are taken (R192). -/
inductive RunStep where
  | ended (h : Handled)
  | paused (r : Run) (s : State)
  deriving DecidableEq, Repr

/-- A run command's frame goes on: it completes with its reply, or stays at the head of the queue with its run. -/
def RunStep.settle (f : Frame) : RunStep → State
  | .ended h => complete (f.type + 0x80#8) f.tag h
  | .paused r s => s.modHost (fun h => { h with run := some r })

/-- A run command's frame is judged, and its rule takes its run on (R192, steps 2 to 4). -/
def judgeRun (rule : Run → List Byte → State → RunStep) (f : Frame) (r : Run) (s : State) : RunStep :=
  match refusedBefore f s with
  | some status => .ended (refuse status s)
  | none => rule r f.payload s

/-- The frame at the head of the queue is executed by the rule of a run, begun or gone on with, when it is this row's
command. -/
def runAccounts (code : Nat) (rule : Run → List Byte → State → RunStep) (s : State) : State :=
  match s.headRun with
  | none => s
  | some (f, r) => if ofCode code f then (judgeRun rule f r s).settle f else s

/-- The part of a run that a step takes: so many of what is left, or all of it (log entry 17). -/
def portion {α : Type} (pause : Option Nat) (left : List α) : List α :=
  match pause with
  | none => left
  | some k => left.take k

/-! ## Forms and operands -/

/-- The form, as a number from 0, of a command of several forms that a payload selects: the target of TARIFF-QUERY, the
form of BINDING-QUERY, the size of AUTH-FETCH, the action of AUDIT-CONTROL (R207). None where its size and selector
select no form. -/
def formOf (code : Nat) (p : List Byte) : Option Nat :=
  match code, p.length with
  | 0x0F, 2 => if fieldAt p 0 1 < 4 then some (fieldAt p 0 1) else none
  | 0x16, 12 => if fieldAt p 0 1 = 0 then some 0 else none
  | 0x16, 4 => if fieldAt p 0 1 = 1 then some 1 else none
  | 0x1E, 0 => some 0
  | 0x1E, 1 => some 1
  | 0x22, 3 => if fieldAt p 2 1 < 3 then some (fieldAt p 2 1) else none
  | _, _ => none

/-- The frame's command code is `code` and its payload selects the form `form`. A payload that selects no form is
answered BAD_PARAMETER under every form's row (log entry 14). -/
def ofForm (code form : Nat) (f : Frame) : Bool :=
  ofCode code f && (decide (formOf code f.payload = some form) || decide (formOf code f.payload = none))

/-- A command that names a station in the byte at an offset; a number above 15 is answered BAD_PARAMETER. -/
def onStation (p : List Byte) (off : Nat) (s : State) (k : StationId → Handled) : Handled :=
  match stationOf (fieldAt p off 1) with
  | none => refuse .badParameter s
  | some n => k n

/-- A command that names an account in the field at offset 0; an index above 2,047 is answered BAD_PARAMETER. -/
def onAccount (p : List Byte) (s : State) (k : AccountId → Handled) : Handled :=
  match accountOf (fieldAt p 0 2) with
  | none => refuse .badParameter s
  | some i => k i

/-- The stations of a mask, in station order. -/
def stationsOf (m : Mask) : List StationId := (List.finRange 16).filter (inMask m)

end Sys2Proof.Machine
end

