-- ==== Sys2Proof/Machine/AccountCommands.lean ====
section
/-! DEFINITION. The meanings of the host's account commands (06_accounts_holds_and_billing_periods.md, section 6.5). -/

namespace Sys2Proof.Machine

/-! ## ACCOUNT-WRITE (R120, R121, R210) -/

/-- What a record of a run carries (R120). -/
structure AccountFields where
  state : AccountState
  kind : AccountKind
  balance : Int
  creditLimit : Nat
  cap : Nat
  discountClass : Nat
  deriving DecidableEq, Repr

/-- The fields of a 12-byte record, when each lies in its range (R107, R210). -/
def accountFieldsOf (r : List Byte) : Option AccountFields :=
  match accountStateOf (fieldAt r 0 1), accountKindOf (fieldAt r 1 1) with
  | some state, some kind =>
    if -99999999 ≤ signedAt r 2 ∧ signedAt r 2 ≤ 99999999 ∧ 0 ≤ signedAt r 6 ∧ signedAt r 6 ≤ 99999999 ∧
        1 ≤ fieldAt r 10 1 ∧ fieldAt r 10 1 ≤ 4 ∧ fieldAt r 11 1 ≤ 7 then
      some { state := state, kind := kind, balance := signedAt r 2, creditLimit := (signedAt r 6).toNat
             cap := fieldAt r 10 1, discountClass := fieldAt r 11 1 }
    else none
  | _, _ => none

/-- The funds of a record without holds (R120). -/
def AccountFields.funds (w : AccountFields) : Int :=
  w.balance + (if w.kind = .credit then (w.creditLimit : Int) else 0)

/-- The billing period of an account starts anew: period counters 0, and the period start at a time with its flag
(R120, R126). -/
def Account.newPeriod (time : Nat) (clockSet : Bool) (a : Account) : Account :=
  { a with
    sides := Vector.replicate 4 0
    jobs := 0
    sessions := 0
    charge := 0
    periodStart := time
    startClockSet := clockSet }

/-- A record is written: its six fields replace the account's, and a FREE account that is written ACTIVE or BLOCKED is
brought into use (R120). -/
def Account.written (w : AccountFields) (time : Nat) (clockSet : Bool) (a : Account) : Account :=
  let b := if a.state = .free ∧ w.state ≠ .free then a.newPeriod time clockSet else a
  { b with state := w.state, kind := w.kind, balance := w.balance, creditLimit := w.creditLimit, cap := w.cap
           discountClass := w.discountClass }

/-- One record of a run judged against the account at its index: OK, and written, or the status that stops the run
(R120). -/
def writeRecord (i : AccountId) (r : List Byte) (s : State) : Status × State :=
  if (s.account i).funded ≠ [] then (.busy, s)
  else
    match accountFieldsOf r with
    | none => (.badParameter, s)
    | some w =>
      if w.funds < 0 then (.badParameter, s)
      else (.ok, s.modAccount i (Account.written w s.clock s.clockSet))

/-- The records of a run taken in turn, up to the first that stops it: the status, the records written, the state
(R120). -/
def writeRun : List (List Byte) → Nat → Nat → State → Status × Nat × State
  | [], _, written, s => (.ok, written, s)
  | r :: rest, index, written, s =>
    match accountOf index with
    | none => (.badParameter, written, s)
    | some i =>
      match writeRecord i r s with
      | (.ok, s1) => writeRun rest (index + 1) (written + 1) s1
      | (status, s1) => (status, written, s1)

/-- The records a RECORDS payload carries, 12 bytes each (R210). -/
def recordsOf (p : List Byte) : List (List Byte) :=
  (List.range ((p.length - 3) / 12)).map (fun k => (p.drop (3 + 12 * k)).take 12)

/-- ACCOUNT-WRITE in its RECORDS form, from the record its run stands at (R120, R210): the run goes on to its end, to
the first record that stops it, or to the `pause` after which other events are taken. The reply carries the count of
records written. -/
def ruleAccountWriteRecords (pause : Option Nat) (r : Run) (p : List Byte) (s : State) : RunStep :=
  let start := fieldAt p 0 2
  let run := fieldAt p 2 1
  if start ≤ 2047 ∧ 1 ≤ run ∧ run ≤ 8 ∧ start + run - 1 ≤ 2047 ∧ run = (recordsOf p).length then
    let w := writeRun (portion pause ((recordsOf p).drop r.taken)) (start + r.taken) r.taken s
    if w.1 = .ok ∧ w.2.1 < run then .paused { taken := w.2.1 } w.2.2 else .ended (w.1, be1 w.2.1, w.2.2)
  else .ended (.badParameter, be1 0, s)

/-- The meaning of ACCOUNT-WRITE, RECORDS form. -/
def execAccountWriteRecords (s : State) (pause : Option Nat := none) : Result :=
  .next (runAccounts 0x17 (ruleAccountWriteRecords pause) s)

/-- ACCOUNT-WRITE in its QUANTUM form (R121). -/
def ruleAccountWriteQuantum (p : List Byte) (s : State) : Handled :=
  if 100 ≤ fieldAt p 0 4 ∧ fieldAt p 0 4 ≤ 50000 then report (be1 0) { s with quantum := fieldAt p 0 4 }
  else refuse .badParameter s

/-- The meaning of ACCOUNT-WRITE, QUANTUM form. -/
def execAccountWriteQuantum (s : State) : Result := .next (runCommand (ofCode 0x18) ruleAccountWriteQuantum s)

/-! ## ACCOUNT-READ (R122) -/

/-- ACCOUNT-READ, from the account its run stands at (R122): the accounts are read one by one, to the last or to the
`pause` after which other events are taken. -/
def ruleAccountRead (pause : Option Nat) (r : Run) (p : List Byte) (s : State) : RunStep :=
  let start := fieldAt p 0 2
  let count := fieldAt p 2 1
  if start ≤ 2047 ∧ 1 ≤ count ∧ count ≤ 8 ∧ start + count - 1 ≤ 2047 then
    let part := portion pause ((List.range count).drop r.taken)
    let read := r.read ++ part.map (fun k => lookupAccount s.accounts (start + k))
    if r.taken + part.length < count then .paused { taken := r.taken + part.length, read := read } s
    else .ended (report (accountReadData read s.quantum) s)
  else .ended (refuse .badParameter s)

/-- The meaning of ACCOUNT-READ. -/
def execAccountRead (s : State) (pause : Option Nat := none) : Result :=
  .next (runAccounts 0x19 (ruleAccountRead pause) s)

/-! ## ACCOUNT-ADJUST, ACCOUNT-BLOCK, ACCOUNT-UNBLOCK (R123 to R125) -/

/-- The balance and the available funds of an account, as ACCOUNT-ADJUST reports them (R123). -/
def adjustData (i : AccountId) (s : State) : List Byte :=
  beSigned4 (s.account i).balance ++ beSigned4 (s.account i).available

/-- How ACCOUNT-ADJUST judges an amount (R123). -/
def judgeAdjust (amount : Int) (a : Account) : Status :=
  if amount < -99999999 ∨ 99999999 < amount then .badParameter
  else if a.state = .free then .wrongState
  else if a.balance + amount < -99999999 ∨ 99999999 < a.balance + amount then .badParameter
  else if a.available + amount < 0 then .insufficient
  else .ok

/-- The amount joins the balance, and a positive amount starts a wake (R115, R123). -/
def adjustBalance (amount : Int) (i : AccountId) (s : State) : State :=
  let s1 := s.modAccount i (fun a => { a with balance := a.balance + amount })
  if 0 < amount then startWake i s1 else s1

/-- ACCOUNT-ADJUST (R123). An index above 2,047 names no account, so its reply carries no balance and no available
funds (DESIGN CHOICE, log entry 11). -/
def ruleAccountAdjust (p : List Byte) (s : State) : Handled :=
  onAccount p s (fun i =>
    let status := judgeAdjust (signedAt p 2) (s.account i)
    let s1 := if status = .ok then adjustBalance (signedAt p 2) i s else s
    (status, adjustData i s1, s1))

/-- The meaning of ACCOUNT-ADJUST. -/
def execAccountAdjust (s : State) : Result := .next (runCommand (ofCode 0x1A) ruleAccountAdjust s)

/-- ACCOUNT-BLOCK (R124). -/
def ruleAccountBlock (p : List Byte) (s : State) : Handled :=
  onAccount p s (fun i =>
    if (s.account i).state = .free then refuse .wrongState s
    else done (s.modAccount i (fun a => { a with state := .blocked })))

/-- The meaning of ACCOUNT-BLOCK. -/
def execAccountBlock (s : State) : Result := .next (runCommand (ofCode 0x1B) ruleAccountBlock s)

/-- ACCOUNT-UNBLOCK (R125). -/
def ruleAccountUnblock (p : List Byte) (s : State) : Handled :=
  onAccount p s (fun i =>
    match (s.account i).state with
    | .free => refuse .wrongState s
    | .active => done s
    | .blocked => done (startWake i (s.modAccount i (fun a => { a with state := .active }))))

/-- The meaning of ACCOUNT-UNBLOCK. -/
def execAccountUnblock (s : State) : Result := .next (runCommand (ofCode 0x1C) ruleAccountUnblock s)

/-! ## CLOSE-PERIOD (R126) -/

/-- The STATEMENT record of an account's period, closed now (R126, R167). -/
def statementOf (i : AccountId) (s : State) : StatementRecord :=
  let a := s.account i
  { account := i, periodStart := a.periodStart, startClockSet := a.startClockSet, periodEnd := s.clock
    endClockSet := s.clockSet, sideCounts := a.sides, jobs := a.jobs, sessions := a.sessions, charge := a.charge }

/-- CLOSE-PERIOD (R126). -/
def ruleClosePeriod (p : List Byte) (s : State) : Handled :=
  onAccount p s (fun i =>
    if (s.account i).funded ≠ [] then refuse .busy s
    else
      match offerStatement (.statement (statementOf i s)) s with
      | (none, _) => refuse .logFull s
      | (some number, s1) => report (be4 number) (s1.modAccount i (Account.newPeriod s.clock s.clockSet)))

/-- The meaning of CLOSE-PERIOD. -/
def execClosePeriod (s : State) : Result := .next (runCommand (ofCode 0x1D) ruleClosePeriod s)

end Sys2Proof.Machine
end

