-- ==== Sys2Proof/Machine/BankCommands.lean ====
section
/-! DEFINITION. The meanings of the host's bank commands, AUTH-FETCH and AUTH-RESULT (07_bank_authorization_exchange.md). -/

namespace Sys2Proof.Machine

/-! ## AUTH-FETCH (R132, R207, R211) -/

/-- A slot with its request changed, where it has one. -/
def Slot.mapRequest (f : Request → Request) : Slot → Slot
  | .requested c d r => .requested c d (f r)
  | .topup c d r => .topup c d (f r)
  | .free => .free
  | .active c d => .active c d

/-- A station's outstanding request is marked fetched (R132). -/
def markFetched (n : StationId) (s : State) : State :=
  s.modSt n (fun x => { x with slot := x.slot.mapRequest (fun r => { r with fetched := true }) })

/-- The requests that the NEW form returns: the oldest unfetched, up to 4 (R132). -/
def newRequests (s : State) : List StationId := (s.fetchOrder.filter s.unfetched).take 4

/-- AUTH-FETCH NEW (R132). -/
def ruleAuthFetchNew (p : List Byte) (s : State) : Handled :=
  if p = [] then
    let s1 := atEach (newRequests s) markFetched s
    report (authFetchData s1 (newRequests s)) s1
  else refuse .badParameter s

/-- The meaning of AUTH-FETCH NEW. -/
def execAuthFetchNew (s : State) : Result := .next (runCommand (ofForm 0x1E 0) ruleAuthFetchNew s)

/-- AUTH-FETCH OUTSTANDING (R132). -/
def ruleAuthFetchOutstanding (p : List Byte) (s : State) : Handled :=
  if p.length = 1 ∧ fieldAt p 0 1 ≤ 15 then
    report (authFetchData s ((s.fetchOrder.drop (fieldAt p 0 1)).take 4)) s
  else refuse .badParameter s

/-- The meaning of AUTH-FETCH OUTSTANDING. -/
def execAuthFetchOutstanding (s : State) : Result := .next (runCommand (ofForm 0x1E 1) ruleAuthFetchOutstanding s)

/-! ## AUTH-RESULT (R133 to R139) -/

/-- The outcomes of AUTH-RESULT (R133). -/
inductive AuthOutcome where
  | opened | unusable | declined | toppedUp | topupDeclined
  deriving DecidableEq, Repr

/-- The code of an outcome (R204). -/
def AuthOutcome.code : AuthOutcome → Nat
  | .opened => 0 | .unusable => 1 | .declined => 2 | .toppedUp => 3 | .topupDeclined => 4

/-- The station whose slot holds an outstanding request with the tag (R133). -/
def holderOf (tag : Nat) (s : State) : Option StationId :=
  (List.finRange 16).find? (fun n => decide ((s.st n).slot.request.map Request.tag = some tag))

/-- The slot replaced, its request gone from the fetch order (R132, R133). -/
def endRequest (slot : Slot) (n : StationId) (s : State) : State :=
  leaveFetchOrder n (s.modSt n (fun x => { x with slot := slot }))

/-- A usable approval of a first request opens the session; the slot's reservation passes to it (R134). -/
def openBank (card : CardId) (discountClass tag amount : Nat) (n : StationId) (s : State) : State :=
  openSession (.bank [tag] [] 0) card (some amount) ((s.st n).discountOf discountClass) n
    (endRequest (.active card discountClass) n s)

/-- A refusal PANEL and the entry to IDLE at a station in AUTHORIZING; elsewhere nothing (R12). -/
def leaveAuthorizing (code : PanelCode) (n : StationId) (s : State) : State :=
  if (s.st n).state = .authorizing then enterIdle false n (refusalPanel n code s) else s

/-- An unusable approval of a first request (R135). At a station in AUTHORIZING the amount lay below the floor. -/
def refuseApproval (n : StationId) (s : State) : State := leaveAuthorizing .noFunds n (voidFirst .unusable n s)

/-- An approval of a first request (R134, R135): the outcome, and the amount taken. -/
def approveFirst (card : CardId) (discountClass : Nat) (req : Request) (amount : Nat) (n : StationId) (s : State) :
    AuthOutcome × Nat × State :=
  let clamped := min amount req.amount
  if (s.st n).floor ≤ clamped ∧ (s.st n).state = .authorizing then
    (.opened, clamped, openBank card discountClass req.tag clamped n s)
  else (.unusable, 0, refuseApproval n s)

/-- A decline of a first request (R136). -/
def declineFirst (n : StationId) (s : State) : State :=
  leaveAuthorizing .refused n (returnReservation (endRequest .free n s))

/-- An approval of a top-up (R138): the limit rises, the tag is approved, the PANEL of the rise is sent, and a running or
starved station retries its grant. -/
def approveTopup (card : CardId) (discountClass tag amount : Nat) (n : StationId) (s : State) : State :=
  retry n (statePanel n (modSession n
    (fun ses => { ses with limit := ses.limit.map (· + amount), funding := ses.funding.approveTag tag })
    (endRequest (.active card discountClass) n s)))

/-- A result is taken by the slot that holds its tag (R133): the outcome, the amount taken, the state. -/
def takeResult (amount : Nat) (n : StationId) (s : State) : Option (AuthOutcome × Nat × State) :=
  match (s.st n).slot with
  | .requested card dc req =>
    if amount = 0 then some (.declined, 0, declineFirst n s) else some (approveFirst card dc req amount n s)
  | .topup card dc req =>
    if amount = 0 then some (.topupDeclined, 0, endRequest (.active card dc) n s)
    else
      let clamped := min amount req.amount
      some (.toppedUp, clamped, approveTopup card dc req.tag clamped n s)
  | .free => none
  | .active _ _ => none

/-- AUTH-RESULT (R133). -/
def ruleAuthResult (p : List Byte) (s : State) : Handled :=
  if fieldAt p 0 2 = 0 ∨ signedAt p 2 < 0 ∨ 99999999 < signedAt p 2 then refuse .badParameter s
  else
    match holderOf (fieldAt p 0 2) s with
    | none => refuse .tooLate s
    | some n =>
      match takeResult (signedAt p 2).toNat n s with
      | none => refuse .tooLate s
      | some (outcome, amount, s1) => report (be1 outcome.code ++ be4 amount) s1

/-- The meaning of AUTH-RESULT. -/
def execAuthResult (s : State) : Result := .next (runCommand (ofCode 0x1F) ruleAuthResult s)

end Sys2Proof.Machine
end

