-- ==== Sys2Proof/Machine/CardCommands.lean ====
section
/-! DEFINITION. The meanings of the host's card rule and binding commands (05_card_routing_and_bindings.md). -/

namespace Sys2Proof.Machine

/-! ## Card rules (R93, R94, R209) -/

/-- The pattern of a RULE-WRITE payload, when its length lies from 1 to 8 and every byte within it is a digit or the
wildcard (R209). -/
def patternOf (p : List Byte) : Option (List PatternDigit) :=
  let len := fieldAt p 4 1
  if 1 ≤ len ∧ len ≤ 8 then ((p.drop 5).take len).mapM patternDigitOf else none

/-- The required length and offset of a rule are in range, and its pattern fits (R93). -/
def Rule.fits (r : Rule) : Bool :=
  (decide (r.length = 0) || (decide (8 ≤ r.length) && decide (r.length ≤ 19))) && decide (r.offset ≤ 18) &&
  decide (r.offset + r.pattern.length ≤ 19) &&
  (decide (r.length = 0) || decide (r.offset + r.pattern.length ≤ r.length)) && decide (r.discountClass ≤ 7)

/-- The rule of a RULE-WRITE payload, when every field is in range (R93, R209). -/
def ruleOf (p : List Byte) : Option Rule :=
  match cardActionOf (fieldAt p 13 1), patternOf p with
  | some action, some pattern =>
    let r : Rule :=
      { enabled := decide (fieldAt p 1 1 = 1), length := fieldAt p 2 1, offset := fieldAt p 3 1, pattern := pattern
        action := action, discountClass := fieldAt p 14 1 }
    if fieldAt p 1 1 ≤ 1 ∧ r.fits = true then some r else none
  | _, _ => none

/-- RULE-WRITE (R93). -/
def ruleRuleWrite (p : List Byte) (s : State) : Handled :=
  if h : fieldAt p 0 1 < 32 then
    match ruleOf p with
    | none => refuse .badParameter s
    | some r => done { s with rules := s.rules.set (fieldAt p 0 1) r }
  else refuse .badParameter s

/-- The meaning of RULE-WRITE. -/
def execRuleWrite (s : State) : Result := .next (runCommand (ofCode 0x10) ruleRuleWrite s)

/-- RULE-READ (R94). -/
def ruleRuleRead (p : List Byte) (s : State) : Handled :=
  if h : fieldAt p 0 1 < 32 then
    report (ruleReadData (fieldAt p 0 1) s.rules[fieldAt p 0 1] s.defaultAction) s
  else refuse .badParameter s

/-- The meaning of RULE-READ. -/
def execRuleRead (s : State) : Result := .next (runCommand (ofCode 0x11) ruleRuleRead s)

/-- DEFAULT-ACTION (R94). -/
def ruleDefaultAction (p : List Byte) (s : State) : Handled :=
  match cardActionOf (fieldAt p 0 1) with
  | none => refuse .badParameter s
  | some a =>
    if 7 < fieldAt p 1 1 then refuse .badParameter s
    else done { s with defaultAction := { action := a, discountClass := fieldAt p 1 1 } }

/-- The meaning of DEFAULT-ACTION. -/
def execDefaultAction (s : State) : Result := .next (runCommand (ofCode 0x12) ruleDefaultAction s)

/-! ## Bindings (R96 to R99) -/

/-- A command that carries a card ID at an offset; one that is not 8 to 19 decimal digits is answered BAD_PARAMETER. -/
def onCard (p : List Byte) (off : Nat) (s : State) (k : CardId → Handled) : Handled :=
  match cardIdOf ((p.drop off).take 11) with
  | none => refuse .badParameter s
  | some c => k c

/-- A binding carries the card ID (R95). -/
def State.bound (s : State) (card : CardId) : Bool := s.bindings.any (fun b => decide (b.card = card))

/-- BIND-CARD (R96). -/
def ruleBindCard (p : List Byte) (s : State) : Handled :=
  onCard p 0 s (fun card =>
    match accountOf (fieldAt p 11 2) with
    | none => refuse .badParameter s
    | some i =>
      if s.bound card then refuse .duplicate s
      else if 4096 ≤ s.bindings.length then refuse .tableFull s
      else done { s with bindings := insertBinding { card := card, account := i, lost := false } s.bindings })

/-- The meaning of BIND-CARD. -/
def execBindCard (s : State) : Result := .next (runCommand (ofCode 0x13) ruleBindCard s)

/-- UNBIND-CARD (R97). -/
def ruleUnbindCard (p : List Byte) (s : State) : Handled :=
  onCard p 0 s (fun card =>
    if s.bound card then done { s with bindings := s.bindings.filter (fun b => decide (b.card ≠ card)) }
    else refuse .notFound s)

/-- The meaning of UNBIND-CARD. -/
def execUnbindCard (s : State) : Result := .next (runCommand (ofCode 0x14) ruleUnbindCard s)

/-- A station is told that a card is lost: a session opened with it starts closing (R98). -/
def loseCard (card : CardId) (n : StationId) (s : State) : State :=
  match (s.st n).session with
  | none => s
  | some ses => if ses.card = card then startClosing .cardLost n s else s

/-- MARK-LOST (R98): the stations' requests of the shared blocks come in the free order of log entry 4. -/
def ruleMarkLost (p : List Byte) (s : State) : Handled :=
  onCard p 0 s (fun card =>
    if s.bound card then
      let s1 := { s with bindings := s.bindings.map (fun b => if b.card = card then { b with lost := true } else b) }
      let drawn := takeOrder s1
      done (atEach drawn.1 (loseCard card) drawn.2)
    else refuse .notFound s)

/-- The meaning of MARK-LOST. -/
def execMarkLost (s : State) : Result := .next (runCommand (ofCode 0x15) ruleMarkLost s)

/-- The binding that carries a card ID, with its position (R95, R99). -/
def bindingAt (card : CardId) (l : List Binding) : Option (Binding × Nat) :=
  (l.zip (List.range l.length)).find? (fun e => decide (e.1.card = card))

/-- BINDING-QUERY BY_CARD (R99, R207). -/
def ruleBindingByCard (p : List Byte) (s : State) : Handled :=
  if p.length = 12 ∧ fieldAt p 0 1 = 0 then
    onCard p 1 s (fun card =>
      match bindingAt card s.bindings with
      | none => (.notFound, be2 s.bindings.length, s)
      | some (b, k) => report (be2 s.bindings.length ++ beBinding b ++ be2 k) s)
  else refuse .badParameter s

/-- The meaning of BINDING-QUERY BY_CARD. -/
def execBindingQueryByCard (s : State) : Result := .next (runCommand (ofForm 0x16 0) ruleBindingByCard s)

/-- BINDING-QUERY BY_POSITION (R99, R207). -/
def ruleBindingByPosition (p : List Byte) (s : State) : Handled :=
  if p.length = 4 ∧ fieldAt p 0 1 = 1 ∧ fieldAt p 1 2 ≤ 4095 ∧ 1 ≤ fieldAt p 3 1 ∧ fieldAt p 3 1 ≤ 8 then
    report (be2 s.bindings.length ++ beList beBinding ((s.bindings.drop (fieldAt p 1 2)).take (fieldAt p 3 1))) s
  else refuse .badParameter s

/-- The meaning of BINDING-QUERY BY_POSITION. -/
def execBindingQueryByPosition (s : State) : Result := .next (runCommand (ofForm 0x16 1) ruleBindingByPosition s)

end Sys2Proof.Machine
end

