-- ==== Sys2Proof/Machine/GeneralCommands.lean ====
section
/-! DEFINITION. The meanings of the host's general commands and notice commands: UNKNOWN_COMMAND (R192), IDENTIFY (R193),
SET-TIME (R194), RESET (R195), NOTICE-CONFIG, NOTICE-MASK (R197) and NOTICE-QUERY (R198). -/

namespace Sys2Proof.Machine

/-- A queued frame whose type names no command is answered UNKNOWN_COMMAND, with type 80h and the received type as its
data (R192, R206). -/
def execUnknownCommand (s : State) : Result :=
  match s.headCommand with
  | none => .next s
  | some f =>
    if isCommand f.type then .next s
    else .next (complete 0x80#8 f.tag (.unknownCommand, [f.type], s))

/-- IDENTIFY (R193). -/
def ruleIdentify (_ : List Byte) (s : State) : Handled := report (identifyData s) s

/-- The meaning of IDENTIFY. -/
def execIdentify (s : State) : Result := .next (runCommand (ofCode 0x01) ruleIdentify s)

/-- SET-TIME (R194). -/
def ruleSetTime (p : List Byte) (s : State) : Handled := done { s with clock := fieldAt p 0 4, clockSet := true }

/-- The meaning of SET-TIME. -/
def execSetTime (s : State) : Result := .next (runCommand (ofCode 0x02) ruleSetTime s)

/-- RESET: from its execution on no further command is executed (R195). -/
def ruleReset (_ : List Byte) (s : State) : Handled := done (s.modHost (fun h => { h with resetPhase := .replyListed }))

/-- The meaning of RESET. -/
def execReset (s : State) : Result := .next (runCommand (ofCode 0x03) ruleReset s)

/-- The levels of sources 2 to 12 replaced, in source order (R197). -/
def Notices.withLevels (levels : List Nat) (ns : Notices) : Notices :=
  { ns with sources := Vector.ofFn (fun i : Fin 12 =>
      if i.val = 0 then ns.sources[i] else { ns.sources[i] with level := levels.getD (i.val - 1) 0 }) }

/-- NOTICE-CONFIG (R197). -/
def ruleNoticeConfig (p : List Byte) (s : State) : Handled :=
  let levels := p.map BitVec.toNat
  if levels.any (fun l => decide (2 < l)) then refuse .badParameter s
  else done { s with notices := s.notices.withLevels levels }

/-- The meaning of NOTICE-CONFIG. -/
def execNoticeConfig (s : State) : Result := .next (runCommand (ofCode 0x24) ruleNoticeConfig s)

/-- NOTICE-MASK (R197). -/
def ruleNoticeMask (p : List Byte) (s : State) : Handled :=
  if 3 < fieldAt p 0 1 then refuse .badParameter s
  else done { s with notices := { s.notices with maskLevel := fieldAt p 0 1 } }

/-- The meaning of NOTICE-MASK. -/
def execNoticeMask (s : State) : Result := .next (runCommand (ofCode 0x25) ruleNoticeMask s)

/-- NOTICE-QUERY (R198). -/
def ruleNoticeQuery (_ : List Byte) (s : State) : Handled := report (noticeQueryData s.notices) s

/-- The meaning of NOTICE-QUERY. -/
def execNoticeQuery (s : State) : Result := .next (runCommand (ofCode 0x26) ruleNoticeQuery s)

end Sys2Proof.Machine
end

