-- ==== Sys2Proof/Machine/LogCommands.lean ====
section
/-! DEFINITION. The meanings of the host's log commands, LOG-READ and LOG-DROP (R170, R171). -/

namespace Sys2Proof.Machine

/-- LOG-READ (R170). -/
def ruleLogRead (p : List Byte) (s : State) : Handled :=
  if 1 ≤ fieldAt p 0 1 ∧ fieldAt p 0 1 ≤ 4 then
    report (logReadData s.log (s.log.records.take (fieldAt p 0 1))) s
  else refuse .badParameter s

/-- The meaning of LOG-READ. -/
def execLogRead (s : State) : Result := .next (runCommand (ofCode 0x20) ruleLogRead s)

/-- A drop is taken: its count lies from 1 to 256 and within the records held, and its number is the head's (R171). -/
def dropTaken (count number : Nat) (l : Log) : Bool :=
  decide (1 ≤ count) && decide (count ≤ 256) && decide (l.records.head?.map LogRecord.number = some number) &&
  decide (count ≤ l.records.length)

/-- Records leave from the head, and LOG_LOW is re-armed where R173 says (R171). -/
def dropRecords (count : Nat) (s : State) : State :=
  logLowCheck { s with log := { s.log with records := s.log.records.drop count } }

/-- LOG-DROP (R171). -/
def ruleLogDrop (p : List Byte) (s : State) : Handled :=
  if dropTaken (fieldAt p 0 2) (fieldAt p 2 4) s.log then
    let s1 := dropRecords (fieldAt p 0 2) s
    report (logDropData s1.log) s1
  else (.badParameter, logDropData s.log, s)

/-- The meaning of LOG-DROP. -/
def execLogDrop (s : State) : Result := .next (runCommand (ofCode 0x21) ruleLogDrop s)

end Sys2Proof.Machine
end

