-- ==== Sys2Proof/Machine/Records.lean ====
section
/-! DEFINITION. The meanings of the eleven records a copier sends (R10, R214) and of the station link's own events (R201,
R202). Each record is handled by `handleRecord`, which brings the station to life, out of DOWN or SUSPENDED, and then
takes the record by the station's state. -/

namespace Sys2Proof.Machine

/-- The meaning of an ANNOUNCE record (R4, R37). -/
def execAnnounce (st : StationId) (model : BitVec 16) (classes capacity : Byte) (s : State) : Result :=
  .next (handleRecord (.announce model classes capacity) st s)

/-- The meaning of a STATUS record (R4). -/
def execStatus (st : StationId) (s : State) : Result := .next (handleRecord .status st s)

/-- The meaning of a CARD record (R100 to R104). -/
def execCard (st : StationId) (bytes : List Byte) (s : State) : Result := .next (handleRecord (.card bytes) st s)

/-- The meaning of a START record (R15). -/
def execStart (st : StationId) (mode : Byte) (originals copies : BitVec 16) (duplex : Byte) (s : State) : Result :=
  .next (handleRecord (.start mode originals copies duplex) st s)

/-- The meaning of an IMAGED record (R38, R153). -/
def execImaged (st : StationId) (sheet : BitVec 16) (cls sides : Byte) (s : State) : Result :=
  .next (handleRecord (.imaged sheet cls sides) st s)

/-- The meaning of an EXITED record (R47, R153). -/
def execExited (st : StationId) (sheet : BitVec 16) (s : State) : Result := .next (handleRecord (.exited sheet) st s)

/-- The meaning of a JOB_END record (R24). -/
def execJobEnd (st : StationId) (outcome : Byte) (s : State) : Result := .next (handleRecord (.jobEnd outcome) st s)

/-- The meaning of a JAM record (R148). -/
def execJam (st : StationId) (location sheets : Byte) (s : State) : Result :=
  .next (handleRecord (.jam location sheets) st s)

/-- The meaning of a CLEARED record (R155, R157). -/
def execCleared (st : StationId) (s : State) : Result := .next (handleRecord .cleared st s)

/-- The meaning of a FINISH record (R25). -/
def execFinish (st : StationId) (s : State) : Result := .next (handleRecord .finish st s)

/-- The meaning of a METER record (R180). -/
def execMeter (st : StationId) (m0 m1 m2 m3 : BitVec 32) (s : State) : Result :=
  .next (handleRecord (.meter m0 m1 m2 m3) st s)

/-- Bytes reach a station link's receiver, which judges them as R201 states. -/
def stationBytes (st : StationId) (bytes : List Byte) (s : State) : State := bytes.foldl (stationByte st) s

/-- The meaning of a frame that fails its check on a station link: its bytes reach the receiver, which discards the frame
and counts it (R201; log entry 15). -/
def execStationFrameError (st : StationId) (bytes : List Byte) (s : State) : Result := .next (stationBytes st bytes s)

/-- The meaning of a gap of more than 50 ms on a station link: the frame in collection fails its check (R201). A hunting
receiver has no frame to fail. -/
def execStationFrameGapTimeout (st : StationId) (s : State) : Result :=
  match (s.st st).rx with
  | .hunting => .next s
  | .inFrame _ => .next (frameError st s)

/-- The meaning of a free station link: the oldest record of the send list is begun as a frame (R202). -/
def execStationSendRecord (st : StationId) (s : State) : Result := .next (sendRecord st s)

end Sys2Proof.Machine
end

