-- ==== Sys2Proof/Machine/Requests.lean ====
section
/-! DEFINITION. The meanings of the requests one block makes of another, as steps of their own (R55, R92, R102, R112 to
R119, R84, R168, R169, R129, R2). Where the block answers, its answer stands in `answer` (log entry 3). A request that its
asker's condition excludes changes nothing (log entry 2). -/

namespace Sys2Proof.Machine

/-! ## The card router and the tariff store -/

/-- The admission in passage at a station changed, where there is one. -/
def modPassage (n : StationId) (f : Passage → Passage) (s : State) : State :=
  s.modSt n (fun x => { x with passage := x.passage.map f })

/-- An admission of the card is in passage that has passed checks 2 and 3 of R101 and is not classified yet. -/
def Station.awaitsOutcome (x : Station) (card : CardId) : Bool :=
  match x.passage with
  | none => false
  | some p =>
    decide (p.card = card) && p.hold.isNone && p.outcome.isNone && !x.lockedOut && x.tariff.active.isSome

/-- What the asking station keeps of an answer, where a station is named as the asker. -/
def atAsker (asker : Option StationId) (keep : StationId → State → State) (s : State) : State :=
  match asker with
  | none => s
  | some n => keep n s

/-- The outcome stands from here on with the card's admission, where it is in passage at the station (R105). -/
def keepOutcome (card : CardId) (o : CardOutcome) (n : StationId) (s : State) : State :=
  if (s.st n).awaitsOutcome card then modPassage n (fun p => { p with outcome := some o }) s else s

/-- The meaning of a classification (R92). -/
def execClassification (card : CardId) (s : State) (asker : Option StationId := none) : Result :=
  let o := classify s card
  .next (answerWith (.outcome o) (atAsker asker (keepOutcome card o) s))

/-- An admission of the card is in passage whose outcome is ACCOUNT and whose binding has not been looked up yet. -/
def Station.awaitsBinding (x : Station) (card : CardId) : Bool :=
  match x.passage with
  | none => false
  | some p =>
    decide (p.card = card) && p.hold.isNone && decide (p.outcome.map CardOutcome.action = some .account) &&
      p.found.isNone

/-- The card's admission, where it is in passage at the station, goes on with the binding found (R105). -/
def keepBinding (card : CardId) (b : Option Binding) (n : StationId) (s : State) : State :=
  if (s.st n).awaitsBinding card then modPassage n (fun p => { p with found := some b }) s else s

/-- The meaning of a binding lookup (R95, R102). -/
def execBindingLookup (card : CardId) (s : State) (asker : Option StationId := none) : Result :=
  let b := lookupBinding s card
  .next (answerWith (.binding b) (atAsker asker (keepBinding card b) s))

/-- The meaning of a commit, asked by a station in IDLE, DOWN, DISABLED or SERVICE (R84). -/
def execCommit (st : StationId) (s : State) : Result :=
  if (s.st st).state.commits then .next (commitTariff false st s) else .next s

/-! ## The account table -/

/-- The hold that an admission placed stays with the admission in passage (R101, R176). -/
def placeHold (i : AccountId) (limit discountClass : Nat) (n : StationId) (s : State) : State :=
  modPassage n (fun p => { p with hold := some (i, limit, discountClass) }) s

/-- The account table's refusal stands with the admission in passage (R102, R105). -/
def keepRefusal (code : PanelCode) (n : StationId) (s : State) : State :=
  modPassage n (fun p => { p with refused := some code }) s

/-- An admission is in passage at the station, and the account table has not answered it yet (R101). -/
def Station.awaitsHold (x : Station) : Bool :=
  match x.passage with
  | none => false
  | some p => p.hold.isNone && p.refused.isNone && x.tariff.active.isSome

/-- What an admission in passage keeps of the account table's answer: its hold, or its refusal (R102, R105). -/
def keepAdmission (i : AccountId) (n : StationId) (a : AdmissionAnswer) (s : State) : State :=
  match a with
  | .admitted limit dc => placeHold i limit dc n s
  | .refusedState => keepRefusal .refused n s
  | .refusedCap => keepRefusal .inUse n s
  | .refusedFloor => keepRefusal .noFunds n s

/-- The admission of a station whose card is in passage (R112). -/
def takeAdmission (n : StationId) (i : AccountId) (s : State) : State :=
  let r := requestAdmission i n (s.st n).floor s
  answerWith (.admission r.1) (keepAdmission i n r.1 r.2)

/-- The meaning of an admission (R112), asked by a station in IDLE with an admission in passage. It is taken for the account
it carries, whatever outcome or binding stands with the card and whatever the audit lock would say (log entry 2). -/
def execAdmission (st : StationId) (account : AccountId) (s : State) : Result :=
  if (s.st st).awaitsHold then .next (takeAdmission st account s) else .next s

/-- The account a station's ACCOUNT session draws on. -/
def Station.accountIndex (x : Station) : Option AccountId :=
  match x.session with
  | none => none
  | some ses =>
    match ses.funding with
    | .account i => some i
    | .bank _ _ _ => none
    | .free => none

/-- The meaning of a hold extension (R51, R113), asked by a station with an ACCOUNT session. It is granted whether or not
a grant of the session has been cut short (log entry 2). -/
def execHoldExtension (st : StationId) (s : State) : Result :=
  match (s.st st).accountIndex with
  | none => .next s
  | some i =>
    let r := requestExtension i st s
    .next (answerWith (.extension r.1) r.2)

/-- The answer to a side advance that a station of an ACCOUNT session on this account has asked ahead of its next sheet
stays there for that sheet (R60, R117; log entry 17). -/
def keepAdvance (i : AccountId) (c : ClassId) (count : Nat) (n : StationId) (s : State) : State :=
  if (s.st n).accountIndex = some i then s.modSt n (fun x => { x with advances := x.advances ++ [(c, count)] }) else s

/-- The meaning of a side advance (R117). The account table takes it whether or not the station is on the account's
funded list (log entry 2). -/
def execSideAdvance (account : AccountId) (cls : ClassId) (s : State) (asker : Option StationId := none) : Result :=
  let r := requestSideAdvance account cls s
  .next (answerWith (.count r.1) (atAsker asker (keepAdvance account cls r.1) r.2))

/-- The meaning of a side return (R118). The account table takes it whatever the account's funded list (log entry 2). -/
def execSideReturn (account : AccountId) (cls : ClassId) (sides : Nat) (s : State) : Result :=
  .next (requestSideReturn account cls sides s)

/-- The meaning of a job count (R119). The account table takes it whatever the account's funded list (log entry 2). -/
def execJobCount (account : AccountId) (s : State) : Result := .next (requestJobCount account s)

/-- The hold that a posting releases bounds its charge (R114). -/
def Account.postable (a : Account) (n : StationId) (charge : Nat) : Bool :=
  match a.entryOf n with
  | none => false
  | some e => decide (charge ≤ e.hold)

/-- The meaning of a posting (R114), asked by a station on the funded list with a charge within its hold, whether or not
its session is settling (log entry 2). -/
def execPosting (account : AccountId) (st : StationId) (charge : Nat) (s : State) : Result :=
  if (s.account account).postable st charge then .next (requestPosting account st charge s) else .next s

/-- The station lies ahead of the walk: above its position, or at it while the position's own wake is to come (R115). -/
def Walk.ahead (w : Walk) (n : StationId) : Bool :=
  if w.visited then decide (w.position < n) else decide (w.position ≤ n)

/-- The funded station that a walk visits next: the lowest that lies ahead of it (R115). -/
def nextVisit (w : Walk) (funded : List Funded) : Option StationId :=
  (List.finRange 16).find? (fun n => funded.any (fun e => decide (e.station = n)) && w.ahead n)

/-- A walk that has passed the highest station in the list ends, or starts anew where its restart mark is set (R115). -/
def Account.closeWalk (a : Account) : Account :=
  { a with walk := match a.walk with
    | none => none
    | some w =>
      if (nextVisit w a.funded).isSome then some w
      else if w.restart then newWalk a.funded
      else none }

/-- A station takes a wake: one that is STARVED retries its grant (R54, R115). -/
def takeWake (n : StationId) (s : State) : State := if (s.st n).state = .starved then retry n s else s

/-- The walk visits its next station, which responds; then the walk goes on, ends or starts anew (R115). -/
def visit (i : AccountId) (s : State) : State :=
  match (s.account i).walk with
  | none => s
  | some w =>
    match nextVisit w (s.account i).funded with
    | none => s.modAccount i Account.closeWalk
    | some n =>
      (takeWake n (s.modAccount i (fun a => { a with walk := some { w with position := n, visited := true } }))).modAccount i
        Account.closeWalk

/-- The meaning of a wake (R115). Without a walk in progress nothing happens. -/
def execWake (account : AccountId) (s : State) : Result := .next (visit account s)

/-! ## The settlement log -/

/-- An admission enters passage, with its reservation (R101, R168). -/
def enterPassage (card : CardId) (n : StationId) (s : State) : State :=
  s.modSt n (fun x => { x with passage := some { card := card, hold := none } })

/-- The meaning of an admission reservation (R168), asked by a station in IDLE for a presented card (R101). Where it is
refused the log answers so and nothing else happens: the station's PANEL with LOG_FULL is a part of CARD alone (log
entry 2). -/
def execAdmissionReservation (st : StationId) (card : CardId) (s : State) : Result :=
  if (s.st st).state = .idle ∧ (s.st st).passage = none then
    match reserve s with
    | (true, s1) => .next (answerWith (.reserved true) (enterPassage card st s1))
    | (false, s1) => .next (answerWith (.reserved false) s1)
  else .next s

/-- The outcome opens a session or enters REQUESTED without the account table: FREE and BANK (R101, R102). -/
def CardOutcome.opensAtOnce (o : CardOutcome) : Bool := decide (o.action = .free) || decide (o.action = .bank)

/-- The admission in passage is ready to hand its reservation over: its hold is placed, or it has passed the checks of
R101, the account table has not refused it, and its card is FREE or BANK, by the outcome that stands or by its
classification now (R101, R105, R168). -/
def handoverReady (s : State) (n : StationId) : Bool :=
  match (s.st n).passage with
  | none => false
  | some p =>
    p.hold.isSome ||
    (p.refused.isNone && (p.outcome.isSome || (!(s.st n).lockedOut && (s.st n).tariff.active.isSome)) &&
      (p.outcome.getD (classify s p.card)).opensAtOnce)

/-- The meaning of a handover (R168): the admission opens its session or enters REQUESTED, and takes the reservation
along. The count does not change. -/
def execHandover (st : StationId) (s : State) : Result :=
  if handoverReady s st then .next (finishPassage st s) else .next s

/-- An admission is in passage at the station without a hold. -/
def Station.inPassage (x : Station) : Bool :=
  match x.passage with
  | none => false
  | some p => p.hold.isNone

/-- The meaning of a reservation's return (R168), by a station whose admission fails. The admission ends; the refusal
PANEL of R101 and R102 is a part of CARD, or of the event that brings an admission in passage to its end (log entry
2). -/
def execReservationReturn (st : StationId) (s : State) : Result :=
  if (s.st st).inPassage then .next (returnReservation (endPassage st s)) else .next s

/-- The offer of a record (R169): a SESSION or VOID with a reservation it spends, a STATEMENT against unreserved space. The
reservation is one of the log's count, whoever holds it (log entry 2). -/
def offer (body : LogBody) (s : State) : Option Nat × State :=
  match body with
  | .statement _ => offerStatement body s
  | .session _ => if 1 ≤ s.log.reservations then (some s.log.counter, offerReserved body s) else (none, s)
  | .void _ => if 1 ≤ s.log.reservations then (some s.log.counter, offerReserved body s) else (none, s)

/-- The meaning of an offered record (R169). -/
def execRecordOffer (body : LogBody) (s : State) : Result :=
  .next (answerWith (.recordNumber (offer body s).1) (offer body s).2)

/-! ## The rating engine -/

/-- A request of the rating engine, which reads the station's active tariff (R55). No request reaches it without one. -/
def withTariff (n : StationId) (k : Tariff → Answer) (s : State) : State :=
  match (s.st n).tariff.active with
  | none => s
  | some t => answerWith (k t) s

/-- The meaning of a side price (R62 to R64). -/
def execSidePrice (st : StationId) (cls : ClassId) (kind : SideKind) (count gross : Nat) (s : State) : Result :=
  .next (withTariff st (fun t => .mills (sideMills t cls kind count gross)) s)

/-- The meaning of the opening figures (R65, R66). -/
def execOpeningFigures (st : StationId) (discountClass : Fin 8) (s : State) : Result :=
  .next (withTariff st (fun t => .opening (openingFloor t) (discountPercent t discountClass.val)) s)

/-- The answer of a settlement charge request (R67). -/
def chargeAnswer (kind : FundingKind) (gross discount limit sideTotal : Nat) (t : Tariff) : Answer :=
  let c := settlementCharge t kind gross discount limit sideTotal
  .charge c.1 c.2

/-- The meaning of a settlement charge (R67 to R72). -/
def execSettlementCharge (st : StationId) (kind : FundingKind) (gross discount limit sideTotal : Nat) (s : State) :
    Result :=
  .next (withTariff st (chargeAnswer kind gross discount limit sideTotal) s)

/-! ## The shared counters -/

/-- The meaning of a tag's taking (R129). It is taken whether or not a request stands behind it (log entry 2). -/
def execTagTake (s : State) : Result :=
  let r := takeTag s
  .next (answerWith (.tag r.1) r.2)

/-- The meaning of a session number's taking (R2). It is taken whether or not an opening stands behind it (log entry 2). -/
def execSessionNumberTake (s : State) : Result :=
  let r := takeSessionNumber s
  .next (answerWith (.sessionNumber r.1) r.2)

end Sys2Proof.Machine
end

