-- ==== Sys2Proof/Machine/Resets.lean ====
section
/-! DEFINITION. The meanings of cold reset (R34, R88, R90, R110, R144, R175, R189, R191, R199), of the end of the table
initialization (R110), and of warm reset (R195, R35, R89, R111, R143, R176). -/

namespace Sys2Proof.Machine

/-! ## Cold reset -/

/-- The host link rate the two straps give (R193). -/
def strapRate (strap1 strap0 : Bool) : Nat :=
  match strap1, strap0 with
  | false, false => 19200
  | false, true => 57600
  | true, false => 115200
  | true, true => 460800

/-- The state a cold reset leaves: every item at its cold reset value; the straps read (R193); the shop clock and its
flag kept, unless both supplies were lost (R194). A frame on a line is not recalled (R199; log entry 16). The second of
the shop clock starts anew with the tenths (DESIGN CHOICE, log entry 1). -/
def coldState (rate : Nat) (backupLost : Bool) (s : State) : State :=
  { State.reset with
    stations := s.stations.map (fun x => { line := x.line })
    host := { rate := rate, line := s.host.line }
    clock := if backupLost then 0 else s.clock
    clockSet := if backupLost then false else s.clockSet
    draws := s.draws
    pending := s.pending }

/-- The meaning of cold reset. -/
def execColdReset (strap1 strap0 backupLost : Bool) (s : State) : Result :=
  .next (coldState (strapRate strap1 strap0) backupLost s)

/-- The tables as the initialization leaves them, and the tables-ready flag (R95, R110). -/
def initializeTables (s : State) : State :=
  { s with accounts := [], bindings := [], quantum := 2000, tablesReady := true }

/-- The meaning of the end of the table initialization (R110). Once the tables are ready none is running. -/
def execTableInitializationComplete (s : State) : Result :=
  if s.tablesReady then .next s else .next (initializeTables s)

/-! ## Warm reset, step 1: the blocks (R195) -/

/-- The check's abort at one station (R89). -/
def ApplyStatus.abort : ApplyStatus → ApplyStatus
  | .inProgress => .aborted
  | .none => .none | .applied => .applied | .pending => .pending | .rejectedInvalid => .rejectedInvalid
  | .rejectedBusy => .rejectedBusy | .aborted => .aborted

/-- A check in flight is aborted (R89). -/
def abortCheck (s : State) : State :=
  match s.tariffs.check with
  | none => s
  | some _ =>
    { s with
      stations := s.stations.map (fun x => { x with tariff := { x.tariff with status := x.tariff.status.abort } })
      tariffs := { s.tariffs with check := none, lastResult := .aborted } }

/-- An admission in passage meets a warm reset: one whose hold is placed opens its session, any other is abandoned and
its reservation returned (R176). -/
def resetPassage (n : StationId) (s : State) : State :=
  match (s.st n).passage with
  | none => s
  | some p => if p.hold.isSome then finishPassage n s else returnReservation (endPassage n s)

/-- A session meets a warm reset (R35): in CLOSING the drain ends with the reason it carries, elsewhere it settles at
once with RESET; a disabled station enters DISABLED, and no other state of R28 is entered. -/
def resetSession (n : StationId) (s : State) : State :=
  if (s.st n).session.isNone then s
  else
    let s1 := if (s.st n).state = .closing then credit n s else closeAtOnce .reset n s
    let disable := (s1.st n).disablePending ||
      decide (((s1.st n).session.bind Session.endReason) = some .disabled)
    let s2 := settleRecord n s1
    if disable then enter true .disabled n s2 else s2

/-- What a warm reset clears at every station (R2, R35, R143): flags, job, timers, and the slot. -/
def Station.warm (x : Station) : Station :=
  { x with
    job := none
    startPending := false
    descriptor := none
    idleTimer := none
    confirmTimer := none
    drainTimer := none
    recoveryTimer := none
    prior := none
    serviceDue := false
    disablePending := false
    jamDuringClose := false
    passage := none
    advances := []
    slot := .free }

/-- Every wake walk ends (R111). -/
def endWalks (t : AccountTable) : AccountTable :=
  (t.map (fun e => (e.1, { e.2 with walk := none }))).filter (fun e => decide (e.2 ≠ {}))

/-- Step 1 of a warm reset: each block takes its own (R195). The stations' requests of the shared blocks come in free
orders (R169; log entry 4). -/
def resetBlocks (s : State) : State :=
  let d1 := takeOrder (abortCheck s)
  let d2 := takeOrder (atEach d1.1 resetPassage d1.2)
  let d3 := takeOrder (atEach d2.1 (voidFirst .reset) d2.2)
  let s1 := atEach d3.1 resetSession d3.2
  { s1 with
    stations := s1.stations.map Station.warm
    accounts := endWalks s1.accounts
    fetchOrder := []
    log := { s1.log with reservations := 0 } }

/-! ## Warm reset, steps 2 to 4 -/

/-- Step 2: queue, replies and notices are cleared (R195, R199). -/
def clearHost (s : State) : State :=
  clearNotices (s.modHost (fun h => { h with
    queue := [], replies := [], lastReset := .warm, resetPhase := .none, run := none }))

/-- Step 3: LOG_LOW is re-armed or raised (R176). -/
def rearmLogLow (s : State) : State :=
  if 16 < s.log.unreserved then { s with log := { s.log with armed := true } }
  else raise .logLow { s with log := { s.log with armed := false } }

/-- Step 4: a station not in DISABLED or SERVICE is placed by the state of its link (R35). One that stands already in the
state it is placed in changes nothing and raises no notice (R1, R9; DEDUCED, log entry 27). -/
def placeStation (n : StationId) (s : State) : State :=
  if (s.st n).state = .disabled ∨ (s.st n).state = .service then s
  else if (s.st n).alive then enterIdle true n s
  else enter true .down n s

/-- A warm reset (R195). -/
def warmState (s : State) : State :=
  atEach (List.finRange 16) placeStation (rearmLogLow (clearHost (resetBlocks s)))

/-- The meaning of warm reset, which takes place once the transmitter has sent the RESET reply (R195). -/
def execWarmReset (s : State) : Result :=
  if s.host.resetPhase = .replyBegun then .next (warmState s) else .next s

end Sys2Proof.Machine
end

