-- ==== Sys2Proof/Machine/StationCommands.lean ====
section
/-! DEFINITION. The meanings of the host's station commands (01_stations_and_sessions.md) and of the audit commands that
name stations (R184 to R188). -/

namespace Sys2Proof.Machine

/-! ## STATION-CONFIG (R3, R207) -/

/-- The start mode, when its byte names one (R204). -/
def settingsOf (p : List Byte) : Option Settings :=
  match startModeOf (fieldAt p 2 1) with
  | none => none
  | some mode =>
    let c : Settings :=
      { window := fieldAt p 1 1, startMode := mode, idleTime := fieldAt p 3 2, recoveryTime := fieldAt p 5 2
        confirmTime := fieldAt p 7 2, jamLimit := fieldAt p 9 1, auditThreshold := fieldAt p 10 1
        probeMinutes := fieldAt p 11 1, auditLock := decide (fieldAt p 12 1 ≠ 0) }
    if 2 ≤ c.window ∧ c.window ≤ 16 ∧ 30 ≤ c.idleTime ∧ c.idleTime ≤ 900 ∧ 60 ≤ c.recoveryTime ∧ c.recoveryTime ≤ 1800
        ∧ 10 ≤ c.confirmTime ∧ c.confirmTime ≤ 300 ∧ 1 ≤ c.jamLimit ∧ c.jamLimit ≤ 9
        ∧ (c.probeMinutes = 1 ∨ c.probeMinutes = 5) then some c
    else none

/-- STATION-CONFIG (R3). -/
def ruleStationConfig (p : List Byte) (s : State) : Handled :=
  onStation p 0 s (fun n =>
    match settingsOf p with
    | none => refuse .badParameter s
    | some c => if (s.st n).holdsSession then refuse .busy s else done (s.modSt n (fun x => { x with settings := c })))

/-- The meaning of STATION-CONFIG. -/
def execStationConfig (s : State) : Result := .next (runCommand (ofCode 0x04) ruleStationConfig s)

/-! ## STATION-ENABLE and STATION-DISABLE (R5, R7) -/

/-- STATION-ENABLE at one station (R5). -/
def enableStation (n : StationId) (s : State) : State :=
  if (s.st n).state = .disabled ∨ (s.st n).state = .service then
    let s1 := s.modSt n (fun x => { x with serviceDue := false })
    if (s.st n).alive then enterIdle false n s1 else enter false .down n s1
  else s

/-- STATION-ENABLE (R5). -/
def ruleStationEnable (p : List Byte) (s : State) : Handled := done (atEach (stationsOf (maskAt p 0)) enableStation s)

/-- The meaning of STATION-ENABLE. -/
def execStationEnable (s : State) : Result := .next (runCommand (ofCode 0x05) ruleStationEnable s)

/-- STATION-DISABLE at one station, by its state (R7). -/
def disableByState (n : StationId) (s : State) : State :=
  match (s.st n).state with
  | .disabled => s
  | .down => enter false .disabled n s
  | .idle => enter false .disabled n s
  | .service => enter false .disabled n s
  | .jammedFree => enter false .disabled n s
  | .authorizing => enter false .disabled n s
  | .opened => startClosing .disabled n s
  | .confirming => startClosing .disabled n s
  | .running => startClosing .disabled n s
  | .starved => startClosing .disabled n s
  | .jammedSession => startClosing .disabled n s
  | .suspended => startClosing .disabled n s
  | .closing => s.modSt n (fun x => { x with disablePending := true })

/-- STATION-DISABLE at one station; an admission in passage there ends first (R101). -/
def disableStation (n : StationId) (s : State) : State := disableByState n (finishPassage n s)

/-- STATION-DISABLE (R7): the stations' requests of the shared blocks come in the free order of log entry 4. -/
def ruleStationDisable (p : List Byte) (s : State) : Handled :=
  let drawn := takeOrder s
  done (atEach (drawn.1.filter (inMask (maskAt p 0))) disableStation drawn.2)

/-- The meaning of STATION-DISABLE. -/
def execStationDisable (s : State) : Result := .next (runCommand (ofCode 0x06) ruleStationDisable s)

/-! ## STATION-QUERY and STATION-LIST (R32, R33) -/

/-- STATION-QUERY (R32). -/
def ruleStationQuery (p : List Byte) (s : State) : Handled :=
  onStation p 0 s (fun n => report (stationQueryData (s.st n)) s)

/-- The meaning of STATION-QUERY. -/
def execStationQuery (s : State) : Result := .next (runCommand (ofCode 0x07) ruleStationQuery s)

/-- STATION-LIST (R33). -/
def ruleStationList (_ : List Byte) (s : State) : Handled :=
  report (stationListData s) { s with stations := s.stations.map (fun x => { x with changed := false }) }

/-- The meaning of STATION-LIST. -/
def execStationList (s : State) : Result := .next (runCommand (ofCode 0x08) ruleStationList s)

/-! ## Attended starts and END-SESSION (R18, R19, R26) -/

/-- A command at a station in CONFIRMING; elsewhere it is answered NOT_PENDING (R18, R19). -/
def whenConfirming (p : List Byte) (s : State) (act : StationId → State → State) : Handled :=
  onStation p 0 s (fun n => if (s.st n).state = .confirming then done (act n s) else refuse .notPending s)

/-- START-CONFIRM (R18). -/
def ruleStartConfirm (p : List Byte) (s : State) : Handled := whenConfirming p s startGrant

/-- The meaning of START-CONFIRM. -/
def execStartConfirm (s : State) : Result := .next (runCommand (ofCode 0x09) ruleStartConfirm s)

/-- START-DENY (R19). -/
def ruleStartDeny (p : List Byte) (s : State) : Handled := whenConfirming p s denyStart

/-- The meaning of START-DENY. -/
def execStartDeny (s : State) : Result := .next (runCommand (ofCode 0x0A) ruleStartDeny s)

/-- CANCEL-START at one station (R19). -/
def cancelPending (n : StationId) (s : State) : State := enter false .opened n (dropStart n s)

/-- CANCEL-START (R19). -/
def ruleCancelStart (p : List Byte) (s : State) : Handled := whenConfirming p s cancelPending

/-- The meaning of CANCEL-START. -/
def execCancelStart (s : State) : Result := .next (runCommand (ofCode 0x0B) ruleCancelStart s)

/-- END-SESSION (R26). -/
def ruleEndSession (p : List Byte) (s : State) : Handled :=
  onStation p 0 s (fun n =>
    if (s.st n).session.isSome ∧ (s.st n).state ≠ .closing then done (startClosing .hostEnd n s)
    else refuse .wrongState s)

/-- The meaning of END-SESSION. -/
def execEndSession (s : State) : Result := .next (runCommand (ofCode 0x0C) ruleEndSession s)

/-! ## The audit commands (R184 to R188) -/

/-- AUDIT-CONTROL with one action at the stations of its mask (R184, R207). -/
def auditControl (action : Nat) (act : StationId → State → State) (p : List Byte) (s : State) : Handled :=
  if fieldAt p 2 1 ≠ action ∨ maskAt p 0 = 0#16 then refuse .badParameter s
  else done (atEach (stationsOf (maskAt p 0)) act s)

/-- AUDIT-CONTROL START (R184). -/
def ruleAuditStart (p : List Byte) (s : State) : Handled := auditControl 0 auditStart p s

/-- The meaning of AUDIT-CONTROL START. -/
def execAuditControlStart (s : State) : Result := .next (runCommand (ofForm 0x22 0) ruleAuditStart s)

/-- AUDIT-CONTROL STOP (R185). -/
def ruleAuditStop (p : List Byte) (s : State) : Handled := auditControl 1 auditStop p s

/-- The meaning of AUDIT-CONTROL STOP. -/
def execAuditControlStop (s : State) : Result := .next (runCommand (ofForm 0x22 1) ruleAuditStop s)

/-- AUDIT-CONTROL CLEAR (R186). -/
def ruleAuditClear (p : List Byte) (s : State) : Handled := auditControl 2 auditClear p s

/-- The meaning of AUDIT-CONTROL CLEAR. -/
def execAuditControlClear (s : State) : Result := .next (runCommand (ofForm 0x22 2) ruleAuditClear s)

/-- AUDIT-QUERY (R188). -/
def ruleAuditQuery (p : List Byte) (s : State) : Handled :=
  onStation p 0 s (fun n => report (auditQueryData (s.st n)) s)

/-- The meaning of AUDIT-QUERY. -/
def execAuditQuery (s : State) : Result := .next (runCommand (ofCode 0x23) ruleAuditQuery s)

end Sys2Proof.Machine
end

