-- ==== Sys2Proof/Machine/TariffCommands.lean ====
section
/-! DEFINITION. The meanings of the host's tariff commands and of the tariff check's completion
(04_tariff_staging_and_commit.md). -/

namespace Sys2Proof.Machine

/-! ## STAGE-TARIFF (R76, R208) -/

/-- The header section of a STAGE-TARIFF payload (R208). -/
def headerOf (p : List Byte) : Header :=
  { stamp := fieldAt p 1 2, duplex := fieldAt p 3 1, minimum := fieldAt p 4 2
    discounts := Vector.ofFn (fun i : Fin 8 => fieldAt p (6 + i.val) 1) }

/-- The pricing section of a STAGE-TARIFF payload, when its tier count and tier basis are in range (R76, R208). -/
def pricingOf (p : List Byte) : Option Pricing :=
  match tierBasisOf (fieldAt p 16 1) with
  | none => none
  | some basis =>
    if 1 ≤ fieldAt p 1 1 ∧ fieldAt p 1 1 ≤ 4 then
      some { tiers := fieldAt p 1 1
             breaks := #v[fieldAt p 2 2, fieldAt p 4 2, fieldAt p 6 2]
             prices := #v[fieldAt p 8 2, fieldAt p 10 2, fieldAt p 12 2, fieldAt p 14 2]
             basis := basis }
    else none

/-- STAGE-TARIFF (R76). -/
def ruleStageTariff (p : List Byte) (s : State) : Handled :=
  if s.tariffs.check.isSome then refuse .busy s
  else if fieldAt p 0 1 = 4 then
    if p.length = 14 then done { s with tariffs := { s.tariffs with header := some (headerOf p) } }
    else refuse .badParameter s
  else
    match classOf (fieldAt p 0 1) with
    | none => refuse .badParameter s
    | some c =>
      if p.length = 17 then
        match pricingOf p with
        | none => refuse .badParameter s
        | some q =>
          done { s with tariffs := { s.tariffs with pricing := s.tariffs.pricing.set c.val (some q) } }
      else refuse .badParameter s

/-- The meaning of STAGE-TARIFF. -/
def execStageTariff (s : State) : Result := .next (runCommand (ofCode 0x0D) ruleStageTariff s)

/-! ## TARIFF-APPLY and the check (R78, R80 to R82) -/

/-- A station's apply status replaced. -/
def setApplyStatus (status : ApplyStatus) (n : StationId) (s : State) : State :=
  s.modSt n (fun x => { x with tariff := { x.tariff with status := status } })

/-- TARIFF-APPLY (R78): the checker starts on the staged tariff, and its completion is a step of its own. -/
def ruleTariffApply (p : List Byte) (s : State) : Handled :=
  if s.tariffs.check.isSome then refuse .busy s
  else
    match timingOf (fieldAt p 2 1) with
    | none => refuse .badParameter s
    | some timing =>
      if maskAt p 0 = 0#16 then refuse .badParameter s
      else
        (.accepted, [], atEach (stationsOf (maskAt p 0)) (setApplyStatus .inProgress)
          { s with tariffs := { s.tariffs with check := some (maskAt p 0, timing) } })

/-- The meaning of TARIFF-APPLY. -/
def execTariffApply (s : State) : Result := .next (runCommand (ofCode 0x0E) ruleTariffApply s)

/-- A passed check's outcome at one station (R82). -/
def takeTariff (t : Tariff) (timing : Timing) (n : StationId) (s : State) : State :=
  s.modSt n (fun x => { x with tariff :=
    if x.holdsSession then
      match timing with
      | .now => { x.tariff with status := .rejectedBusy }
      | .atIdle => { x.tariff with next := some t, status := .pending }
    else { active := some t, next := none, status := .applied } })

/-- Admissions in passage at the stations of a mask end first: an opening is taken whole at its station, so a check's
completion does not come within it (R83). -/
def finishPassages (m : Mask) (s : State) : State :=
  let drawn := takeOrder s
  atEach (drawn.1.filter (inMask m)) finishPassage drawn.2

/-- The completion of the check in flight: its result, each selected station's outcome, and notice TARIFF for them
(R80, R81, R82, R85). -/
def finishCheck (m : Mask) (timing : Timing) (s : State) : State :=
  match judgeStaged s.tariffs with
  | .error r =>
    raiseMask .tariff m (atEach (stationsOf m) (setApplyStatus .rejectedInvalid)
      { s with tariffs := { s.tariffs with check := none, lastResult := r } })
  | .ok t =>
    raiseMask .tariff m (atEach (stationsOf m) (takeTariff t timing)
      (finishPassages m { s with tariffs := { s.tariffs with check := none, lastResult := .passed } }))

/-- The meaning of the completion of a tariff check (R80 to R82, R85). Without a check in flight nothing happens. -/
def execTariffCheckCompletion (s : State) : Result :=
  match s.tariffs.check with
  | none => .next s
  | some (m, timing) => .next (finishCheck m timing s)

/-! ## TARIFF-QUERY (R87) -/

/-- TARIFF-QUERY with one target; a payload that names another is answered BAD_PARAMETER. -/
def tariffQuery (target : Nat) (p : List Byte) (s : State) (k : Handled) : Handled :=
  if fieldAt p 0 1 = target then k else refuse .badParameter s

/-- TARIFF-QUERY with target STATUS (R87). -/
def ruleTariffQueryStatus (p : List Byte) (s : State) : Handled := tariffQuery 0 p s (report (tariffStatusData s) s)

/-- The meaning of TARIFF-QUERY STATUS. -/
def execTariffQueryStatus (s : State) : Result := .next (runCommand (ofForm 0x0F 0) ruleTariffQueryStatus s)

/-- TARIFF-QUERY with target STAGED (R87). -/
def ruleTariffQueryStaged (p : List Byte) (s : State) : Handled := tariffQuery 1 p s (report (tariffStagedData s) s)

/-- The meaning of TARIFF-QUERY STAGED. -/
def execTariffQueryStaged (s : State) : Result := .next (runCommand (ofForm 0x0F 1) ruleTariffQueryStaged s)

/-- TARIFF-QUERY with target ACTIVE (R87). -/
def ruleTariffQueryActive (p : List Byte) (s : State) : Handled :=
  tariffQuery 2 p s (onStation p 1 s (fun n => report (beTariff (s.st n).tariff.active) s))

/-- The meaning of TARIFF-QUERY ACTIVE. -/
def execTariffQueryActive (s : State) : Result := .next (runCommand (ofForm 0x0F 2) ruleTariffQueryActive s)

/-- TARIFF-QUERY with target NEXT (R87). -/
def ruleTariffQueryNext (p : List Byte) (s : State) : Handled :=
  tariffQuery 3 p s (onStation p 1 s (fun n => report (beTariff (s.st n).tariff.next) s))

/-- The meaning of TARIFF-QUERY NEXT. -/
def execTariffQueryNext (s : State) : Result := .next (runCommand (ofForm 0x0F 3) ruleTariffQueryNext s)

end Sys2Proof.Machine
end

