-- ==== Sys2Proof/Machine/Timers.lean ====
section
/-! DEFINITION. The meanings of the part's own events: the shop clock (R194), the host link's receiver and transmitter
(R190, R191, R200), probes and link silence (R8, R9), and the expiries of the timers. An expiry acts where its timer
runs; the arrival of the row says that the time has run out (log entry 2). -/

namespace Sys2Proof.Machine

/-- The meaning of a second of the shop clock, which passes from 4,294,967,295 to 0 (R194). -/
def execShopClockTick (s : State) : Result := .next { s with clock := (s.clock + 1) % 4294967296 }

/-- Bytes reach the host link receiver (R190), and a frame that passes its check goes to the command queue (R191). -/
def hostBytes (bytes : List Byte) (h : HostLink) : HostLink := bytes.foldl HostLink.byte h

/-- The meaning of bytes received on the host link (R190, R191). -/
def execHostFrameReceived (bytes : List Byte) (s : State) : Result := .next (s.modHost (hostBytes bytes))

/-- The meaning of a gap of more than 50 ms on the host link (R190). -/
def execHostFrameGapTimeout (s : State) : Result := .next (s.modHost HostLink.gap)

/-- The meaning of a free host link transmitter (R200, R206). -/
def execTransmitNextFrame (s : State) : Result := .next (transmitNext s)

/-- A PROBE is produced for a station that is not DISABLED (R8, R203). -/
def probeStation (n : StationId) (s : State) : State := if (s.st n).state = .disabled then s else sendProbe n s

/-- The meaning of the 2 s probe tick (R8, R203). -/
def execProbeTick (s : State) : Result := .next (atEach (List.finRange 16) probeStation s)

/-- The meaning of link silence: the station's measure reaches 100 (R9). -/
def execLinkSilence (st : StationId) (s : State) : Result := .next (linkSilent st s)

/-- The meaning of the idle timer's expiry (R13). -/
def execIdleTimerExpiry (st : StationId) (s : State) : Result :=
  if (s.st st).idleTimer.isSome ∧ (s.st st).state.idleRuns = true then .next (startClosing .idleTimeout st s)
  else .next s

/-- The meaning of the confirm timer's expiry, handled as START-DENY (R17, R19). -/
def execConfirmTimerExpiry (st : StationId) (s : State) : Result :=
  if (s.st st).confirmTimer.isSome ∧ (s.st st).state = .confirming then .next (denyStart st s) else .next s

/-- The meaning of the drain timer's expiry: the sheets still in the path are credited, and settlement follows (R27). -/
def execDrainTimerExpiry (st : StationId) (s : State) : Result :=
  if (s.st st).drainTimer.isSome ∧ (s.st st).state = .closing then .next (settle st (credit st s)) else .next s

/-- The meaning of the recovery timer's expiry: JAM_ABANDONED in JAMMED, LINK_LOST in SUSPENDED (R145, R154, R163). -/
def execRecoveryTimerExpiry (st : StationId) (s : State) : Result :=
  if (s.st st).recoveryTimer.isSome ∧ (s.st st).state = .jammedSession then .next (settleNow .jamAbandoned st s)
  else if (s.st st).recoveryTimer.isSome ∧ (s.st st).state = .suspended then .next (settleNow .linkLost st s)
  else .next s

/-- The expiry of a slot's request timer (R137, R140). -/
def expireRequest (n : StationId) (s : State) : State :=
  match (s.st n).slot with
  | .requested _ _ _ => leaveAuthorizing .refused n (voidFirst .timeout n s)
  | .topup _ _ _ => voidTopup n s
  | .free => s
  | .active _ _ => s

/-- The meaning of the request timer's expiry (R137, R140). -/
def execRequestTimerExpiry (st : StationId) (s : State) : Result := .next (expireRequest st s)

/-- The meaning of the audit interval timer's expiry: the meter-request flag is set and the timer restarts (R179). -/
def execIntervalTimerExpiry (st : StationId) (s : State) : Result :=
  if (s.st st).audit.intervalTimer.isSome then
    .next (s.modSt st (fun x => { x with
      audit := { x.audit with meterRequest := true, intervalTimer := some x.settings.interval } }))
  else .next s

end Sys2Proof.Machine
end

