-- ==== Sys2Proof/Machine/Dispatch.lean ====
section
/-! DEFINITION. Which meaning each step has: one arm per constructor of `Instr`. -/

namespace Sys2Proof.Machine

/-- The effect of a step on everything but the queue of waiting steps. -/
def exec (i : Instr) (s : State) : Host.Outcome State Fault Refusal :=
  match i with
  | .coldReset strap1 strap0 backupLost => Sys2Proof.Machine.execColdReset strap1 strap0 backupLost s
  | .tableInitializationComplete => Sys2Proof.Machine.execTableInitializationComplete s
  | .shopClockTick => Sys2Proof.Machine.execShopClockTick s
  | .hostFrameReceived bytes => Sys2Proof.Machine.execHostFrameReceived bytes s
  | .hostFrameGapTimeout => Sys2Proof.Machine.execHostFrameGapTimeout s
  | .unknownCommand => Sys2Proof.Machine.execUnknownCommand s
  | .transmitNextFrame => Sys2Proof.Machine.execTransmitNextFrame s
  | .identify => Sys2Proof.Machine.execIdentify s
  | .setTime => Sys2Proof.Machine.execSetTime s
  | .reset => Sys2Proof.Machine.execReset s
  | .warmReset => Sys2Proof.Machine.execWarmReset s
  | .stationConfig => Sys2Proof.Machine.execStationConfig s
  | .stationEnable => Sys2Proof.Machine.execStationEnable s
  | .stationDisable => Sys2Proof.Machine.execStationDisable s
  | .stationQuery => Sys2Proof.Machine.execStationQuery s
  | .stationList => Sys2Proof.Machine.execStationList s
  | .startConfirm => Sys2Proof.Machine.execStartConfirm s
  | .startDeny => Sys2Proof.Machine.execStartDeny s
  | .cancelStart => Sys2Proof.Machine.execCancelStart s
  | .endSession => Sys2Proof.Machine.execEndSession s
  | .stageTariff => Sys2Proof.Machine.execStageTariff s
  | .tariffApply => Sys2Proof.Machine.execTariffApply s
  | .tariffQueryStatus => Sys2Proof.Machine.execTariffQueryStatus s
  | .tariffQueryStaged => Sys2Proof.Machine.execTariffQueryStaged s
  | .tariffQueryActive => Sys2Proof.Machine.execTariffQueryActive s
  | .tariffQueryNext => Sys2Proof.Machine.execTariffQueryNext s
  | .ruleWrite => Sys2Proof.Machine.execRuleWrite s
  | .ruleRead => Sys2Proof.Machine.execRuleRead s
  | .defaultAction => Sys2Proof.Machine.execDefaultAction s
  | .bindCard => Sys2Proof.Machine.execBindCard s
  | .unbindCard => Sys2Proof.Machine.execUnbindCard s
  | .markLost => Sys2Proof.Machine.execMarkLost s
  | .bindingQueryByCard => Sys2Proof.Machine.execBindingQueryByCard s
  | .bindingQueryByPosition => Sys2Proof.Machine.execBindingQueryByPosition s
  | .accountWriteRecords pause => Sys2Proof.Machine.execAccountWriteRecords s pause
  | .accountWriteQuantum => Sys2Proof.Machine.execAccountWriteQuantum s
  | .accountRead pause => Sys2Proof.Machine.execAccountRead s pause
  | .accountAdjust => Sys2Proof.Machine.execAccountAdjust s
  | .accountBlock => Sys2Proof.Machine.execAccountBlock s
  | .accountUnblock => Sys2Proof.Machine.execAccountUnblock s
  | .closePeriod => Sys2Proof.Machine.execClosePeriod s
  | .authFetchNew => Sys2Proof.Machine.execAuthFetchNew s
  | .authFetchOutstanding => Sys2Proof.Machine.execAuthFetchOutstanding s
  | .authResult => Sys2Proof.Machine.execAuthResult s
  | .logRead => Sys2Proof.Machine.execLogRead s
  | .logDrop => Sys2Proof.Machine.execLogDrop s
  | .auditControlStart => Sys2Proof.Machine.execAuditControlStart s
  | .auditControlStop => Sys2Proof.Machine.execAuditControlStop s
  | .auditControlClear => Sys2Proof.Machine.execAuditControlClear s
  | .auditQuery => Sys2Proof.Machine.execAuditQuery s
  | .noticeConfig => Sys2Proof.Machine.execNoticeConfig s
  | .noticeMask => Sys2Proof.Machine.execNoticeMask s
  | .noticeQuery => Sys2Proof.Machine.execNoticeQuery s
  | .stationFrameError st bytes => Sys2Proof.Machine.execStationFrameError st bytes s
  | .stationFrameGapTimeout st => Sys2Proof.Machine.execStationFrameGapTimeout st s
  | .stationSendRecord st => Sys2Proof.Machine.execStationSendRecord st s
  | .announce st model classes capacity => Sys2Proof.Machine.execAnnounce st model classes capacity s
  | .status st => Sys2Proof.Machine.execStatus st s
  | .card st bytes => Sys2Proof.Machine.execCard st bytes s
  | .start st mode originals copies duplex => Sys2Proof.Machine.execStart st mode originals copies duplex s
  | .imaged st sheet cls sides => Sys2Proof.Machine.execImaged st sheet cls sides s
  | .exited st sheet => Sys2Proof.Machine.execExited st sheet s
  | .jobEnd st outcome => Sys2Proof.Machine.execJobEnd st outcome s
  | .jam st location sheets => Sys2Proof.Machine.execJam st location sheets s
  | .cleared st => Sys2Proof.Machine.execCleared st s
  | .finish st => Sys2Proof.Machine.execFinish st s
  | .meter st m0 m1 m2 m3 => Sys2Proof.Machine.execMeter st m0 m1 m2 m3 s
  | .probeTick => Sys2Proof.Machine.execProbeTick s
  | .linkSilence st => Sys2Proof.Machine.execLinkSilence st s
  | .idleTimerExpiry st => Sys2Proof.Machine.execIdleTimerExpiry st s
  | .confirmTimerExpiry st => Sys2Proof.Machine.execConfirmTimerExpiry st s
  | .drainTimerExpiry st => Sys2Proof.Machine.execDrainTimerExpiry st s
  | .recoveryTimerExpiry st => Sys2Proof.Machine.execRecoveryTimerExpiry st s
  | .requestTimerExpiry st => Sys2Proof.Machine.execRequestTimerExpiry st s
  | .intervalTimerExpiry st => Sys2Proof.Machine.execIntervalTimerExpiry st s
  | .tariffCheckCompletion => Sys2Proof.Machine.execTariffCheckCompletion s
  | .commit st => Sys2Proof.Machine.execCommit st s
  | .classification card asker => Sys2Proof.Machine.execClassification card s asker
  | .bindingLookup card asker => Sys2Proof.Machine.execBindingLookup card s asker
  | .admission st account => Sys2Proof.Machine.execAdmission st account s
  | .holdExtension st => Sys2Proof.Machine.execHoldExtension st s
  | .sideAdvance account cls asker => Sys2Proof.Machine.execSideAdvance account cls s asker
  | .sideReturn account cls sides => Sys2Proof.Machine.execSideReturn account cls sides s
  | .jobCount account => Sys2Proof.Machine.execJobCount account s
  | .posting account st charge => Sys2Proof.Machine.execPosting account st charge s
  | .wake account => Sys2Proof.Machine.execWake account s
  | .admissionReservation st card => Sys2Proof.Machine.execAdmissionReservation st card s
  | .handover st => Sys2Proof.Machine.execHandover st s
  | .reservationReturn st => Sys2Proof.Machine.execReservationReturn st s
  | .recordOffer body => Sys2Proof.Machine.execRecordOffer body s
  | .sidePrice st cls kind count gross => Sys2Proof.Machine.execSidePrice st cls kind count gross s
  | .openingFigures st discountClass => Sys2Proof.Machine.execOpeningFigures st discountClass s
  | .settlementCharge st kind gross discount limit sideTotal => Sys2Proof.Machine.execSettlementCharge st kind gross discount limit sideTotal s
  | .tagTake => Sys2Proof.Machine.execTagTake s
  | .sessionNumberTake => Sys2Proof.Machine.execSessionNumberTake s

end Sys2Proof.Machine
end

