-- ==== Sys2Proof/Machine/Schedule.lean ====
section
/-! DEFINITION. What the part does when no step is waiting (log entry 1): the work that is due at once, and otherwise a
tenth of a second of its clocks. -/

namespace Sys2Proof.Machine

/-! ## Work that is due at once -/

/-- The row of the command in a frame (R206, R207). A payload that selects no form goes to the first of its code's
rows, and an account run goes to its end. -/
def rowOf (f : Frame) : Instr :=
  match f.type.toNat with
  | 0x01 => .identify | 0x02 => .setTime | 0x03 => .reset | 0x04 => .stationConfig | 0x05 => .stationEnable
  | 0x06 => .stationDisable | 0x07 => .stationQuery | 0x08 => .stationList | 0x09 => .startConfirm
  | 0x0A => .startDeny | 0x0B => .cancelStart | 0x0C => .endSession | 0x0D => .stageTariff | 0x0E => .tariffApply
  | 0x0F =>
    match formOf 0x0F f.payload with
    | some 1 => .tariffQueryStaged
    | some 2 => .tariffQueryActive
    | some 3 => .tariffQueryNext
    | _ => .tariffQueryStatus
  | 0x10 => .ruleWrite | 0x11 => .ruleRead | 0x12 => .defaultAction | 0x13 => .bindCard | 0x14 => .unbindCard
  | 0x15 => .markLost
  | 0x16 => if formOf 0x16 f.payload = some 1 then .bindingQueryByPosition else .bindingQueryByCard
  | 0x17 => .accountWriteRecords none | 0x18 => .accountWriteQuantum | 0x19 => .accountRead none | 0x1A => .accountAdjust
  | 0x1B => .accountBlock | 0x1C => .accountUnblock | 0x1D => .closePeriod
  | 0x1E => if formOf 0x1E f.payload = some 1 then .authFetchOutstanding else .authFetchNew
  | 0x1F => .authResult | 0x20 => .logRead | 0x21 => .logDrop
  | 0x22 =>
    match formOf 0x22 f.payload with
    | some 1 => .auditControlStop
    | some 2 => .auditControlClear
    | _ => .auditControlStart
  | 0x23 => .auditQuery | 0x24 => .noticeConfig | 0x25 => .noticeMask | 0x26 => .noticeQuery
  | _ => .unknownCommand

/-- The transmitter has a frame to send (R200). -/
def State.transmitDue (s : State) : Bool :=
  decide (s.host.resetPhase ≠ .replyBegun) && (!s.host.replies.isEmpty || (nextNotice s.notices).isSome)

/-- The first account with a wake walk in progress (R115). -/
def walkingAccount (t : AccountTable) : Option AccountId :=
  t.findSome? (fun e => if e.2.walk.isSome then accountOf e.1 else none)

/-- The step that is due at once, if any (log entry 1): a warm reset whose reply has been sent, the command at the head
of the queue or the run it stands in, a frame for the host, a record for a copier, a wake, the completion of a tariff
check, the end of the table initialization. -/
def dueNow (s : State) : Option Instr :=
  if s.host.resetPhase = .replyBegun then some .warmReset
  else
    match s.headRun with
    | some (f, _) => some (rowOf f)
    | none =>
      if s.transmitDue then some .transmitNextFrame
      else
        match (List.finRange 16).find? (fun n => !(s.st n).sendList.isEmpty) with
        | some n => some (.stationSendRecord n)
        | none =>
          match walkingAccount s.accounts with
          | some i => some (.wake i)
          | none =>
            if s.tariffs.check.isSome then some .tariffCheckCompletion
            else if s.tablesReady then none
            else some .tableInitializationComplete

/-! ## A tenth of a second -/

/-- A running timer one second on. -/
def countDown : Option Nat → Option Nat := Option.map (fun t => t - 1)

/-- The timer reaches its end with this second. -/
def endsNow (t : Option Nat) : Bool := decide (t = some 1)

/-- A station's timers one second on (R13, R17, R27, R145, R128, R177). -/
def Station.secondOn (x : Station) : Station :=
  { x with
    idleTimer := countDown x.idleTimer
    confirmTimer := countDown x.confirmTimer
    drainTimer := countDown x.drainTimer
    recoveryTimer := countDown x.recoveryTimer
    slot := x.slot.mapRequest (fun r => { r with timer := r.timer - 1 })
    audit := { x.audit with intervalTimer := countDown x.audit.intervalTimer } }

/-- The expiries that this second brings at a station. -/
def expiriesAt (s : State) (n : StationId) : List Instr :=
  let x := s.st n
  (if endsNow x.idleTimer then [Instr.idleTimerExpiry n] else []) ++
  (if endsNow x.confirmTimer then [Instr.confirmTimerExpiry n] else []) ++
  (if endsNow x.drainTimer then [Instr.drainTimerExpiry n] else []) ++
  (if endsNow x.recoveryTimer then [Instr.recoveryTimerExpiry n] else []) ++
  (if endsNow (x.slot.request.map Request.timer) then [Instr.requestTimerExpiry n] else []) ++
  (if endsNow x.audit.intervalTimer then [Instr.intervalTimerExpiry n] else [])

/-- Every station's silence measure a tenth on, up to its limit (R8). -/
def silenceOn (s : State) : State :=
  { s with stations := s.stations.map (fun x => { x with silence := min 100 (x.silence + 1) }) }

/-- The stations whose link falls silent with this tenth (R9). -/
def silencesNow (s : State) : List Instr :=
  ((List.finRange 16).filter (fun n => decide ((s.st n).silence = 99))).map Instr.linkSilence

/-- A receiver stands within a frame. -/
def Receiver.collecting : Receiver → Bool
  | .hunting => false
  | .inFrame _ => true

/-- The frames that a tenth without a byte abandons: more than 50 ms have passed since their last (R190, R201). -/
def gapsNow (s : State) : List Instr :=
  (if s.host.rx.collecting then [Instr.hostFrameGapTimeout] else []) ++
  ((List.finRange 16).filter (fun n => (s.st n).rx.collecting)).map Instr.stationFrameGapTimeout

/-- A tenth of a second passes (log entry 1): the frames begun on the links are abandoned, silence measures move each
tenth, timers and the shop clock each second, probes every two seconds. What it brings waits in the queue. -/
def tenthPasses (s : State) : State :=
  let t := (s.tenths + 1) % 20
  let s1 := silenceOn s
  let s2 := if t % 10 = 0 then { s1 with stations := s1.stations.map Station.secondOn } else s1
  { s2 with
    tenths := t
    pending := gapsNow s ++ silencesNow s ++
      (if t % 10 = 0 then Instr.shopClockTick :: (List.finRange 16).flatMap (expiriesAt s) else []) ++
      (if t = 0 then [Instr.probeTick] else []) }

/-- A turn of the part with no step waiting: what is due at once waits next, and otherwise a tenth of a second
passes. -/
def idleTurn (s : State) : State :=
  match dueNow s with
  | some i => { s with pending := [i] }
  | none => tenthPasses s

end Sys2Proof.Machine
end

