-- ==== Sys2Proof/Machine/Step.lean ====
section
/-! DEFINITION. One step of the part: the waiting step at the front of the queue, with the queue's rest (log entry 2); with
none waiting, a turn of the part's own (log entry 1). -/

namespace Sys2Proof.Machine

/-- One step. -/
def step (s : State) : Host.Outcome State Fault Refusal :=
  match s.pending with
  | [] => .next (idleTurn s)
  | i :: rest => exec i { s with pending := rest }

/-- The state with the step that a word spells at the front of the queue. The opcode table gives no row any bits, so no
word spells a step and the state is unchanged. -/
def State.withFetchWord (s : State) (nbits w : Nat) : State :=
  match decodeTableWord nbits w with
  | none => s
  | some i => { s with pending := i :: s.pending }

end Sys2Proof.Machine
end

