-- ==== Sys2Proof/WellFormed.lean ====
section
/-! DEFINITION. Which terms of `Instr` a real part can meet: a record of the size its kind requires (R214), a card ID
of 8 to 19 digits, and the ranges of the fields that one block hands another. `exec` gives every term a meaning; a
claim that needs a range asks for it here. -/

namespace Sys2Proof

/-- A card ID is a string of 8 to 19 decimal digits (Conventions, "Card IDs"; R95). -/
abbrev CardId.wf (c : CardId) : Bool :=
  decide (8 ≤ c.length) && decide (c.length ≤ 19) && c.all (fun d => decide (d ≤ 9))

/-- The ranges of a SESSION record's fields (R166). -/
abbrev SessionRecord.wf (r : SessionRecord) : Bool :=
  decide (1 ≤ r.number) && decide (r.number ≤ max32) && decide (r.gross ≤ maxGross) &&
  decide (r.discount ≤ 50) && decide (r.charge ≤ 99999999) && r.sideCounts.toList.all (fun n => decide (n ≤ maxSides)) &&
  (r.account.isSome == decide (r.kind = .account)) && (r.tags.isSome == decide (r.kind = .bank)) &&
  (r.limit.isSome == decide (r.kind ≠ .free)) && decide (r.cardTail.length = 4)

/-- The ranges of a VOID record's fields (R167). -/
abbrev VoidRecord.wf (r : VoidRecord) : Bool :=
  decide (1 ≤ r.tag) && decide (r.tag ≤ 65535) && decide (r.time ≤ max32)

/-- The ranges of a STATEMENT record's fields (R167). -/
abbrev StatementRecord.wf (r : StatementRecord) : Bool :=
  r.sideCounts.toList.all (fun n => decide (n ≤ maxSides)) && decide (r.jobs ≤ max32) &&
  decide (r.sessions ≤ max32) && decide (r.charge ≤ 999999999)

/-- The ranges of a log record's fields (R166, R167). -/
abbrev LogBody.wf : LogBody → Bool
  | .session r => r.wf
  | .void r => r.wf
  | .statement r => r.wf

/-- A step whose operands a real part can meet. A row without operands, or whose operand types already bound them,
is well formed as it stands. -/
def Instr.wf : Instr → Bool
  | .hostFrameReceived bytes => !bytes.isEmpty
  | .stationFrameError _ bytes => !bytes.isEmpty
  | .card _ bytes => decide (bytes.length = 11)
  | .classification c _ => c.wf
  | .bindingLookup c _ => c.wf
  | .admissionReservation _ c => c.wf
  | .sideReturn _ _ sides => decide (1 ≤ sides) && decide (sides ≤ 16)
  | .posting _ _ charge => decide (charge ≤ 99999999)
  | .recordOffer body => body.wf
  | .sidePrice _ _ _ count gross => decide (count ≤ maxSides) && decide (gross ≤ maxGross)
  | .settlementCharge _ _ gross discount limit _ =>
    decide (gross ≤ maxGross) && decide (discount ≤ 50) && decide (limit ≤ maxMoney)
  | .coldReset _ _ _ => true
  | .tableInitializationComplete => true
  | .shopClockTick => true
  | .hostFrameGapTimeout => true
  | .unknownCommand => true
  | .transmitNextFrame => true
  | .identify => true
  | .setTime => true
  | .reset => true
  | .warmReset => true
  | .stationConfig => true
  | .stationEnable => true
  | .stationDisable => true
  | .stationQuery => true
  | .stationList => true
  | .startConfirm => true
  | .startDeny => true
  | .cancelStart => true
  | .endSession => true
  | .stageTariff => true
  | .tariffApply => true
  | .tariffQueryStatus => true
  | .tariffQueryStaged => true
  | .tariffQueryActive => true
  | .tariffQueryNext => true
  | .ruleWrite => true
  | .ruleRead => true
  | .defaultAction => true
  | .bindCard => true
  | .unbindCard => true
  | .markLost => true
  | .bindingQueryByCard => true
  | .bindingQueryByPosition => true
  | .accountWriteRecords _ => true
  | .accountWriteQuantum => true
  | .accountRead _ => true
  | .accountAdjust => true
  | .accountBlock => true
  | .accountUnblock => true
  | .closePeriod => true
  | .authFetchNew => true
  | .authFetchOutstanding => true
  | .authResult => true
  | .logRead => true
  | .logDrop => true
  | .auditControlStart => true
  | .auditControlStop => true
  | .auditControlClear => true
  | .auditQuery => true
  | .noticeConfig => true
  | .noticeMask => true
  | .noticeQuery => true
  | .stationFrameGapTimeout _ => true
  | .stationSendRecord _ => true
  | .announce _ _ _ _ => true
  | .status _ => true
  | .start _ _ _ _ _ => true
  | .imaged _ _ _ _ => true
  | .exited _ _ => true
  | .jobEnd _ _ => true
  | .jam _ _ _ => true
  | .cleared _ => true
  | .finish _ => true
  | .meter _ _ _ _ _ => true
  | .probeTick => true
  | .linkSilence _ => true
  | .idleTimerExpiry _ => true
  | .confirmTimerExpiry _ => true
  | .drainTimerExpiry _ => true
  | .recoveryTimerExpiry _ => true
  | .requestTimerExpiry _ => true
  | .intervalTimerExpiry _ => true
  | .tariffCheckCompletion => true
  | .commit _ => true
  | .admission _ _ => true
  | .holdExtension _ => true
  | .sideAdvance _ _ _ => true
  | .jobCount _ => true
  | .wake _ => true
  | .handover _ => true
  | .reservationReturn _ => true
  | .openingFigures _ _ => true
  | .tagTake => true
  | .sessionNumberTake => true

end Sys2Proof
end

