-- ==== Sys2Proof/Safety.lean ====
section
/-! DEFINITION. The terms in which claims about the part are stated: a command that may execute and its answer, the
invariants of the blocks, and the states that the manual's tables name. -/

namespace Sys2Proof.Machine

/-! ## Host commands -/

/-- The frame stands at the head of the command queue, in front of `rest`, and may execute: no command is executing, the
reply list holds fewer than 4 replies and no RESET has been executed (R192, R195). -/
abbrev Executing (s : State) (f : Frame) (rest : List Frame) : Prop :=
  s.host.run = none ∧ s.host.resetPhase = .none ∧ s.host.replies.length < 4 ∧ s.host.queue = f :: rest

/-- The frame is the account run that is executing, with the run it has come to (R120, R122, R192). -/
abbrev Running (s : State) (r : Run) (f : Frame) (rest : List Frame) : Prop :=
  s.host.run = some r ∧ s.host.queue = f :: rest

/-- The state `after` a command, its frame gone from the queue, its reply at the tail of the reply list, and no command
executing (R192). -/
def answered (after : State) (rest : List Frame) (f : Frame) (status : Status) (data : List Byte) : State :=
  { after with host := { after.host with
      queue := rest
      replies := after.host.replies ++ [{ type := f.type + 0x80#8, tag := f.tag, status := status, data := data }]
      run := none } }

/-! ## Invariants -/

/-- The numbers of the records run without a gap from head to tail, and the counter follows the last (R164, R165). -/
def numbersRun (counter : Nat) : List LogRecord → Prop
  | [] => True
  | [r] => nextNumber r.number = counter
  | r :: q :: t => nextNumber r.number = q.number ∧ numbersRun counter (q :: t)

/-- The records and reservations stay within the log's 256 entries (R168). -/
def Log.within (l : Log) : Prop := l.records.length + l.reservations ≤ 256

/-- The settlement log's invariant (R164, R165, R168). -/
def Log.sound (l : Log) : Prop := l.within ∧ numbersRun l.counter l.records

/-- The binding table's invariant: at most 4,096 bindings, each with a card ID, in card-ID order, no ID twice (R95). -/
def bindingsSound (l : List Binding) : Prop :=
  l.length ≤ 4096 ∧ (∀ b ∈ l, CardId.wf b.card = true) ∧ l.Pairwise (fun a b => cardBefore a.card b.card = true)

/-- The states in which a session record is present (R1). -/
def StationState.hasSession : StationState → Bool
  | .opened => true | .confirming => true | .running => true | .starved => true | .suspended => true
  | .closing => true | .jammedSession => true
  | .disabled => false | .down => false | .idle => false | .authorizing => false | .jammedFree => false
  | .service => false

/-- A station's items agree with its state: the session record is present where R1 says, the in-path list holds at most
8 sheets (R36), a card is in passage only in IDLE (R101), and the prior session state is one of those R145 names. -/
structure Station.Agrees (x : Station) : Prop where
  session : x.session.isSome = x.state.hasSession
  path : x.inPath.length ≤ 8
  passage : x.passage.isSome = true → x.state = .idle
  prior : ∀ p, x.prior = some p → p = .opened ∨ p = .running ∨ p = .starved ∨ p = .jammedSession

/-- The settings' ranges (R3). -/
structure Settings.InRange (c : Settings) : Prop where
  window : 2 ≤ c.window ∧ c.window ≤ 16
  idle : 30 ≤ c.idleTime ∧ c.idleTime ≤ 900
  recovery : 60 ≤ c.recoveryTime ∧ c.recoveryTime ≤ 1800
  confirm : 10 ≤ c.confirmTime ∧ c.confirmTime ≤ 300
  jam : 1 ≤ c.jamLimit ∧ c.jamLimit ≤ 9
  threshold : c.auditThreshold ≤ 255
  probe : c.probeMinutes = 1 ∨ c.probeMinutes = 5

/-- The ranges of the host link's lists and of what the host sets (R3, R109, R191, R193, R194, R196, R197, R2, R129,
R165). -/
structure State.InRange (s : State) : Prop where
  queue : s.host.queue.length ≤ 4
  replies : s.host.replies.length ≤ 8
  run : s.host.run.isSome = true → s.host.replies.length ≤ 7
  rate : s.host.rate = 19200 ∨ s.host.rate = 57600 ∨ s.host.rate = 115200 ∨ s.host.rate = 460800
  settings : ∀ n, (s.st n).settings.InRange
  quantum : 100 ≤ s.quantum ∧ s.quantum ≤ 50000
  clock : s.clock < 4294967296
  tag : 1 ≤ s.tagCounter ∧ s.tagCounter ≤ 65535
  session : 1 ≤ s.sessionCounter ∧ s.sessionCounter ≤ max32
  record : 1 ≤ s.log.counter ∧ s.log.counter ≤ max32
  mask : s.notices.maskLevel ≤ 3
  logLow : (s.source .logLow).level = 3
  levels : ∀ src, src ≠ .logLow → (s.source src).level ≤ 2

/-- A tariff as the checker lets one pass: a duplex rate of at most 100, and no price of any class above the ceiling
(R49, R80). -/
structure Tariff.Sound (tf : Tariff) : Prop where
  duplex : tf.header.duplex ≤ 100
  prices : ∀ (c : ClassId) (count : Nat), tierPrice tf.pricing[c] count ≤ tf.ceiling

/-- What the part's funds and grants keep: each entry of a funded list stands for its station's ACCOUNT session on that
account, with the session's funding limit as its hold, or for an admission in passage there whose hold it is, and no
station stands twice on a list; no account's available funds are below 0 (R108); every session but a FREE one has a
funding limit, and its gross mills with its released sides at the ceiling stay within it (R49). The other items are what
this rests on: a job has a session, a slot in TOPUP a BANK session, and every tariff held is sound. -/
structure State.Solvent (s : State) : Prop where
  tables : AccountTable.wf s.accounts
  agrees : ∀ n, (s.st n).Agrees
  owned : ∀ i, ∀ e ∈ (s.account i).funded,
    (s.st e.station).session.map (fun x => (x.funding, x.limit)) = some (.account i, some e.hold) ∨
    ((s.st e.station).passage.bind Passage.hold).map (fun h => (h.1, h.2.1)) = some (i, e.hold)
  once : ∀ i, ((s.account i).funded.map Funded.station).Nodup
  funds : ∀ i, 0 ≤ (s.account i).available
  limits : ∀ n ses, (s.st n).session = some ses → (ses.funding = .free ↔ ses.limit = none)
  exposure : ∀ n ses l, (s.st n).session = some ses → ses.limit = some l →
    ses.gross + (s.st n).released * (s.st n).ceiling ≤ 10 * l
  jobs : ∀ n, (s.st n).job.isSome = true → (s.st n).session.isSome = true
  topups : ∀ n card dc req, (s.st n).slot = .topup card dc req →
    (s.st n).session.map (fun x => x.funding.kind) = some .bank
  tariffs : ∀ n tf, (s.st n).tariff.active = some tf ∨ (s.st n).tariff.next = some tf → tf.Sound

/-! ## Named results -/

/-- The state that the entry to IDLE gives a station, by the checks of R6 in their order. -/
def Station.idleEntry (x : Station) : StationState :=
  if x.serviceDue then .service
  else if x.settings.auditLock ∧ x.audit.state = .outOfStep then .service
  else if x.slot.isRequested then .authorizing
  else .idle

/-- The state that a settlement gives a station, by the table of R28: `x` is the station as the settlement finds it. -/
def Station.settledState (x : Station) (kind : FundingKind) (reason : EndReason) : StationState :=
  if x.disablePending ∨ reason = .disabled then .disabled
  else if reason = .jamLimit then .jammedFree
  else if x.jamDuringClose ∨ reason = .jamAbandoned then .jammedFree
  else if reason = .linkLost ∨ 100 ≤ x.silence then .down
  else ({ x with slot := if kind = .bank then .free else x.slot } : Station).idleEntry

/-- Between `s` and `t` closing has begun at station `n`, which first takes back a top-up it has outstanding: the slot is
ACTIVE, the request is off the fetch order, and its tag stands last on the session's voided tags (R26, R140). A station
with none outstanding keeps its slot and its session's funding. -/
structure TopupTakenBack (n : StationId) (s t : State) : Prop where
  voided : ∀ card dc req, (s.st n).slot = .topup card dc req →
    (t.st n).slot = .active card dc ∧ n ∉ t.fetchOrder ∧
    ∀ a v k, (s.st n).session.map Session.funding = some (.bank a v k) →
      (t.st n).session.map Session.funding = some (.bank a (v ++ [req.tag]) k)
  kept : (∀ card dc req, (s.st n).slot ≠ .topup card dc req) →
    (t.st n).slot = (s.st n).slot ∧ (t.st n).session.map Session.funding = (s.st n).session.map Session.funding

/-- What the start of closing stops at a station with sheets in its path (R26): the station is in CLOSING with its end
reason, the job and the pending start are gone, the timers of the session stopped, HALT listed in place of every unsent
GRANT, and the drain timer at 20 s. -/
structure Station.Draining (reason : EndReason) (y : Station) : Prop where
  state : y.state = .closing
  reason : y.session.bind Session.endReason = some reason
  job : y.job = none
  start : y.startPending = false ∧ y.descriptor = none
  timers : y.idleTimer = none ∧ y.confirmTimer = none ∧ y.recoveryTimer = none
  drain : y.drainTimer = some 20
  halt : OutRecord.halt ∈ y.sendList ∧ ∀ g, OutRecord.grant g ∉ y.sendList

/-- Closing has started between `s` and `t` at a station with sheets in its path (R26): the session and the path go on as
they were, but for the end reason and a top-up that is taken back. -/
structure ClosingBegun (reason : EndReason) (n : StationId) (s t : State) : Prop where
  draining : (t.st n).Draining reason
  path : (t.st n).inPath = (s.st n).inPath
  session : (t.st n).session.map (fun x => (x.number, x.card, x.limit, x.gross, x.credited, x.sideCounts)) =
    (s.st n).session.map (fun x => (x.number, x.card, x.limit, x.gross, x.credited, x.sideCounts))
  counts : (t.st n).session.map (fun x => (x.sheetsExited, x.sheetsCredited, x.overrunSides, x.jamCount, x.jobs)) =
    (s.st n).session.map (fun x => (x.sheetsExited, x.sheetsCredited, x.overrunSides, x.jamCount, x.jobs))
  topup : TopupTakenBack n s t

/-- A session that has not begun to end, with sheets in the path (the hypotheses of `ClosingBegun`). -/
abbrev Station.mayClose (x : Station) : Prop :=
  x.session.isSome ∧ x.session.bind Session.endReason = none ∧ x.inPath ≠ []

/-- A protocol fault has been counted and raised at a station, and the service-due flag set where it has a session
(R31). Nothing else of the station has changed. -/
def faulted (x : Station) : Station :=
  { x with
    counters := { x.counters with protocolFaults := satAdd max32 x.counters.protocolFaults 1 }
    serviceDue := x.serviceDue || x.session.isSome }

/-! ## Sessions that settle -/

/-- The station as a start of closing finds it, with the jam-during-close flag that a close from JAMMED sets (R26). -/
def Station.closingFrom (x : Station) : Station :=
  { x with jamDuringClose := x.jamDuringClose || decide (x.state = .jammedSession) }

/-- How many stations have a session record. -/
def openSessions (s : State) : Nat := (s.stations.toList.filter (fun x => x.session.isSome)).length

/-- How many slots wait on a first request. -/
def firstRequests (s : State) : Nat := (s.stations.toList.filter (fun x => x.slot.isRequested)).length

/-- A session that has not begun to end, with no sheet in the path: its closing settles it at once (R26, R27). -/
abbrev Station.closesAtOnce (x : Station) (ses : Session) : Prop :=
  x.session = some ses ∧ ses.endReason = none ∧ x.inPath = [] ∧ x.state ≠ .closing

/-- The tag of the top-up that closing takes back at the station, if one is outstanding (R140). A station in CLOSING has
none: its closing has taken it back. -/
def Station.openTopup (x : Station) : List Nat :=
  if x.state = .closing then []
  else match x.slot with
    | .topup _ _ req => [req.tag]
    | .free => []
    | .requested _ _ _ => []
    | .active _ _ => []

/-- The record `r` says whose session it settles and what the session was opened with and counted (R166): every field
that neither credit nor the settlement itself works on. A BANK session's tags are its approved tags, and its voided tags
with that of the top-up taken back last (R140, R141, R142). -/
structure RecordOf (n : StationId) (ses : Session) (topup : List Nat) (r : SessionRecord) : Prop where
  whose : r.number = ses.number ∧ r.station = n ∧ r.kind = ses.funding.kind
  account : ∀ i, ses.funding = .account i → r.account = some i ∧ r.tags = none
  bank : ∀ a v k, ses.funding = .bank a v k → r.account = none ∧ r.tags = some (a, v ++ topup)
  free : ses.funding = .free → r.account = none ∧ r.tags = none
  card : r.cardTail = ses.card.drop (ses.card.length - 4)
  opened : r.openTime = ses.openTime ∧ r.openClockSet = ses.clockSet
  figures : r.limit = ses.limit ∧ r.stamp = ses.stamp ∧ r.discount = ses.discount
  counts : r.jobs = ses.jobs ∧ r.overrunSides = ses.overrunSides

/-- The record's figures are the session's, after the credit of these sheets (R146). That the credited mills stop at the
largest money value is log entry 12's. -/
structure Credited (sheets : List Sheet) (ses : Session) (r : SessionRecord) : Prop where
  gross : r.gross = ses.gross - (sheets.map Sheet.mills).sum
  mills : r.creditedMills = min 2147483647 (ses.credited + (sheets.map Sheet.mills).sum)
  credits : r.sheetsCredited = min 4294967295 (ses.sheetsCredited + sheets.length)
  sides : ∀ c : ClassId, r.sideCounts[c] =
    ses.sideCounts[c] - ((sheets.filter (fun e => decide (e.cls = c.val))).map Sheet.charged).sum
  exited : r.sheetsExited = ses.sheetsExited

/-- The record's figures are the session's, as they stand without a credit. -/
abbrev Uncredited (ses : Session) (r : SessionRecord) : Prop :=
  r.gross = ses.gross ∧ r.creditedMills = ses.credited ∧ r.sideCounts = ses.sideCounts ∧
  r.sheetsCredited = ses.sheetsCredited

/-- No other session on the account has settled between `s` and `t` than station `n`'s, if that one has. -/
abbrev NoOtherSettled (i : AccountId) (n : StationId) (s t : State) : Prop :=
  ∀ m, m ≠ n → (s.st m).session.map Session.funding = some (.account i) → (t.st m).session.isSome = true

/-- A wake has been started at an account whose walk was `before`, and its walk is `after` (R115): with no walk in progress
one starts at the lowest station of the funded list, a walk in progress is marked for restart, and a walk over an empty list
ends at once. The field `visited` is the model's own (log entry 19). -/
structure WakeStarted (funded : List Funded) (before after : Option Walk) : Prop where
  ends : funded = [] → after = none
  starts : before = none → ∀ e ∈ funded, (∀ f ∈ funded, e.station ≤ f.station) →
    after = some { position := e.station, visited := false, restart := false }
  marks : ∀ w, before = some w → funded ≠ [] → after = some { w with restart := true }

/-- A walk has visited station `n` of the funded list (R115): it goes on where a station lies above, and else ends, or
starts anew at the lowest station where its restart mark is set. That it does so with the visit is log entry 19's. -/
structure WalkMoved (funded : List Funded) (w : Walk) (n : StationId) (after : Option Walk) : Prop where
  on : (∃ e ∈ funded, n < e.station) → after = some { w with position := n, visited := true }
  ended : (∀ e ∈ funded, e.station ≤ n) → w.restart = false → after = none
  anew : (∀ e ∈ funded, e.station ≤ n) → w.restart = true → WakeStarted funded none after

/-- The station is the next that the walk visits: on the funded list, above the position, or at it where the position's wake
is still to come, and the lowest such (R115). -/
structure Walk.VisitsNext (w : Walk) (funded : List Funded) (n : StationId) : Prop where
  listed : ∃ e ∈ funded, e.station = n
  ahead : w.position < n ∨ (w.visited = false ∧ n = w.position)
  lowest : ∀ e ∈ funded, w.position < e.station ∨ (w.visited = false ∧ e.station = w.position) → n ≤ e.station

/-- The account's walk when station `n`'s entry leaves the funded list: one that stands at the station does not visit it
(R115). -/
def walkWithout (n : StationId) (walk : Option Walk) : Option Walk :=
  walk.map (fun w => { w with visited := w.visited || decide (w.position = n) })

/-- The account has taken the charge of station `n`'s session (R114): the balance falls by the charge and the period charge
rises by it, the station's entry is off the funded list, and a charge below the hold starts a wake where a session is
left. -/
structure Account.Charged (n : StationId) (charge : Nat) (a b : Account) : Prop where
  balance : b.balance = a.balance - charge
  period : b.charge = min 999999999 (a.charge + charge)
  funded : b.funded = a.funded.filter (fun e => decide (e.station ≠ n))
  wake : (∀ e ∈ a.funded, e.station = n → charge < e.hold) → WakeStarted b.funded (walkWithout n a.walk) b.walk
  unwoken : (∀ e ∈ a.funded, e.station = n → e.hold ≤ charge) → b.funded ≠ [] → b.walk = walkWithout n a.walk
  kept : b.state = a.state ∧ b.kind = a.kind ∧ b.creditLimit = a.creditLimit ∧ b.cap = a.cap ∧
    b.discountClass = a.discountClass ∧ b.jobs = a.jobs ∧ b.sessions = a.sessions ∧ b.periodStart = a.periodStart ∧
    b.startClockSet = a.startClockSet

/-- The session `ses` of station `n` has been settled between `s` and `t` with the record `r` (R28): the record says whose
it is, why it ended and what it charges, the account has taken the charge and holds nothing for the station any more, the
station's session, job, path and timers are gone, a BANK session's slot is FREE, a top-up outstanding is off the fetch
order, and the station is where R28's table puts it. `x` is the station as the settlement finds it. -/
structure Settled (reason : EndReason) (n : StationId) (ses : Session) (x : Station) (s t : State)
    (r : SessionRecord) : Prop where
  record : RecordOf n ses (s.st n).openTopup r
  ends : r.endReason = reason
  closed : r.closeTime = s.clock ∧ r.closeClockSet = s.clockSet
  charge : ∀ tf, (s.st n).tariff.active = some tf → (r.charge, r.minimumApplied) =
    settlementCharge tf ses.funding.kind r.gross ses.discount (ses.limit.getD 0) r.sideCounts.toList.sum
  posted : ∀ i, ses.funding = .account i → AccountTable.wf s.accounts → ∀ e ∈ (t.account i).funded, e.station ≠ n
  taken : ∀ i, ses.funding = .account i → AccountTable.wf s.accounts → NoOtherSettled i n s t →
    (∃ e ∈ (s.account i).funded, e.station = n) → (s.account i).Charged n r.charge (t.account i)
  others : ∀ i, ses.funding ≠ .account i → AccountTable.wf s.accounts → NoOtherSettled i n s t →
    t.account i = s.account i
  gone : (t.st n).session = none ∧ (t.st n).job = none ∧ (t.st n).inPath = []
  timers : (t.st n).idleTimer = none ∧ (t.st n).drainTimer = none ∧ (t.st n).recoveryTimer = none
  slot : ses.funding.kind = .bank → (t.st n).slot = .free
  fetched : (s.st n).openTopup ≠ [] → n ∉ t.fetchOrder
  state : (t.st n).state = x.settledState ses.funding.kind reason

/-- Closing has started at a station with no sheet in its path and has settled the session at once (R26, R27, R28): the
session's figures are the record's, and the pending start and the confirm timer are gone too. `x` is the station as
closing finds it. -/
structure ClosedAtOnce (reason : EndReason) (n : StationId) (ses : Session) (x : Station) (s t : State)
    (r : SessionRecord) : Prop where
  settled : Settled reason n ses x.closingFrom s t r
  figures : Uncredited ses r
  counts : r.sheetsExited = ses.sheetsExited ∧ r.jamCount = ses.jamCount
  start : (t.st n).startPending = false ∧ (t.st n).descriptor = none ∧ (t.st n).confirmTimer = none

/-- The log has taken the record with the counter's number, and the session's reservation is spent (R166, R169). -/
abbrev TakesRecord (s t : State) (r : SessionRecord) : Prop :=
  t.log.records = s.log.records ++ [{ number := s.log.counter, body := .session r }] ∧
  t.log.reservations = s.log.reservations - 1

/-! ## Grants -/

/-- The grant that a request is sized into at an exposure, a ceiling and a funding limit: the request where it passes the
exposure check, else the largest passing grant within it, or nothing where the set is granted whole or not at all
(R49, R50). -/
def grantWithin (whole : Bool) (request exposure ceiling : Nat) : Option Nat → Nat
  | none => request
  | some l =>
    if exposure + request * ceiling ≤ 10 * l then request
    else if whole then 0
    else min request ((10 * l - exposure) / ceiling)

/-- The set sides of a descriptor: its originals, twice where it is duplex (R14). -/
def Descriptor.setSides (d : Descriptor) : Nat := d.originals * (if d.duplex then 2 else 1)

/-- The descriptor's job runs in SET mode: its originals are not 0 and its set sides do not exceed 64 (R16). -/
def Descriptor.runsAsSet (d : Descriptor) : Bool :=
  decide (d.mode = .set) && decide (1 ≤ d.originals) && decide (d.setSides ≤ 64)

/-- The request of a start grant with a release window: one sheet's sides in SINGLE, a set in SET, the window in RUN
(R21, R22, R23, R48). -/
def Descriptor.startRequest (d : Descriptor) (window : Nat) : Nat :=
  if d.runsAsSet then d.setSides
  else if d.mode = .single then min (if d.duplex then 2 else 1) window
  else window

/-- The request of a later consultation with so many sides released: the mode's want where it is above 0 and else the
unmet want (R21, R22, R23, R48), within the release cap less the released sides. -/
def Job.laterRequest (j : Job) (window released : Nat) : Nat :=
  let cap := if j.mode = .set then 2 * j.setSides else window
  let want :=
    if j.mode = .run ∧ released ≤ window / 2 then window - released
    else if j.mode = .set ∧ released ≤ j.setSides ∧ 0 < j.setsRemaining then j.setSides
    else 0
  min (if want = 0 then j.unmet else want) (cap - released)

/-- The request passes the exposure check whole at a funding limit, which a FREE session lacks (R49). -/
abbrev fits (request exposure ceiling : Nat) (limit : Option Nat) : Prop :=
  ∀ l, limit = some l → exposure + request * ceiling ≤ 10 * l

/-- A request has been sized into the grant `g` at station `n` between `s` and `t`, where the session was `ses` and its job
had `released` sides outstanding and `sets` sets remaining: the grant is what the funding limit then allows, it joins
the released sides and is listed for the copier, the rest of the request is the unmet want, and the funder has been asked
where the request was cut short: an ACCOUNT session's hold is extended until the request passes or the account table
refuses, a BANK session's slot asks for one top-up (R48 to R52). `whole` is SET's rule, all or nothing. -/
structure Sized (whole : Bool) (request : Nat) (n : StationId) (ses : Session) (released sets : Nat) (s t : State)
    (g : Nat) : Prop where
  size : g = grantWithin whole request (ses.gross + released * (s.st n).ceiling) (s.st n).ceiling
    ((t.st n).session.bind Session.limit)
  gross : (t.st n).session.map Session.gross = some ses.gross
  outstanding : (t.st n).job.map Job.released = some (released + g)
  unmet : (t.st n).job.map Job.unmet = some (request - g)
  setsLeft : (t.st n).job.map Job.setsRemaining = some (if whole = true ∧ 0 < g then sets - 1 else sets)
  listed : 0 < g → ∃ k, g ≤ k ∧ OutRecord.grant k ∈ (t.st n).sendList
  unlisted : g = 0 → ∀ k, OutRecord.grant k ∈ (t.st n).sendList ↔ OutRecord.grant k ∈ (s.st n).sendList
  free : ses.funding = .free → (t.st n).session.map Session.limit = some ses.limit ∧ (t.st n).slot = (s.st n).slot
  bank : ∀ a v k, ses.funding = .bank a v k → (t.st n).session.map Session.limit = some ses.limit
  asked : ∀ a v k card dc, ses.funding = .bank a v k → (s.st n).slot = .active card dc → 0 < request → k < 3 →
    ¬ fits request (ses.gross + released * (s.st n).ceiling) (s.st n).ceiling ses.limit →
    (t.st n).session.map Session.funding = some (.bank a v (k + 1)) ∧ n ∈ t.fetchOrder ∧
    (t.source .authWaiting).pending = true ∧ inMask (t.source .authWaiting).bitmap n = true ∧
    ∃ req, (t.st n).slot = .topup card dc req ∧ req.amount = s.quantum ∧ req.time = s.clock ∧
      req.clockSet = s.clockSet ∧ req.timer = 30 ∧ req.fetched = false
  unasked : ∀ a v k, ses.funding = .bank a v k →
    (request = 0 ∨ 3 ≤ k ∨ (∀ card dc, (s.st n).slot ≠ .active card dc) ∨
      fits request (ses.gross + released * (s.st n).ceiling) (s.st n).ceiling ses.limit) →
    (t.st n).session.map Session.funding = some ses.funding ∧ (t.st n).slot = (s.st n).slot
  account : ∀ i l, ses.funding = .account i → ses.limit = some l → AccountTable.wf s.accounts → 1 ≤ s.quantum →
    (t.st n).slot = (s.st n).slot ∧ (t.st n).session.map Session.funding = some ses.funding ∧
    ∃ raised, (t.st n).session.map Session.limit = some (some (l + raised)) ∧
      (t.account i).funded = (s.account i).funded.map
        (fun e => if e.station = n then { e with hold := e.hold + raised } else e) ∧
      (request = 0 ∨ fits request (ses.gross + released * (s.st n).ceiling) (s.st n).ceiling (some l) → raised = 0) ∧
      (0 < request →
        ¬ fits request (ses.gross + released * (s.st n).ceiling) (s.st n).ceiling (some (l + raised)) →
        (t.account i).state = .blocked ∨ (t.account i).available ≤ 0)

/-- A consultation has been sized (`Sized`) at a station that stood in `before`, RUNNING or STARVED, and the station is
where R53 puts it: in RUNNING with a grant above 0, in STARVED with nothing granted of a request and nothing released. -/
structure Consulted (before : StationState) (whole : Bool) (request : Nat) (n : StationId) (ses : Session)
    (released sets : Nat) (s t : State) (g : Nat) : Prop where
  sized : Sized whole request n ses released sets s t g
  state : (t.st n).state = if 0 < g then .running
    else if 0 < request ∧ released = 0 then .starved else before

/-! ## Imaged sheets -/

/-- A sheet number passes the sequence check and leaves `gap` numbers out: the last number and the flag judge it, and with
the flag clear the numbers in the path (R39). -/
abbrev Station.inSequence (x : Station) (sheet gap : Nat) : Prop :=
  if x.seqKnown then x.lastSeq < 65536 ∧ (sheet + 65536 - x.lastSeq) % 65536 = gap + 1 ∧ gap + 1 ≤ 32767
  else gap = 0 ∧ ∀ e ∈ x.inPath, e.number ≠ sheet

/-- The class byte names a class that the copier supports (R40). -/
abbrev Station.supports (x : Station) (cls : Byte) (c : ClassId) : Prop :=
  cls.toNat = c.val ∧ x.identity.classes.getLsbD c.val = true

/-- The tier counter that prices a session's next side of a class: under PERIOD basis, in an ACCOUNT session, the account's
period side count, and else the session's own (R42). -/
def tierCounter (s : State) (ses : Session) (tf : Tariff) (c : ClassId) : Nat :=
  match ses.funding with
  | .account i => if tf.pricing[c].basis = .period then (s.account i).sides[c] else ses.sideCounts[c]
  | .bank _ _ _ => ses.sideCounts[c]
  | .free => ses.sideCounts[c]

/-- The mills of a sheet's charged sides, priced in order from a tier counter and gross mills on (R42, R61). -/
def sheetMills (tf : Tariff) (c : ClassId) (sides charged counter gross : Nat) : Nat :=
  let m0 := if charged = 0 then 0 else sideMills tf c (if sides = 1 then .simplex else .first) counter gross
  m0 + (if charged ≤ 1 then 0 else sideMills tf c .second (counter + 1) (gross + m0))

/-- The in-path entry of a sheet of a class the copier supports: as many sides charged as are released (R41, R42, R43). The
basis of an entry without a charged side is SESSION. -/
def chargedEntry (s : State) (n : StationId) (ses : Session) (tf : Tariff) (c : ClassId) (sheet sides : Nat) : Sheet :=
  let charged := min sides (s.st n).released
  { number := sheet, cls := c.val, sides := sides, charged := charged
    mills := sheetMills tf c sides charged (tierCounter s ses tf c) ses.gross
    basis := if charged = 0 then .session else match ses.funding with
      | .account _ => tf.pricing[c].basis
      | .bank _ _ _ => .session
      | .free => .session
    overrun := decide ((s.st n).released < sides) }

/-- The in-path entry of a sheet of a class the copier does not support: nothing charged, every side overrun (R40). -/
def uncharged (sheet cls sides : Nat) : Sheet :=
  { number := sheet, cls := cls, sides := sides, charged := 0, mills := 0, basis := .session, overrun := true }

/-- Side counts with a sheet's charged sides in their class (R42). -/
def countedSides (counts : PerClass Nat) (e : Sheet) : PerClass Nat :=
  Vector.ofFn (fun c : Fin 4 => counts[c] + (if c.val = e.cls then e.charged else 0))

/-- The side counts of a session, and of its account, stay below their largest value while a sheet is counted. -/
abbrev CountsFit (s : State) (ses : Session) : Prop :=
  ∀ c : ClassId, ses.sideCounts[c] + 2 ≤ 16777215 ∧
    ∀ i, ses.funding = .account i → (s.account i).sides[c] + 2 ≤ 16777215

/-- Metering has counted the sheet `e` of a session at station `n` between `s` and `t`, `gap` numbers left out before it:
the numbering (R37, R39), the overrun sides of the session and the station and the station's sides (R41, R42), the
last-activity time (R44), and the report to the audit unit (R45, R178). -/
structure SheetCounted (n : StationId) (ses : Session) (e : Sheet) (gap : Nat) (s t : State) : Prop where
  numbering : (t.st n).lastSeq = e.number ∧ (t.st n).seqKnown = true
  gaps : (t.st n).counters.sequenceGaps = min 4294967295 ((s.st n).counters.sequenceGaps + gap)
  overrun : (t.st n).session.map Session.overrunSides = some (min 4294967295 (ses.overrunSides + (e.sides - e.charged)))
  overrunCounter : (t.st n).counters.overrunSides =
    min 4294967295 ((s.st n).counters.overrunSides + (e.sides - e.charged))
  sidesCounter : ∀ c : ClassId, (t.st n).counters.sides[c] =
    if c.val = e.cls then min 4294967295 ((s.st n).counters.sides[c] + e.charged) else (s.st n).counters.sides[c]
  activity : (t.st n).session.map Session.lastActivity = some s.clock
  accounted : ∀ c : ClassId,
    let a := (s.st n).audit.accounted[c]
    (t.st n).audit.accounted[c] =
      if ((s.st n).audit.state = .tracking ∨ (s.st n).audit.state = .outOfStep) ∧ c.val = e.cls then
        { a with
          billed := if ses.funding = .free then a.billed else min 4294967295 (a.billed + e.charged)
          free := if ses.funding = .free then min 4294967295 (a.free + e.charged) else a.free
          overrun := min 4294967295 (a.overrun + (e.sides - e.charged)) }
      else a
  elsewhere : (∀ m, m ≠ n → t.st m = s.st m) ∧ t.log = s.log

/-- The sheet `e` has joined the path of its session with its price (R42, R43): the session's gross mills and side counts,
and the period side counts of an ACCOUNT session's account. -/
structure SheetEntered (n : StationId) (ses : Session) (e : Sheet) (path : List Sheet) (s t : State) : Prop where
  path : (t.st n).inPath = path ++ [e]
  gross : (t.st n).session.map Session.gross = some (ses.gross + e.mills)
  counts : (t.st n).session.map Session.sideCounts = some (countedSides ses.sideCounts e)
  account : ∀ i, ses.funding = .account i → AccountTable.wf s.accounts →
    (t.account i).sides = countedSides (s.account i).sides e ∧ (t.account i).balance = (s.account i).balance
  others : ∀ i, ses.funding ≠ .account i → AccountTable.wf s.accounts → t.account i = s.account i

/-- A sheet with overrun sides has been metered in a session that has not begun to end: it has joined the path, and
closing has begun with OVERRUN (R41, R43, R44). -/
structure OverrunClosed (n : StationId) (ses : Session) (e : Sheet) (gap : Nat) (s t : State) : Prop where
  counted : SheetCounted n ses e gap s t
  entered : SheetEntered n ses e (s.st n).inPath s t
  draining : (t.st n).Draining .overrun
  topup : TopupTakenBack n s t

/-- A sheet imaged as the jam came has been metered in JAMMED and credited at once, with anything else in the path (R146,
R147, R153): the price is gone again from the gross mills and the sides from the counts, the reprint allowance has the
charged sides, the last jam report the sheets, and the session goes on in JAMMED whatever was overrun. The sums that
stop at the largest values of their fields are log entry 12's. -/
structure JamSheetCredited (n : StationId) (ses : Session) (e : Sheet) (gap : Nat) (s t : State) : Prop where
  counted : SheetCounted n ses e gap s t
  stays : (t.st n).state = .jammedSession ∧ (t.st n).inPath = [] ∧ (t.st n).slot = (s.st n).slot
  panel : (t.st n).sendList.getLast? = some (.panel true (t.st n).remaining (some .jammed))
  session : (t.st n).session.map (fun x => (x.number, x.funding, x.limit, x.endReason, x.jamCount, x.sheetsExited)) =
    some (ses.number, ses.funding, ses.limit, ses.endReason, ses.jamCount, ses.sheetsExited)
  gross : (t.st n).session.map Session.gross = some (ses.gross - ((s.st n).inPath.map Sheet.mills).sum)
  credited : (t.st n).session.map Session.credited =
    some (min 2147483647 (ses.credited + (((s.st n).inPath.map Sheet.mills).sum + e.mills)))
  sheets : (t.st n).session.map Session.sheetsCredited =
    some (min 4294967295 (ses.sheetsCredited + ((s.st n).inPath.length + 1)))
  sheetsCounter : (t.st n).counters.sheetsCredited =
    min 4294967295 ((s.st n).counters.sheetsCredited + ((s.st n).inPath.length + 1))
  sides : ∀ c : ClassId, (t.st n).session.map (fun x => x.sideCounts[c]) = some (ses.sideCounts[c] -
    (((s.st n).inPath.filter (fun f => decide (f.cls = c.val))).map Sheet.charged).sum)
  account : ∀ i, ses.funding = .account i → AccountTable.wf s.accounts → ∀ c : ClassId,
    (t.account i).sides[c] = (s.account i).sides[c] -
      (((s.st n).inPath.filter (fun f => decide (f.cls = c.val))).map Sheet.charged).sum ∧
    (t.account i).balance = (s.account i).balance ∧ (t.account i).funded = (s.account i).funded
  released : (t.st n).job.map Job.released = (s.st n).job.map (fun j => j.released - e.charged)
  reprint : (t.st n).job.map Job.reprint = (s.st n).job.map
    (fun j => min 16 (j.reprint + (((s.st n).inPath.map Sheet.charged).sum + e.charged)))
  report : (t.st n).lastJam = (s.st n).lastJam.map (fun r => { r with
    sheets := min 4294967295 (r.sheets + ((s.st n).inPath.length + 1))
    sides := min 4294967295 (r.sides + (((s.st n).inPath.map Sheet.charged).sum + e.charged))
    mills := min 2147483647 (r.mills + (((s.st n).inPath.map Sheet.mills).sum + e.mills)) })

/-! ## The staged tariff's tests -/

/-- A used breakpoint of a class is 0 or not above the one before it (R80, test 6). -/
def Pricing.BadBreaks (q : Pricing) : Prop :=
  ∃ k : Fin 3, k.val + 1 < q.tiers ∧ q.breaks[k] ≤ if k.val = 0 then 0 else q.breaks[k.val - 1]

/-- A used price of a class is above the one before it (R80, test 7). -/
def Pricing.BadPrices (q : Pricing) : Prop := ∃ k : Fin 3, k.val + 1 < q.tiers ∧ q.prices[k.val] < q.prices[k.val + 1]

/-! ## Account records -/

/-- An account record is what the writing of a record made of it: the six fields are the record's, and one brought into use
by it starts its billing period at a time with the clock-set flag (R120). -/
structure Account.WrittenAs (w : AccountFields) (time : Nat) (clockSet : Bool) (a b : Account) : Prop where
  fields : b.state = w.state ∧ b.kind = w.kind ∧ b.balance = w.balance ∧ b.creditLimit = w.creditLimit ∧
    b.cap = w.cap ∧ b.discountClass = w.discountClass
  funded : b.funded = a.funded
  period : if a.state = .free ∧ w.state ≠ .free then
      b.jobs = 0 ∧ b.sessions = 0 ∧ b.charge = 0 ∧ b.sides = Vector.replicate 4 0 ∧ b.periodStart = time ∧
        b.startClockSet = clockSet
    else b.jobs = a.jobs ∧ b.sessions = a.sessions ∧ b.charge = a.charge ∧ b.sides = a.sides ∧
      b.periodStart = a.periodStart ∧ b.startClockSet = a.startClockSet

/-- The bytes of a record of ACCOUNT-WRITE (R210). -/
def AccountFields.bytes (w : AccountFields) : List Byte :=
  be1 w.state.code ++ be1 w.kind.code ++ beSigned4 w.balance ++ be4 w.creditLimit ++ be1 w.cap ++ be1 w.discountClass

/-- The fields lie in their ranges (R107, R210). -/
def AccountFields.InRange (w : AccountFields) : Prop :=
  -99999999 ≤ w.balance ∧ w.balance ≤ 99999999 ∧ w.creditLimit ≤ 99999999 ∧ 1 ≤ w.cap ∧ w.cap ≤ 4 ∧ w.discountClass ≤ 7

/-! ## Frames -/

/-- The station and the notices are all that differs. -/
abbrev OnlyAt (n : StationId) (s t : State) : Prop :=
  (∀ m, m ≠ n → t.st m = s.st m) ∧ t = { s with stations := t.stations, notices := t.notices }

/-- A frame of a copier's record, as the copier sends it (R213, R214). -/
def CopierRecord.frame : CopierRecord → List Byte
  | .announce model classes capacity => stationFrame 0x01#8 (be2 model.toNat ++ [classes, capacity])
  | .status => stationFrame 0x02#8 []
  | .card bytes => stationFrame 0x03#8 bytes
  | .start mode originals copies duplex =>
    stationFrame 0x04#8 ([mode] ++ be2 originals.toNat ++ be2 copies.toNat ++ [duplex])
  | .imaged sheet cls sides => stationFrame 0x05#8 (be2 sheet.toNat ++ [cls, sides])
  | .exited sheet => stationFrame 0x06#8 (be2 sheet.toNat)
  | .jobEnd outcome => stationFrame 0x07#8 [outcome]
  | .jam location sheets => stationFrame 0x08#8 [location, sheets]
  | .cleared => stationFrame 0x09#8 []
  | .finish => stationFrame 0x0A#8 []
  | .meter m0 m1 m2 m3 =>
    stationFrame 0x0B#8 (be4 m0.toNat ++ be4 m1.toNat ++ be4 m2.toNat ++ be4 m3.toNat)

end Sys2Proof.Machine
end

