-- ==== Sys2Proof/Certificates/Slice0/Obligations.lean ====
section
/-! DEFINITION. The statements for the provers. A host command is stated with the frame that carries its operands at the
head of the command queue (`Executing`) and with the state it leaves behind its reply (`answered`). -/

open Sys2Proof Sys2Proof.Machine

/-! ## The step, the resets, the clock -/

/-- A step runs the command at the front of the queue, with the queue's rest. The queue of waiting commands is the
model's own (log entry 2). -/
def Obligations.StepRunsFrontCommand : Prop :=
  ∀ (c : Instr) (rest : List Instr) (s : State), s.pending = c :: rest → step s = exec c { s with pending := rest }

/-- The state right after reset, block by block, with the link rate, the twelve notice sources and the station counters. The
host link rate stands for straps that are both low (log entry 7). -/
def Obligations.ResetStateOfEveryBlock : Prop :=
  (∀ n : StationId,
    let x := State.reset.st n
    x.state = .disabled ∧ x.session = none ∧ x.job = none ∧ x.startPending = false ∧ x.descriptor = none ∧
    x.inPath = [] ∧ x.seqKnown = false ∧ x.silence = 100 ∧ x.idleTimer = none ∧ x.confirmTimer = none ∧
    x.drainTimer = none ∧ x.recoveryTimer = none ∧ x.prior = none ∧ x.serviceDue = false ∧ x.disablePending = false ∧
    x.jamDuringClose = false ∧ x.changed = true ∧ x.identity.classes = 15#4 ∧ x.slot = .free ∧
    x.tariff.active = none ∧ x.tariff.next = none ∧ x.tariff.status = .none ∧ x.audit.state = .off ∧
    x.audit.baseline = none ∧ x.audit.latest = none ∧ x.audit.meterRequest = false ∧ x.lastJam = none ∧
    x.settings.window = 8 ∧ x.settings.startMode = .panel ∧ x.settings.idleTime = 120 ∧
    x.settings.recoveryTime = 600 ∧ x.settings.confirmTime = 60 ∧ x.settings.jamLimit = 3 ∧
    x.settings.auditThreshold = 4 ∧ x.settings.probeMinutes = 5 ∧ x.settings.auditLock = false ∧ x.passage = none ∧
    x.advances = [] ∧ x.sendList = [] ∧ x.counters.sessions = 0 ∧ x.counters.jobs = 0 ∧
    x.counters.sides = Vector.replicate 4 0 ∧ x.counters.sheetsExited = 0 ∧ x.counters.jams = 0 ∧
    x.counters.sheetsCredited = 0 ∧ x.counters.overrunSides = 0 ∧ x.counters.sequenceGaps = 0 ∧
    x.counters.frameErrors = 0 ∧ x.counters.protocolFaults = 0 ∧ x.counters.unattributed = 0) ∧
  (∀ i : AccountId,
    let a := State.reset.account i
    a.state = .free ∧ a.kind = .prepaid ∧ a.balance = 0 ∧ a.creditLimit = 0 ∧ a.cap = 1 ∧ a.discountClass = 0 ∧
    a.funded = [] ∧ a.jobs = 0 ∧ a.sessions = 0 ∧ a.charge = 0 ∧ a.periodStart = 0 ∧ a.startClockSet = false ∧
    a.walk = none) ∧
  State.reset.quantum = 2000 ∧ State.reset.tablesReady = false ∧
  (∀ k : Fin 32, State.reset.rules[k].enabled = false ∧ State.reset.rules[k].action = .refuse) ∧
  State.reset.defaultAction.action = .refuse ∧ State.reset.defaultAction.discountClass = 0 ∧
  State.reset.bindings = [] ∧ State.reset.tariffs.header = none ∧ State.reset.tariffs.check = none ∧
  State.reset.tariffs.lastResult = .none ∧ State.reset.tagCounter = 1 ∧ State.reset.fetchOrder = [] ∧
  State.reset.sessionCounter = 1 ∧ State.reset.log.records = [] ∧ State.reset.log.reservations = 0 ∧
  State.reset.log.counter = 1 ∧ State.reset.log.armed = true ∧ State.reset.host.rx = .hunting ∧
  State.reset.host.queue = [] ∧ State.reset.host.replies = [] ∧ State.reset.host.run = none ∧
  State.reset.host.resetPhase = .none ∧ State.reset.host.rate = 19200 ∧ State.reset.host.crcFailures = 0 ∧
  State.reset.host.abandoned = 0 ∧ State.reset.host.discarded = 0 ∧ State.reset.host.lastReset = .cold ∧
  (∀ src, (State.reset.source src).pending = false ∧ (State.reset.source src).bitmap = 0#16) ∧
  State.reset.notices.sources.toList.map Source.level = [3, 2, 2, 2, 1, 1, 1, 1, 1, 0, 0, 0] ∧
  State.reset.notices.maskLevel = 0 ∧ State.reset.clock = 0 ∧ State.reset.clockSet = false

/-- The invariants that the steps keep hold right after reset. -/
def Obligations.ResetMeetsTheInvariants : Prop :=
  State.reset.log.sound ∧ AccountTable.wf State.reset.accounts ∧ bindingsSound State.reset.bindings ∧
  State.reset.InRange ∧ State.reset.Solvent ∧ ∀ n, (State.reset.st n).Agrees

/-- Cold reset puts every block at its cold reset values, reads the straps, and keeps the clock while the backup supply
holds. What stands on the lines is not stated (log entry 16). -/
def Obligations.ColdResetResult : Prop :=
  ∀ (strap1 strap0 lost : Bool) (s : State), ∃ t, exec (.coldReset strap1 strap0 lost) s = .next t ∧
    (∀ n, { t.st n with line := [] } = { State.reset.st n with line := [] }) ∧
    t.quantum = 2000 ∧ t.tablesReady = false ∧ t.rules = State.reset.rules ∧
    t.defaultAction = State.reset.defaultAction ∧ t.tariffs = State.reset.tariffs ∧ t.tagCounter = 1 ∧
    t.fetchOrder = [] ∧ t.sessionCounter = 1 ∧ t.bindings = [] ∧ (∀ i, t.account i = State.reset.account i) ∧
    t.log = State.reset.log ∧ t.notices = State.reset.notices ∧
    t.host.rx = .hunting ∧ t.host.run = none ∧ t.host.queue = [] ∧ t.host.replies = [] ∧ t.host.resetPhase = .none ∧
    t.host.crcFailures = 0 ∧ t.host.abandoned = 0 ∧ t.host.discarded = 0 ∧ t.host.lastReset = .cold ∧
    t.host.rate = (if strap1 then (if strap0 then 460800 else 115200) else (if strap0 then 57600 else 19200)) ∧
    t.clock = (if lost then 0 else s.clock) ∧ t.clockSet = (if lost then false else s.clockSet)

/-- The end of the table initialization gives every account its cold reset values, removes every binding and makes the
tables ready; a second of the shop clock adds one, and passes from 4,294,967,295 to 0. -/
def Obligations.TableInitializationAndClock : Prop :=
  (∀ s : State, s.tablesReady = false → ∃ t, exec .tableInitializationComplete s = .next t ∧
    (∀ i : AccountId, t.account i = State.reset.account i) ∧ t.bindings = [] ∧ t.quantum = 2000 ∧
    t = { s with accounts := t.accounts, bindings := t.bindings, quantum := t.quantum, tablesReady := true }) ∧
  (∀ s : State, s.clock < 4294967296 → exec .shopClockTick s =
    .next { s with clock := if s.clock = 4294967295 then 0 else s.clock + 1 })

/-- A warm reset whose reply has been sent: what each block keeps and what it loses, and where the stations stand. With no
card in passage, stations that agree with their states and room in the log, it says whole what becomes of them: a
station stands where R35 puts it, each request of a first card leaves a VOID and each session its SESSION record, in
some order (log entry 4), the accounts of the settled sessions take their charges and are released, and the notices are
cleared but for those that the reset itself raises. A record has the fields of its session, with the path credited and the tag
of a top-up outstanding among the voided tags; that the credited mills saturate is log entry 12's. That a station which stands already in DOWN, or in the state it is placed in, raises nothing
and commits nothing is log entry 27's. -/
def Obligations.WarmResetResult : Prop :=
  (∀ s : State, s.host.resetPhase = .replyBegun → ∃ t, exec .warmReset s = .next t ∧
    t.host.queue = [] ∧ t.host.replies = [] ∧ t.host.run = none ∧ t.host.resetPhase = .none ∧
    t.host.lastReset = .warm ∧ t.host.rx = s.host.rx ∧ t.host.rate = s.host.rate ∧
    t.host.crcFailures = s.host.crcFailures ∧ t.host.abandoned = s.host.abandoned ∧
    t.host.discarded = s.host.discarded ∧
    t.notices.maskLevel = s.notices.maskLevel ∧ (∀ src, (t.source src).level = (s.source src).level) ∧
    (∃ more, t.log.records = s.log.records ++ more) ∧ t.log.reservations = 0 ∧
    t.log.armed = decide (16 < t.log.unreserved) ∧
    t.fetchOrder = [] ∧ t.tagCounter = s.tagCounter ∧ t.tariffs.check = none ∧
    t.tariffs.header = s.tariffs.header ∧ t.tariffs.pricing = s.tariffs.pricing ∧ t.quantum = s.quantum ∧
    t.tablesReady = s.tablesReady ∧ t.rules = s.rules ∧ t.defaultAction = s.defaultAction ∧ t.bindings = s.bindings ∧
    t.clock = s.clock ∧ t.clockSet = s.clockSet ∧
    ∀ n, (t.st n).session = none ∧ (t.st n).job = none ∧ (t.st n).slot = .free ∧ (t.st n).passage = none ∧
      (t.st n).startPending = false ∧ (t.st n).serviceDue = false ∧ (t.st n).disablePending = false ∧
      (t.st n).jamDuringClose = false ∧ (t.st n).idleTimer = none ∧ (t.st n).confirmTimer = none ∧
      (t.st n).drainTimer = none ∧ (t.st n).recoveryTimer = none ∧ (t.st n).settings = (s.st n).settings ∧
      (t.st n).identity = (s.st n).identity ∧ (t.st n).silence = (s.st n).silence ∧
      ((t.st n).state = .disabled ∨ (t.st n).state = .service ∨
        ((t.st n).state = .idle ∧ (s.st n).silence < 100) ∨ ((t.st n).state = .down ∧ 100 ≤ (s.st n).silence))) ∧
  (∀ s : State, s.host.resetPhase = .replyBegun → (∀ n, (s.st n).passage = none) → (∀ n, (s.st n).Agrees) →
    AccountTable.wf s.accounts → ∃ t, exec .warmReset s = .next t ∧ t.sessionCounter = s.sessionCounter ∧
    (∀ n,
      let x := s.st n
      let y := t.st n
      y.state = (if x.state = .disabled ∨ (x.session.isSome = true ∧
            (x.disablePending = true ∨ x.session.bind Session.endReason = some .disabled)) then .disabled
        else if x.state = .service then .service
        else if 100 ≤ x.silence then .down
        else if x.settings.auditLock ∧ x.audit.state = .outOfStep then .service
        else .idle) ∧
      y.audit = x.audit ∧ y.lastSeq = x.lastSeq ∧ y.seqKnown = x.seqKnown ∧ y.lastJam = x.lastJam ∧ y.rx = x.rx ∧
      y.line = x.line ∧ y.advances = [] ∧ y.inPath = (if x.session.isSome then [] else x.inPath) ∧
      y.counters = (if x.session.isSome then { x.counters with
        sheetsCredited := min 4294967295 (x.counters.sheetsCredited + x.inPath.length) } else x.counters) ∧
      (x.session.isSome = true → x.state ≠ .closing → OutRecord.halt ∈ y.sendList) ∧
      (y.state = x.state ∨ x.tariff.next = none → y.tariff = { x.tariff with status :=
        if s.tariffs.check.isSome ∧ x.tariff.status = .inProgress then .aborted else x.tariff.status }) ∧
      (∀ tf, y.state ≠ x.state → x.tariff.next = some tf → y.tariff.active = some tf ∧ y.tariff.next = none)) ∧
    t.tariffs.lastResult = (if s.tariffs.check.isSome then .aborted else s.tariffs.lastResult) ∧
    (∀ i,
      (t.account i).walk = none ∧ (t.account i).state = (s.account i).state ∧
      (t.account i).funded = (s.account i).funded.filter (fun e =>
        decide ((s.st e.station).session.map Session.funding ≠ some (.account i))) ∧
      ((∀ n, (s.st n).session.map Session.funding ≠ some (.account i)) →
        t.account i = { s.account i with walk := none })) ∧
    (t.source .logLow).pending = decide (t.log.unreserved ≤ 16) ∧
    (∀ n, inMask (t.source .stationDown).bitmap n = decide ((t.st n).state = .down ∧ (s.st n).state ≠ .down)) ∧
    ((t.source .stationDown).pending = true ↔ ∃ n, (t.st n).state = .down ∧ (s.st n).state ≠ .down) ∧
    (∀ n, inMask (t.source .service).bitmap n = decide ((t.st n).state = .service ∧ (s.st n).state ≠ .service)) ∧
    ((t.source .service).pending = true ↔ ∃ n, (t.st n).state = .service ∧ (s.st n).state ≠ .service) ∧
    (∀ src, src ≠ .logLow → src ≠ .stationDown → src ≠ .service →
      (t.source src).pending = false ∧ (t.source src).bitmap = 0#16) ∧
    (s.log.records.length + firstRequests s + openSessions s ≤ 256 →
      ∃ (more : List LogRecord) (f : StationId → SessionRecord), t.log.records = s.log.records ++ more ∧
      (more.map LogRecord.body).Perm
        ((List.finRange 16).filterMap (fun n => match (s.st n).slot with
            | .requested _ _ req => some (.void { tag := req.tag, station := n, time := s.clock
                                                  clockSet := s.clockSet, cause := .reset })
            | _ => none) ++
          (List.finRange 16).filterMap (fun n => (s.st n).session.map (fun _ => .session (f n)))) ∧
      (∀ i, (∀ n, (s.st n).session.map Session.funding = some (.account i) →
            ∃ e ∈ (s.account i).funded, e.station = n) →
        let owed := (((List.finRange 16).filter (fun n =>
          decide ((s.st n).session.map Session.funding = some (.account i)))).map (fun n => (f n).charge)).sum
        (t.account i).balance = (s.account i).balance - owed ∧
        ((∃ n, (s.st n).session.map Session.funding = some (.account i)) →
          (t.account i).charge = min 999999999 ((s.account i).charge + owed))) ∧
      ∀ n ses, (s.st n).session = some ses → RecordOf n ses (s.st n).openTopup (f n) ∧
        Credited (s.st n).inPath ses (f n) ∧ (f n).jamCount = ses.jamCount ∧
        (f n).closeTime = s.clock ∧ (f n).closeClockSet = s.clockSet ∧
        (∀ reason, ses.endReason = some reason → (f n).endReason = reason) ∧
        (ses.endReason = none → (s.st n).state ≠ .closing → (f n).endReason = .reset) ∧
        (∀ tf, (s.st n).tariff.active = some tf → ((f n).charge, (f n).minimumApplied) =
          settlementCharge tf ses.funding.kind (f n).gross ses.discount (ses.limit.getD 0)
            (f n).sideCounts.toList.sum)))

/-! ## The host link -/

/-- A frame that arrives whole at a hunting receiver is offered to the command queue: it joins, is refused with BUSY,
or is discarded unanswered. A wrong CRC, a length above 240 and a gap within a frame count and discard it. The type of
a BUSY reply to a type that names no command is free (log entry 6). -/
def Obligations.HostReceiverJudgesFrames : Prop :=
  (∀ (s : State) (type tag : Byte) (payload : List Byte), payload.length ≤ 240 → s.host.rx = .hunting →
    exec (.hostFrameReceived (hostFrame type tag payload)) s = .next { s with host :=
      if s.host.queue.length < 4 then
        { s.host with queue := s.host.queue ++ [{ type := type, tag := tag, payload := payload }] }
      else if s.host.replies.length < 7 then
        { s.host with replies := s.host.replies ++ [{ type := replyType type, tag := tag, status := .busy, data := [] }] }
      else { s.host with discarded := min 4294967295 (s.host.discarded + 1) } }) ∧
  (∀ (s : State) (type tag high low : Byte) (payload : List Byte), payload.length ≤ 240 → s.host.rx = .hunting →
    natOf [high, low] ≠ (crc16 (be1 payload.length ++ [type, tag] ++ payload)).toNat →
    exec (.hostFrameReceived (0xA5#8 :: be1 payload.length ++ [type, tag] ++ payload ++ [high, low])) s =
      .next { s with host := { s.host with crcFailures := min 4294967295 (s.host.crcFailures + 1) } }) ∧
  (∀ (s : State) (len : Byte), 240 < len.toNat → s.host.rx = .hunting →
    exec (.hostFrameReceived [0xA5#8, len]) s =
      .next { s with host := { s.host with abandoned := min 4294967295 (s.host.abandoned + 1) } }) ∧
  (∀ (s : State) (bytes : List Byte), s.host.rx = .inFrame bytes → exec .hostFrameGapTimeout s =
    .next { s with host := { s.host with rx := .hunting, abandoned := min 4294967295 (s.host.abandoned + 1) } })

/-- The judgements before a command's own rule: a type that names no command is answered UNKNOWN_COMMAND with type 80h
and the type received, a payload of a size its code does not allow BAD_PARAMETER, a command on accounts or bindings
NOT_READY while the tables are not ready; none of them changes anything. No command executes while the reply list
holds 4 replies or a RESET has been executed, and none but the account run itself while one is executing. Which row
answers a payload that selects no form is log entry 14's, and how a run is cut log entry 17's. -/
def Obligations.HostCommandJudgements : Prop :=
  (∀ (s : State) (f : Frame) (rest : List Frame), Executing s f rest → (f.type = 0#8 ∨ 38 < f.type.toNat) →
    exec .unknownCommand s = .next { s with host := { s.host with
      queue := rest
      replies := s.host.replies ++
        [{ type := 0x80#8, tag := f.tag, status := .unknownCommand, data := [f.type] }] } }) ∧
  (∀ (s : State) (f : Frame) (rest : List Frame), Executing s f rest → isCommand f.type = true →
    sizeAllowed f.type f.payload.length = false → exec (rowOf f) s = .next (answered s rest f .badParameter [])) ∧
  (∀ (s : State) (f : Frame) (rest : List Frame), Executing s f rest → 0x13 ≤ f.type.toNat → f.type.toNat ≤ 0x1D →
    sizeAllowed f.type f.payload.length = true → s.tablesReady = false →
    exec (rowOf f) s = .next (answered s rest f .notReady [])) ∧
  (∀ (s : State) (f : Frame) (rest : List Frame), s.host.queue = f :: rest → s.host.run = none →
    (4 ≤ s.host.replies.length ∨ s.host.resetPhase ≠ .none) → exec (rowOf f) s = .next s) ∧
  (∀ (s : State) (f : Frame) (rest : List Frame), s.host.queue = f :: rest → s.host.run.isSome = true →
    f.type ≠ 0x17#8 → f.type ≠ 0x19#8 → exec (rowOf f) s = .next s)

/-- IDENTIFY, SET-TIME and RESET. IDENTIFY's reply carries the items of R193 in its order; the code of the last reset
kind is log entry 11's, and the design revision is some number from 1 to 255. -/
def Obligations.GeneralCommandResults : Prop :=
  (∃ revision : Nat, 1 ≤ revision ∧ revision ≤ 255 ∧
    ∀ (s : State) (tag : Byte) (rest : List Frame), Executing s ⟨0x01#8, tag, []⟩ rest →
      exec .identify s = .next (answered s rest ⟨0x01#8, tag, []⟩ .ok
        (be2 416 ++ be1 revision ++ be4 s.host.rate ++ be1 (if s.tablesReady then 1 else 0) ++ be4 s.clock ++
          be1 (if s.clockSet then 1 else 0) ++ be1 (if s.host.lastReset = .warm then 1 else 0) ++
          be4 s.host.crcFailures ++ be4 s.host.abandoned ++ be4 s.host.discarded))) ∧
  (∀ (s : State) (tag : Byte) (rest : List Frame) (seconds : Nat), seconds < 4294967296 →
    Executing s ⟨0x02#8, tag, be4 seconds⟩ rest →
      exec .setTime s = .next (answered { s with clock := seconds, clockSet := true } rest
        ⟨0x02#8, tag, be4 seconds⟩ .ok [])) ∧
  (∀ (s : State) (tag : Byte) (rest : List Frame), Executing s ⟨0x03#8, tag, []⟩ rest →
    exec .reset s = .next (answered { s with host := { s.host with resetPhase := .replyListed } } rest
      ⟨0x03#8, tag, []⟩ .ok []))

/-- NOTICE-CONFIG replaces the levels of sources 2 to 12 and nothing else, NOTICE-MASK the mask level, and
NOTICE-QUERY changes nothing; values out of range are answered BAD_PARAMETER. The layout of the query's reply is log
entry 11's. -/
def Obligations.NoticeCommandResults : Prop :=
  (∀ (s : State) (tag : Byte) (rest : List Frame) (levels : List Byte), levels.length = 11 →
    Executing s ⟨0x24#8, tag, levels⟩ rest →
    ((∀ l ∈ levels, l.toNat ≤ 2) → ∃ ns : Notices, exec .noticeConfig s =
        .next (answered { s with notices := ns } rest ⟨0x24#8, tag, levels⟩ .ok []) ∧
      ns.maskLevel = s.notices.maskLevel ∧
      ∀ i : Fin 12, ns.sources[i].pending = s.notices.sources[i].pending ∧
        ns.sources[i].bitmap = s.notices.sources[i].bitmap ∧
        ns.sources[i].level =
          (if i.val = 0 then s.notices.sources[i].level else (levels.getD (i.val - 1) 0#8).toNat)) ∧
    ((∃ l ∈ levels, 2 < l.toNat) → exec .noticeConfig s =
        .next (answered s rest ⟨0x24#8, tag, levels⟩ .badParameter []))) ∧
  (∀ (s : State) (tag mask : Byte) (rest : List Frame), Executing s ⟨0x25#8, tag, [mask]⟩ rest →
    exec .noticeMask s = .next
      (if mask.toNat ≤ 3 then
        answered { s with notices := { s.notices with maskLevel := mask.toNat } } rest ⟨0x25#8, tag, [mask]⟩ .ok []
      else answered s rest ⟨0x25#8, tag, [mask]⟩ .badParameter [])) ∧
  (∀ (s : State) (tag : Byte) (rest : List Frame), Executing s ⟨0x26#8, tag, []⟩ rest →
    exec .noticeQuery s = .next (answered s rest ⟨0x26#8, tag, []⟩ .ok
      (s.notices.sources.toList.flatMap (fun x => be1 (if x.pending then 1 else 0) ++ be2 x.bitmap.toNat ++ be1 x.level)
        ++ be1 s.notices.maskLevel)))

/-- The free transmitter: the oldest reply goes first, in segments of 238 data bytes, and leaves the list with its last;
with no reply, the unmasked source of the highest level and then the lowest number is sent and cleared. -/
def Obligations.TransmitterChoosesNextFrame : Prop :=
  (∀ (s : State) (r : Reply) (rest : List Reply), s.host.resetPhase = .none → s.host.replies = r :: rest →
    exec .transmitNextFrame s = .next { s with host := { s.host with
      line := hostFrame r.type r.tag (be1 r.status.code ++
        be1 (r.begun + (if 238 * (r.begun + 1) < r.data.length then 128 else 0)) ++
        (r.data.drop (238 * r.begun)).take 238)
      replies := if 238 * (r.begun + 1) < r.data.length then { r with begun := r.begun + 1 } :: rest else rest } }) ∧
  (∀ (s : State) (src : NoticeSource), s.host.resetPhase = .none → s.host.replies = [] →
    (s.source src).pending = true → (src = .logLow ∨ s.notices.maskLevel ≤ (s.source src).level) →
    (∀ other, (s.source other).pending = true → (other = .logLow ∨ s.notices.maskLevel ≤ (s.source other).level) →
      (s.source other).level < (s.source src).level ∨
        ((s.source other).level = (s.source src).level ∧ src.index ≤ other.index)) →
    exec .transmitNextFrame s = .next { s with
      host := { s.host with line := (hostFrame 0xFF#8 0#8
        (be1 (src.index.val + 1) ++ be1 (s.source src).level ++ be2 (s.source src).bitmap.toNat)) }
      notices := { s.notices with sources := (s.notices.sources.set src.index.val
        { s.source src with pending := false, bitmap := 0#16 }) } })

/-! ## Station commands -/

/-- STATION-CONFIG replaces all the settings of a station that holds no session, is answered BUSY where it holds one, and
BAD_PARAMETER for a station above 15 or a setting out of range. -/
def Obligations.StationConfigResult : Prop :=
  (∀ (s : State) (tag : Byte) (rest : List Frame) (n : StationId) (c : Settings),
    let p := be1 n.val ++ be1 c.window ++ be1 c.startMode.code ++ be2 c.idleTime ++ be2 c.recoveryTime ++
      be2 c.confirmTime ++ be1 c.jamLimit ++ be1 c.auditThreshold ++ be1 c.probeMinutes ++
      be1 (if c.auditLock then 1 else 0)
    Executing s ⟨0x04#8, tag, p⟩ rest → c.InRange →
    exec .stationConfig s = .next
      (if (s.st n).state = .authorizing ∨ (s.st n).session.isSome then answered s rest ⟨0x04#8, tag, p⟩ .busy []
      else answered (s.modSt n (fun x => { x with settings := c })) rest ⟨0x04#8, tag, p⟩ .ok [])) ∧
  (∀ (s : State) (tag : Byte) (rest : List Frame) (p : List Byte), Executing s ⟨0x04#8, tag, p⟩ rest → p.length = 13 →
    (15 < fieldAt p 0 1 ∨ fieldAt p 1 1 < 2 ∨ 16 < fieldAt p 1 1 ∨ 1 < fieldAt p 2 1 ∨ fieldAt p 3 2 < 30 ∨
      900 < fieldAt p 3 2 ∨ fieldAt p 5 2 < 60 ∨ 1800 < fieldAt p 5 2 ∨ fieldAt p 7 2 < 10 ∨ 300 < fieldAt p 7 2 ∨
      fieldAt p 9 1 < 1 ∨ 9 < fieldAt p 9 1 ∨ (fieldAt p 11 1 ≠ 1 ∧ fieldAt p 11 1 ≠ 5)) →
    exec .stationConfig s = .next (answered s rest ⟨0x04#8, tag, p⟩ .badParameter []))

/-- STATION-ENABLE: each station of the mask in DISABLED or SERVICE takes the entry to IDLE or enters DOWN, its
service-due flag cleared; every other station, and everything but the stations and the notices, is unchanged. -/
def Obligations.StationEnableResult : Prop :=
  ∀ (s : State) (tag : Byte) (rest : List Frame) (mask : Mask), Executing s ⟨0x05#8, tag, be2 mask.toNat⟩ rest →
    ∃ t, exec .stationEnable s = .next (answered t rest ⟨0x05#8, tag, be2 mask.toNat⟩ .ok []) ∧
      t = { s with stations := t.stations, notices := t.notices } ∧
      ∀ n : StationId,
        if inMask mask n = true ∧ ((s.st n).state = .disabled ∨ (s.st n).state = .service) then
          (t.st n).serviceDue = false ∧
          (t.st n).state = (if 100 ≤ (s.st n).silence then .down
            else ({ s.st n with serviceDue := false } : Station).idleEntry)
        else t.st n = s.st n

/-- STATION-DISABLE, for stations with no card in passage: a station outside the mask is unchanged, and one in the
mask is handled by its state; a session with no sheet in the path settles at once: the log takes its record and its account
the charge. A top-up outstanding is taken back, its tag voided. The order of the stations is free (log entry 4). -/
def Obligations.StationDisableResult : Prop :=
  ∀ (s : State) (tag : Byte) (rest : List Frame) (mask : Mask), Executing s ⟨0x06#8, tag, be2 mask.toNat⟩ rest →
    (∀ n, (s.st n).passage = none) → (∀ n, (s.st n).session.isSome = (s.st n).state.hasSession) →
    ∃ t, exec .stationDisable s = .next (answered t rest ⟨0x06#8, tag, be2 mask.toNat⟩ .ok []) ∧
      ∀ n : StationId,
        (inMask mask n = false ∨ (s.st n).state = .disabled → t.st n = s.st n) ∧
        (inMask mask n = true →
          ((s.st n).state = .down ∨ (s.st n).state = .idle ∨ (s.st n).state = .service ∨
              (s.st n).state = .jammedFree ∨ (s.st n).state = .authorizing →
            (t.st n).state = .disabled ∧ (t.st n).slot = (s.st n).slot) ∧
          ((s.st n).state = .closing → t.st n = { s.st n with disablePending := true }) ∧
          ((s.st n).session.isSome = true ∧ (s.st n).state ≠ .closing ∧ (s.st n).mayClose →
            ClosingBegun .disabled n s t) ∧
          (∀ ses, (s.st n).closesAtOnce ses → s.log.records.length + openSessions s ≤ 256 →
            ∃ (k : Nat) (r : SessionRecord),
            { number := k, body := .session r } ∈ t.log.records.drop s.log.records.length ∧
            ClosedAtOnce .disabled n ses (s.st n) s t r))

/-- STATION-QUERY and STATION-LIST: the query changes nothing and answers BAD_PARAMETER above 15; the list reports the
sixteen state codes and the changed bitmap, and clears the sixteen changed flags and nothing else. The layouts of the
two replies are log entry 11's. -/
def Obligations.StationReports : Prop :=
  (∀ (s : State) (tag byte : Byte) (rest : List Frame), Executing s ⟨0x07#8, tag, [byte]⟩ rest →
    (∀ n : StationId, n.val = byte.toNat → exec .stationQuery s =
      .next (answered s rest ⟨0x07#8, tag, [byte]⟩ .ok (stationQueryData (s.st n)))) ∧
    (15 < byte.toNat → exec .stationQuery s = .next (answered s rest ⟨0x07#8, tag, [byte]⟩ .badParameter []))) ∧
  (∀ (s : State) (tag : Byte) (rest : List Frame), Executing s ⟨0x08#8, tag, []⟩ rest →
    ∃ (t : State) (bitmap : Mask), exec .stationList s = .next (answered t rest ⟨0x08#8, tag, []⟩ .ok
        (s.stations.toList.map (fun x => BitVec.ofNat 8 x.state.code) ++ be2 bitmap.toNat)) ∧
      (∀ n, inMask bitmap n = (s.st n).changed) ∧ t = { s with stations := t.stations } ∧
      ∀ n, t.st n = { s.st n with changed := false })

/-- START-CONFIRM, START-DENY and CANCEL-START: BAD_PARAMETER for a station above 15, and NOT_PENDING at a station not in
CONFIRMING, with nothing changed; in
CONFIRMING a deny or a cancel returns the station to OPEN without its pending start, and a confirm makes a job of it and
consults its mode for the first grant. -/
def Obligations.AttendedStartResults : Prop :=
  (∀ (s : State) (tag : Byte) (rest : List Frame) (n : StationId), (s.st n).state ≠ .confirming →
    (Executing s ⟨0x09#8, tag, be1 n.val⟩ rest → exec .startConfirm s =
      .next (answered s rest ⟨0x09#8, tag, be1 n.val⟩ .notPending [])) ∧
    (Executing s ⟨0x0A#8, tag, be1 n.val⟩ rest → exec .startDeny s =
      .next (answered s rest ⟨0x0A#8, tag, be1 n.val⟩ .notPending [])) ∧
    (Executing s ⟨0x0B#8, tag, be1 n.val⟩ rest → exec .cancelStart s =
      .next (answered s rest ⟨0x0B#8, tag, be1 n.val⟩ .notPending []))) ∧
  (∀ (s : State) (tag byte : Byte) (rest : List Frame), 15 < byte.toNat →
    (Executing s ⟨0x09#8, tag, [byte]⟩ rest → exec .startConfirm s =
      .next (answered s rest ⟨0x09#8, tag, [byte]⟩ .badParameter [])) ∧
    (Executing s ⟨0x0A#8, tag, [byte]⟩ rest → exec .startDeny s =
      .next (answered s rest ⟨0x0A#8, tag, [byte]⟩ .badParameter [])) ∧
    (Executing s ⟨0x0B#8, tag, [byte]⟩ rest → exec .cancelStart s =
      .next (answered s rest ⟨0x0B#8, tag, [byte]⟩ .badParameter []))) ∧
  (∀ (s : State) (tag : Byte) (rest : List Frame) (n : StationId), (s.st n).state = .confirming →
    (Executing s ⟨0x0A#8, tag, be1 n.val⟩ rest → ∃ t,
      exec .startDeny s = .next (answered t rest ⟨0x0A#8, tag, be1 n.val⟩ .ok []) ∧ OnlyAt n s t ∧
      (t.st n).state = .opened ∧ (t.st n).startPending = false ∧ (t.st n).descriptor = none ∧
      (t.st n).confirmTimer = none ∧ (t.st n).idleTimer = some (s.st n).settings.idleTime ∧
      (t.st n).session = (s.st n).session ∧
      (t.st n).sendList.getLast? = some (.panel false (s.st n).remaining (some .refused))) ∧
    (Executing s ⟨0x0B#8, tag, be1 n.val⟩ rest → ∃ t,
      exec .cancelStart s = .next (answered t rest ⟨0x0B#8, tag, be1 n.val⟩ .ok []) ∧ OnlyAt n s t ∧
      (t.st n).state = .opened ∧ (t.st n).startPending = false ∧ (t.st n).descriptor = none ∧
      (t.st n).confirmTimer = none ∧ (t.st n).idleTimer = some (s.st n).settings.idleTime ∧
      (t.st n).session = (s.st n).session ∧
      (t.st n).sendList.getLast? = some (.panel false (s.st n).remaining none)) ∧
    (Executing s ⟨0x09#8, tag, be1 n.val⟩ rest → ∀ d ses, (s.st n).descriptor = some d →
      (s.st n).session = some ses → ∃ t,
      exec .startConfirm s = .next (answered t rest ⟨0x09#8, tag, be1 n.val⟩ .ok []) ∧
      (∀ m, m ≠ n → t.st m = s.st m) ∧ ((t.st n).state = .running ∨ (t.st n).state = .starved) ∧
      (t.st n).startPending = false ∧ (t.st n).descriptor = none ∧ (t.st n).confirmTimer = none ∧
      (t.st n).job.map (fun j => (j.originals, j.copies, j.duplex, j.reprint)) =
        some (d.originals, d.copies, d.duplex, 0) ∧
      (t.st n).session.map Session.jobs = some (min 4294967295 (ses.jobs + 1)) ∧
      (t.st n).counters.jobs = min 4294967295 ((s.st n).counters.jobs + 1) ∧
      (t.st n).job.map (fun j => (j.mode, j.setSides)) =
        some (if d.runsAsSet then (.set, d.setSides) else (if d.mode = .set then .run else d.mode, 0)) ∧
      (1 ≤ d.copies → ∃ g, Consulted .running d.runsAsSet (d.startRequest (s.st n).settings.window) n ses 0
        (if d.runsAsSet then d.copies else 0) s t g)))

/-- The causes that start closing by a command, a record and a timer: END-SESSION, FINISH and the idle timer's expiry. With
sheets in the path the drain begins, and with none the session settles at once: the log takes its record and its account the
charge. A top-up outstanding is taken back, its tag last on the voided tags. END-SESSION at a station in CLOSING or
without a session record is answered WRONG_STATE, and for a station above 15 BAD_PARAMETER. -/
def Obligations.ClosingStartsOnItsCauses : Prop :=
  (∀ (s : State) (tag : Byte) (rest : List Frame) (n : StationId), Executing s ⟨0x0C#8, tag, be1 n.val⟩ rest →
    ((s.st n).session = none ∨ (s.st n).state = .closing → exec .endSession s =
      .next (answered s rest ⟨0x0C#8, tag, be1 n.val⟩ .wrongState [])) ∧
    ((s.st n).mayClose → (s.st n).state ≠ .closing → ∃ t,
      exec .endSession s = .next (answered t rest ⟨0x0C#8, tag, be1 n.val⟩ .ok []) ∧
      ClosingBegun .hostEnd n s t ∧ (∀ m, m ≠ n → t.st m = s.st m) ∧ t.log = s.log ∧
      t.accounts = s.accounts) ∧
    (∀ ses, (s.st n).closesAtOnce ses → s.log.records.length < 256 → ∃ (t : State) (r : SessionRecord),
      exec .endSession s = .next (answered t rest ⟨0x0C#8, tag, be1 n.val⟩ .ok []) ∧ TakesRecord s t r ∧
      ClosedAtOnce .hostEnd n ses (s.st n) s t r ∧ (∀ m, m ≠ n → t.st m = s.st m))) ∧
  (∀ (s : State) (tag byte : Byte) (rest : List Frame), Executing s ⟨0x0C#8, tag, [byte]⟩ rest → 15 < byte.toNat →
    exec .endSession s = .next (answered s rest ⟨0x0C#8, tag, [byte]⟩ .badParameter [])) ∧
  (∀ (s : State) (n : StationId), (s.st n).passage = none →
    ((s.st n).state = .opened ∨ (s.st n).state = .confirming ∨ (s.st n).state = .running ∨
      (s.st n).state = .starved ∨ (s.st n).state = .jammedSession) →
    ((s.st n).mayClose → ∃ t, exec (.finish n) s = .next t ∧
      ClosingBegun .finished n s t ∧ (t.st n).silence = 0 ∧ (∀ m, m ≠ n → t.st m = s.st m) ∧
      t.log = s.log ∧ t.accounts = s.accounts) ∧
    (∀ ses, (s.st n).closesAtOnce ses → s.log.records.length < 256 → ∃ (t : State) (r : SessionRecord),
      exec (.finish n) s = .next t ∧ TakesRecord s t r ∧
      ClosedAtOnce .finished n ses { s.st n with silence := 0 } s t r ∧ (t.st n).silence = 0 ∧
      (∀ m, m ≠ n → t.st m = s.st m))) ∧
  (∀ (s : State) (n : StationId), (s.st n).idleTimer.isSome = true →
    ((s.st n).state = .opened ∨ (s.st n).state = .starved) →
    ((s.st n).mayClose → ∃ t, exec (.idleTimerExpiry n) s = .next t ∧
      ClosingBegun .idleTimeout n s t ∧ (∀ m, m ≠ n → t.st m = s.st m) ∧ t.log = s.log ∧
      t.accounts = s.accounts) ∧
    (∀ ses, (s.st n).closesAtOnce ses → s.log.records.length < 256 → ∃ (t : State) (r : SessionRecord),
      exec (.idleTimerExpiry n) s = .next t ∧ TakesRecord s t r ∧
      ClosedAtOnce .idleTimeout n ses (s.st n) s t r ∧ (∀ m, m ≠ n → t.st m = s.st m)))

/-- The ends of a drain, each of which settles the session with the end reason it carries: the drain timer's expiry and an
ANNOUNCE credit what is left in the path, a JAM credits it, counts and sends the station to JAMMED, and an EXITED record
that empties the path credits nothing; one that leaves a sheet there leaves the station in CLOSING. The log then holds one
SESSION record more, with the fields of its session after the credit, the account has taken the charge, and the station is
in the state of R28's table. That the credited mills saturate is log entry 12's; that a full log takes no record is log entry 9's,
and a log that keeps R168 is never full there. -/
def Obligations.DrainExpirySettles : Prop :=
  (∀ (s : State) (n : StationId) (ses : Session) (reason : EndReason), (s.st n).state = .closing →
    (s.st n).drainTimer.isSome = true → (s.st n).session = some ses → ses.endReason = some reason →
    s.log.records.length < 256 → ∃ (t : State) (r : SessionRecord), exec (.drainTimerExpiry n) s = .next t ∧
      TakesRecord s t r ∧ Settled reason n ses (s.st n) s t r ∧ Credited (s.st n).inPath ses r ∧
      r.jamCount = ses.jamCount ∧
      (∀ m, m ≠ n → t.st m = s.st m)) ∧
  (∀ (s : State) (n : StationId) (ses : Session) (reason : EndReason), (s.st n).state = .closing →
    (s.st n).passage = none → (s.st n).session = some ses → ses.endReason = some reason →
    s.log.records.length < 256 →
    (∀ sheet : BitVec 16, (s.st n).job = none → (s.st n).inPath ≠ [] →
      ((∀ e ∈ (s.st n).inPath, atOrBefore e.number sheet.toNat = true) → ∃ (t : State) (r : SessionRecord),
        exec (.exited n sheet) s = .next t ∧ TakesRecord s t r ∧
        Settled reason n ses { s.st n with silence := 0 } s t r ∧ Uncredited ses r ∧ r.jamCount = ses.jamCount ∧
        r.sheetsExited = min 4294967295 (ses.sheetsExited + (s.st n).inPath.length) ∧
        (∀ m, m ≠ n → t.st m = s.st m)) ∧
      ((∃ e ∈ (s.st n).inPath, atOrBefore e.number sheet.toNat = false) → ∃ t, exec (.exited n sheet) s = .next t ∧
        t = { s with stations := t.stations } ∧ (∀ m, m ≠ n → t.st m = s.st m) ∧ (t.st n).state = .closing ∧
        (t.st n).inPath = (s.st n).inPath.dropWhile (fun e => atOrBefore e.number sheet.toNat) ∧
        (t.st n).drainTimer = (s.st n).drainTimer ∧ (t.st n).session.map Session.endReason = some (some reason) ∧
        (t.st n).session.map Session.gross = some ses.gross)) ∧
    (∀ location sheets : Byte, ∃ (t : State) (r : SessionRecord), exec (.jam n location sheets) s = .next t ∧
      TakesRecord s t r ∧ Settled reason n ses { s.st n with silence := 0, jamDuringClose := true } s t r ∧
      r.jamCount = min 255 (ses.jamCount + 1) ∧ Credited (s.st n).inPath ses r ∧
      (t.st n).jamDuringClose = false ∧ (t.st n).lastJam.map JamReport.location = some location.toNat ∧
      (t.st n).counters.jams = min 4294967295 ((s.st n).counters.jams + 1) ∧
      (t.source .jam).pending = true ∧ inMask (t.source .jam).bitmap n = true ∧ (∀ m, m ≠ n → t.st m = s.st m)) ∧
    (∀ (model : BitVec 16) (classes capacity : Byte), (s.st n).inPath ≠ [] → ∃ (t : State) (r : SessionRecord),
      exec (.announce n model classes capacity) s = .next t ∧ TakesRecord s t r ∧
      Settled reason n ses { s.st n with silence := 0 } s t r ∧ Credited (s.st n).inPath ses r ∧
      r.jamCount = ses.jamCount ∧
      (t.st n).seqKnown = false ∧ (t.st n).identity = { model := some model.toNat
                                                        classes := BitVec.ofNat 4 classes.toNat
                                                        capacity := some capacity.toNat } ∧
      (∀ m, m ≠ n → t.st m = s.st m)))

/-! ## Tariffs -/

/-- STAGE-TARIFF replaces the named section, BUSY while the checker runs, BAD_PARAMETER for a selector that is none of the
five or does not match its section, and for a tier count or basis out of range. -/
def Obligations.StageTariffResult : Prop :=
  (∀ (s : State) (tag : Byte) (rest : List Frame) (p : List Byte), Executing s ⟨0x0D#8, tag, p⟩ rest →
    (p.length = 14 ∨ p.length = 17) →
    (s.tariffs.check.isSome = true → exec .stageTariff s = .next (answered s rest ⟨0x0D#8, tag, p⟩ .busy [])) ∧
    (s.tariffs.check = none → (4 < fieldAt p 0 1 ∨ (fieldAt p 0 1 = 4 ∧ p.length = 17) ∨
      (fieldAt p 0 1 < 4 ∧ (p.length = 14 ∨ fieldAt p 1 1 = 0 ∨ 4 < fieldAt p 1 1 ∨ 1 < fieldAt p 16 1))) →
      exec .stageTariff s = .next (answered s rest ⟨0x0D#8, tag, p⟩ .badParameter []))) ∧
  (∀ (s : State) (tag : Byte) (rest : List Frame) (h : Header),
    let p := be1 4 ++ be2 h.stamp ++ be1 h.duplex ++ be2 h.minimum ++ h.discounts.toList.flatMap be1
    Executing s ⟨0x0D#8, tag, p⟩ rest → s.tariffs.check = none → h.stamp < 65536 → h.duplex < 256 →
    h.minimum < 65536 → (∀ d ∈ h.discounts.toList, d < 256) → exec .stageTariff s =
      .next (answered { s with tariffs := { s.tariffs with header := some h } } rest ⟨0x0D#8, tag, p⟩ .ok [])) ∧
  (∀ (s : State) (tag : Byte) (rest : List Frame) (c : ClassId) (q : Pricing),
    let p := be1 c.val ++ be1 q.tiers ++ q.breaks.toList.flatMap be2 ++ q.prices.toList.flatMap be2 ++
      be1 q.basis.code
    Executing s ⟨0x0D#8, tag, p⟩ rest → s.tariffs.check = none → 1 ≤ q.tiers → q.tiers ≤ 4 →
    (∀ b ∈ q.breaks.toList, b < 65536) → (∀ x ∈ q.prices.toList, x < 65536) → exec .stageTariff s =
      .next (answered { s with tariffs := { s.tariffs with pricing := s.tariffs.pricing.set c.val (some q) } } rest
        ⟨0x0D#8, tag, p⟩ .ok []))

/-- TARIFF-APPLY marks the selected stations and starts the checker, and the check's completion gives each selected
station the outcome of R81 or R82 and raises TARIFF for them. The checker's judgement is R80's: the first of its eight tests
that fails, or the tariff with the largest P0 as its ceiling. No card is in passage at a selected station. What a
completion does to a card in passage is log entry 20's. -/
def Obligations.TariffApplyAndCompletion : Prop :=
  (∀ (s : State) (tag timing : Byte) (rest : List Frame) (mask : Mask),
    Executing s ⟨0x0E#8, tag, be2 mask.toNat ++ [timing]⟩ rest →
    (s.tariffs.check.isSome = true → exec .tariffApply s =
      .next (answered s rest ⟨0x0E#8, tag, be2 mask.toNat ++ [timing]⟩ .busy [])) ∧
    (s.tariffs.check = none → (1 < timing.toNat ∨ mask = 0#16) → exec .tariffApply s =
      .next (answered s rest ⟨0x0E#8, tag, be2 mask.toNat ++ [timing]⟩ .badParameter [])) ∧
    (s.tariffs.check = none → timing.toNat ≤ 1 → mask ≠ 0#16 → ∃ t, exec .tariffApply s =
        .next (answered t rest ⟨0x0E#8, tag, be2 mask.toNat ++ [timing]⟩ .accepted []) ∧
      t = { s with stations := t.stations, tariffs := { s.tariffs with
        check := some (mask, if timing = 0#8 then .atIdle else .now) } } ∧
      ∀ n, t.st n = (if inMask mask n then
        { s.st n with tariff := { (s.st n).tariff with status := .inProgress } } else s.st n))) ∧
  (∀ (s : State) (mask : Mask) (timing : Timing), s.tariffs.check = some (mask, timing) →
    (∀ n, (s.st n).passage = none) → ∃ t, exec .tariffCheckCompletion s = .next t ∧
      t.tariffs.check = none ∧ t.tariffs.header = s.tariffs.header ∧ t.tariffs.pricing = s.tariffs.pricing ∧
      (t.source .tariff).pending = true ∧ (t.source .tariff).bitmap = (s.source .tariff).bitmap ||| mask ∧
      t.accounts = s.accounts ∧ t.log = s.log ∧
      (∀ n, inMask mask n = false → t.st n = s.st n) ∧
      (∀ r, judgeStaged s.tariffs = .error r → t.tariffs.lastResult = r ∧ ∀ n, inMask mask n = true →
        t.st n = { s.st n with tariff := { (s.st n).tariff with status := .rejectedInvalid } }) ∧
      (∀ tf, judgeStaged s.tariffs = .ok tf → t.tariffs.lastResult = .passed ∧ ∀ n, inMask mask n = true →
        t.st n = { s.st n with tariff :=
          if (s.st n).state = .authorizing ∨ (s.st n).session.isSome then
            (if timing = .now then { (s.st n).tariff with status := .rejectedBusy }
            else { (s.st n).tariff with next := some tf, status := .pending })
          else { active := some tf, next := none, status := .applied } })) ∧
  (∀ ts : TariffStore, (ts.header = none → judgeStaged ts = .error (.sectionEmpty .header)) ∧
    (∀ c : ClassId, ts.header.isSome = true → ts.pricing[c] = none →
      (∀ d : ClassId, d < c → ts.pricing[d].isSome = true) →
      judgeStaged ts = .error (.sectionEmpty (.pricing c))) ∧
    ∀ (h : Header) (q : PerClass Pricing), ts.header = some h → (∀ c : ClassId, ts.pricing[c] = some q[c]) →
      (h.stamp = 0 → judgeStaged ts = .error .badStamp) ∧
      (h.stamp ≠ 0 → 100 < h.duplex → judgeStaged ts = .error .badDuplex) ∧
      (h.stamp ≠ 0 → h.duplex ≤ 100 → 2000 < h.minimum → judgeStaged ts = .error .badMinimum) ∧
      (h.stamp ≠ 0 → h.duplex ≤ 100 → h.minimum ≤ 2000 → (∃ d ∈ h.discounts.toList, 50 < d) →
        judgeStaged ts = .error .badDiscount) ∧
      (h.stamp ≠ 0 → h.duplex ≤ 100 → h.minimum ≤ 2000 → (∀ d ∈ h.discounts.toList, d ≤ 50) →
        (∀ c : ClassId, q[c].BadBreaks → (∀ d : ClassId, d < c → ¬ q[d].BadBreaks) →
          judgeStaged ts = .error (.badBreakpoints c)) ∧
        ((∀ c : ClassId, ¬ q[c].BadBreaks) →
          (∀ c : ClassId, q[c].BadPrices → (∀ d : ClassId, d < c → ¬ q[d].BadPrices) →
            judgeStaged ts = .error (.badPrices c)) ∧
          ((∀ c : ClassId, ¬ q[c].BadPrices) →
            ((∀ c : ClassId, q[c].prices[0] = 0) → judgeStaged ts = .error .noPrice) ∧
            ((∃ c : ClassId, 0 < q[c].prices[0]) → ∃ ceiling : Nat,
              judgeStaged ts = .ok { header := h, pricing := q, ceiling := ceiling } ∧
              (∃ c : ClassId, q[c].prices[0] = ceiling) ∧ ∀ c : ClassId, q[c].prices[0] ≤ ceiling)))))

/-- The four targets of TARIFF-QUERY change nothing; ACTIVE and NEXT with a station above 15, and a target beyond the
four, are answered BAD_PARAMETER. The layouts of STATUS and STAGED are log entry 11's. -/
def Obligations.TariffQueryResults : Prop :=
  ∀ (s : State) (tag station : Byte) (rest : List Frame),
    (Executing s ⟨0x0F#8, tag, [0x00#8, station]⟩ rest → exec .tariffQueryStatus s =
      .next (answered s rest ⟨0x0F#8, tag, [0x00#8, station]⟩ .ok (tariffStatusData s))) ∧
    (Executing s ⟨0x0F#8, tag, [0x01#8, station]⟩ rest → exec .tariffQueryStaged s =
      .next (answered s rest ⟨0x0F#8, tag, [0x01#8, station]⟩ .ok (tariffStagedData s))) ∧
    (Executing s ⟨0x0F#8, tag, [0x02#8, station]⟩ rest →
      (∀ n : StationId, n.val = station.toNat → exec .tariffQueryActive s =
        .next (answered s rest ⟨0x0F#8, tag, [0x02#8, station]⟩ .ok (beTariff (s.st n).tariff.active))) ∧
      (15 < station.toNat → exec .tariffQueryActive s =
        .next (answered s rest ⟨0x0F#8, tag, [0x02#8, station]⟩ .badParameter []))) ∧
    (Executing s ⟨0x0F#8, tag, [0x03#8, station]⟩ rest →
      (∀ n : StationId, n.val = station.toNat → exec .tariffQueryNext s =
        .next (answered s rest ⟨0x0F#8, tag, [0x03#8, station]⟩ .ok (beTariff (s.st n).tariff.next))) ∧
      (15 < station.toNat → exec .tariffQueryNext s =
        .next (answered s rest ⟨0x0F#8, tag, [0x03#8, station]⟩ .badParameter []))) ∧
    (∀ target : Byte, 3 < target.toNat → Executing s ⟨0x0F#8, tag, [target, station]⟩ rest →
      exec .tariffQueryStatus s = .next (answered s rest ⟨0x0F#8, tag, [target, station]⟩ .badParameter []))

/-- A commit, asked by a station in IDLE, DOWN, DISABLED or SERVICE: its next tariff becomes the active one, TARIFF is
raised for it, and its apply status becomes APPLIED unless it is IN_PROGRESS or ABORTED. Without a next tariff nothing
changes. -/
def Obligations.CommitResult : Prop :=
  ∀ (s : State) (n : StationId), ((s.st n).state = .idle ∨ (s.st n).state = .down ∨ (s.st n).state = .disabled ∨
      (s.st n).state = .service) →
    ((s.st n).tariff.next = none → exec (.commit n) s = .next s) ∧
    (∀ tf, (s.st n).tariff.next = some tf → ∃ t, exec (.commit n) s = .next t ∧ OnlyAt n s t ∧
      t.st n = { s.st n with tariff := { active := some tf, next := none, status :=
        if (s.st n).tariff.status = .inProgress then .inProgress
        else if (s.st n).tariff.status = .aborted then .aborted else .applied } } ∧
      (t.source .tariff).pending = true ∧ inMask (t.source .tariff).bitmap n = true)

/-! ## Cards -/

/-- RULE-WRITE replaces one rule whole, RULE-READ returns a rule with the default action, DEFAULT-ACTION replaces the
default action; each answers BAD_PARAMETER out of its ranges and then changes nothing. The bytes that a read gives
beyond a pattern are log entry 11's. -/
def Obligations.CardRuleCommandResults : Prop :=
  (∀ (s : State) (tag : Byte) (rest : List Frame) (k : Fin 32) (r : Rule),
    Executing s ⟨0x10#8, tag, beRule k.val r⟩ rest → (r.length = 0 ∨ (8 ≤ r.length ∧ r.length ≤ 19)) → r.offset ≤ 18 →
    1 ≤ r.pattern.length → r.pattern.length ≤ 8 → (∀ d, PatternDigit.digit d ∈ r.pattern → d ≤ 9) →
    r.discountClass ≤ 7 → r.offset + r.pattern.length ≤ 19 →
    (r.length ≠ 0 → r.offset + r.pattern.length ≤ r.length) → exec .ruleWrite s =
      .next (answered { s with rules := s.rules.set k.val r } rest ⟨0x10#8, tag, beRule k.val r⟩ .ok [])) ∧
  (∀ (s : State) (tag : Byte) (rest : List Frame) (p : List Byte), Executing s ⟨0x10#8, tag, p⟩ rest → p.length = 15 →
    (31 < fieldAt p 0 1 ∨ 1 < fieldAt p 1 1 ∨ (fieldAt p 2 1 ≠ 0 ∧ (fieldAt p 2 1 < 8 ∨ 19 < fieldAt p 2 1)) ∨
      18 < fieldAt p 3 1 ∨ fieldAt p 4 1 = 0 ∨ 8 < fieldAt p 4 1 ∨ 3 < fieldAt p 13 1 ∨ 7 < fieldAt p 14 1 ∨
      19 < fieldAt p 3 1 + fieldAt p 4 1 ∨
      (fieldAt p 2 1 ≠ 0 ∧ fieldAt p 2 1 < fieldAt p 3 1 + fieldAt p 4 1) ∨
      (∃ k, k < fieldAt p 4 1 ∧ 9 < fieldAt p (5 + k) 1 ∧ fieldAt p (5 + k) 1 ≠ 15)) →
    exec .ruleWrite s = .next (answered s rest ⟨0x10#8, tag, p⟩ .badParameter [])) ∧
  (∀ (s : State) (tag : Byte) (rest : List Frame) (k : Fin 32), Executing s ⟨0x11#8, tag, be1 k.val⟩ rest →
    exec .ruleRead s = .next (answered s rest ⟨0x11#8, tag, be1 k.val⟩ .ok
      (beRule k.val s.rules[k] ++ be1 s.defaultAction.action.code ++ be1 s.defaultAction.discountClass))) ∧
  (∀ (s : State) (tag number : Byte) (rest : List Frame), Executing s ⟨0x11#8, tag, [number]⟩ rest →
    31 < number.toNat → exec .ruleRead s = .next (answered s rest ⟨0x11#8, tag, [number]⟩ .badParameter [])) ∧
  (∀ (s : State) (tag action cls : Byte) (rest : List Frame), Executing s ⟨0x12#8, tag, [action, cls]⟩ rest →
    (3 < action.toNat ∨ 7 < cls.toNat) → exec .defaultAction s =
      .next (answered s rest ⟨0x12#8, tag, [action, cls]⟩ .badParameter [])) ∧
  (∀ (s : State) (tag : Byte) (rest : List Frame) (o : CardOutcome),
    Executing s ⟨0x12#8, tag, be1 o.action.code ++ be1 o.discountClass⟩ rest → o.discountClass ≤ 7 →
    exec .defaultAction s = .next (answered { s with defaultAction := o } rest
      ⟨0x12#8, tag, be1 o.action.code ++ be1 o.discountClass⟩ .ok []))

/-- BIND-CARD inserts a VALID binding, UNBIND-CARD removes the card's; DUPLICATE, TABLE_FULL and NOT_FOUND change
nothing. BINDING-QUERY changes nothing: BY_CARD returns the card's binding with its position, BY_POSITION the bindings
from a position on, each with the binding count. A field that is no card ID, an account above 2,047, a position above
4,095 and a count outside 1 to 8 are answered BAD_PARAMETER. The layouts of the query's replies are log entry 11's. -/
def Obligations.BindingCommandResults : Prop :=
  (∀ (s : State) (tag : Byte) (rest : List Frame) (card : CardId) (i : AccountId), CardId.wf card = true →
    s.tablesReady = true → Executing s ⟨0x13#8, tag, beCardId card ++ be2 i.val⟩ rest →
    ((∃ b ∈ s.bindings, b.card = card) → exec .bindCard s =
      .next (answered s rest ⟨0x13#8, tag, beCardId card ++ be2 i.val⟩ .duplicate [])) ∧
    ((∀ b ∈ s.bindings, b.card ≠ card) → 4096 ≤ s.bindings.length → exec .bindCard s =
      .next (answered s rest ⟨0x13#8, tag, beCardId card ++ be2 i.val⟩ .tableFull [])) ∧
    ((∀ b ∈ s.bindings, b.card ≠ card) → s.bindings.length < 4096 → ∃ l : List Binding, exec .bindCard s =
      .next (answered { s with bindings := l } rest ⟨0x13#8, tag, beCardId card ++ be2 i.val⟩ .ok []) ∧
      l.Perm ({ card := card, account := i, lost := false } :: s.bindings))) ∧
  (∀ (s : State) (tag : Byte) (rest : List Frame) (card : CardId), CardId.wf card = true → s.tablesReady = true →
    Executing s ⟨0x14#8, tag, beCardId card⟩ rest →
    ((∀ b ∈ s.bindings, b.card ≠ card) → exec .unbindCard s =
      .next (answered s rest ⟨0x14#8, tag, beCardId card⟩ .notFound [])) ∧
    ((∃ b ∈ s.bindings, b.card = card) → exec .unbindCard s =
      .next (answered { s with bindings := s.bindings.filter (fun b => decide (b.card ≠ card)) } rest
        ⟨0x14#8, tag, beCardId card⟩ .ok []))) ∧
  (∀ (s : State) (tag : Byte) (rest : List Frame) (bytes index : List Byte), bytes.length = 11 → index.length = 2 →
    s.tablesReady = true → cardIdOf bytes = none ∨ 2047 < natOf index →
    (Executing s ⟨0x13#8, tag, bytes ++ index⟩ rest → exec .bindCard s =
      .next (answered s rest ⟨0x13#8, tag, bytes ++ index⟩ .badParameter [])) ∧
    (cardIdOf bytes = none → Executing s ⟨0x14#8, tag, bytes⟩ rest → exec .unbindCard s =
      .next (answered s rest ⟨0x14#8, tag, bytes⟩ .badParameter [])) ∧
    (cardIdOf bytes = none → Executing s ⟨0x16#8, tag, be1 0 ++ bytes⟩ rest → exec .bindingQueryByCard s =
      .next (answered s rest ⟨0x16#8, tag, be1 0 ++ bytes⟩ .badParameter []))) ∧
  (∀ (s : State) (tag : Byte) (rest : List Frame) (card : CardId), CardId.wf card = true → s.tablesReady = true →
    Executing s ⟨0x16#8, tag, be1 0 ++ beCardId card⟩ rest →
    ((∀ b ∈ s.bindings, b.card ≠ card) → exec .bindingQueryByCard s =
      .next (answered s rest ⟨0x16#8, tag, be1 0 ++ beCardId card⟩ .notFound (be2 s.bindings.length))) ∧
    (∀ before b after, s.bindings = before ++ b :: after → b.card = card → (∀ x ∈ before, x.card ≠ card) →
      exec .bindingQueryByCard s = .next (answered s rest ⟨0x16#8, tag, be1 0 ++ beCardId card⟩ .ok
        (be2 s.bindings.length ++ (beCardId card ++ be2 b.account.val ++ be1 (if b.lost then 1 else 0)) ++
          be2 before.length)))) ∧
  (∀ (s : State) (tag : Byte) (rest : List Frame) (start count : Nat), s.tablesReady = true → start ≤ 4095 →
    1 ≤ count → count ≤ 8 → Executing s ⟨0x16#8, tag, be1 1 ++ be2 start ++ be1 count⟩ rest →
    exec .bindingQueryByPosition s = .next (answered s rest ⟨0x16#8, tag, be1 1 ++ be2 start ++ be1 count⟩ .ok
      (be2 s.bindings.length ++ beList beBinding ((s.bindings.drop start).take count)))) ∧
  (∀ (s : State) (tag : Byte) (rest : List Frame) (start count : Nat), s.tablesReady = true → start < 65536 →
    count < 256 → (4095 < start ∨ count = 0 ∨ 8 < count) →
    Executing s ⟨0x16#8, tag, be1 1 ++ be2 start ++ be1 count⟩ rest → exec .bindingQueryByPosition s =
      .next (answered s rest ⟨0x16#8, tag, be1 1 ++ be2 start ++ be1 count⟩ .badParameter []))

/-- MARK-LOST makes the card's binding LOST and starts closing, with CARD_LOST, at every station whose session was
opened with the card; every other station is unchanged. A session with no sheet in the path settles at once: the log takes
its record and its account the charge. A top-up outstanding is taken back, its tag voided. NOT_FOUND changes nothing. The
order of the stations is free (log entry 4). -/
def Obligations.MarkLostResult : Prop :=
  ∀ (s : State) (tag : Byte) (rest : List Frame) (card : CardId), CardId.wf card = true → s.tablesReady = true →
    Executing s ⟨0x15#8, tag, beCardId card⟩ rest →
    ((∀ b ∈ s.bindings, b.card ≠ card) → exec .markLost s =
      .next (answered s rest ⟨0x15#8, tag, beCardId card⟩ .notFound [])) ∧
    ((∃ b ∈ s.bindings, b.card = card) → ∃ t,
      exec .markLost s = .next (answered t rest ⟨0x15#8, tag, beCardId card⟩ .ok []) ∧
      t.bindings = s.bindings.map (fun b => if b.card = card then { b with lost := true } else b) ∧
      ∀ n, ((s.st n).session.map Session.card ≠ some card ∨ (s.st n).state = .closing → t.st n = s.st n) ∧
        ((s.st n).session.map Session.card = some card → (s.st n).state ≠ .closing → (s.st n).mayClose →
          ClosingBegun .cardLost n s t) ∧
        (∀ ses, (s.st n).closesAtOnce ses → ses.card = card → s.log.records.length + openSessions s ≤ 256 →
          ∃ (k : Nat) (r : SessionRecord), { number := k, body := .session r } ∈ t.log.records.drop s.log.records.length ∧
            ClosedAtOnce .cardLost n ses (s.st n) s t r))

/-- A classification takes the first of REFUSE, BANK, ACCOUNT and FREE among the matching rules, with the discount
class of the lowest-numbered of them that has it, and the default action where none matches; a binding lookup reads
one binding. Both answer, and where the card's admission is in passage at the asking station and waits for that answer,
the answer stands with it whatever the rules and bindings become (R105); nothing else changes. The answer field is log
entry 3's, and the place where an outcome stands log entry 20's. -/
def Obligations.CardRouterAnswers : Prop :=
  (∀ (s : State) (asker : Option StationId) (card : CardId), ∃ (t : State) (o : CardOutcome),
    exec (.classification card asker) s = .next t ∧
    t = { s with stations := t.stations, answer := some (.outcome o) } ∧ (∀ m, asker ≠ some m → t.st m = s.st m) ∧
    (∀ n, asker = some n →
      (∀ p, (s.st n).passage = some p → p.card = card → p.hold = none → p.outcome = none →
        (s.st n).tariff.active.isSome = true →
        ¬ ((s.st n).settings.auditLock = true ∧ (s.st n).audit.state = .outOfStep) →
        t.st n = { s.st n with passage := some { p with outcome := some o } }) ∧
      ((∀ p, (s.st n).passage = some p → p.card ≠ card ∨ p.hold.isSome = true ∨ p.outcome.isSome = true) ∨
        (s.st n).tariff.active = none ∨
        ((s.st n).settings.auditLock = true ∧ (s.st n).audit.state = .outOfStep) → t.st n = s.st n)) ∧
    ((∀ k : Fin 32, s.rules[k].matchesCard card = false) → o = s.defaultAction) ∧
    ((∃ k : Fin 32, s.rules[k].matchesCard card = true) →
      (∀ k : Fin 32, s.rules[k].matchesCard card = true →
        (s.rules[k].action = .refuse → o.action = .refuse) ∧
        (s.rules[k].action = .bank → o.action = .refuse ∨ o.action = .bank) ∧
        (s.rules[k].action = .account → o.action ≠ .free)) ∧
      ∃ k : Fin 32, s.rules[k].matchesCard card = true ∧ s.rules[k].action = o.action ∧
        s.rules[k].discountClass = o.discountClass ∧
        ∀ j : Fin 32, j < k → s.rules[j].matchesCard card = true → s.rules[j].action ≠ o.action)) ∧
  (∀ (s : State) (asker : Option StationId) (card : CardId), ∃ (t : State) (b : Option Binding),
    exec (.bindingLookup card asker) s = .next t ∧
    t = { s with stations := t.stations, answer := some (.binding b) } ∧ (∀ m, asker ≠ some m → t.st m = s.st m) ∧
    (∀ n, asker = some n →
      (∀ p, (s.st n).passage = some p → p.card = card → p.hold = none → p.found = none →
        p.outcome.map CardOutcome.action = some .account →
        t.st n = { s.st n with passage := some { p with found := some b } }) ∧
      ((∀ p, (s.st n).passage = some p → p.card ≠ card ∨ p.hold.isSome = true ∨ p.found.isSome = true ∨
        p.outcome.map CardOutcome.action ≠ some .account) → t.st n = s.st n)) ∧
    (s.tablesReady = false → b = none) ∧
    (s.tablesReady = true → (b = none ↔ ∀ x ∈ s.bindings, x.card ≠ card)) ∧
    (∀ x, b = some x → x ∈ s.bindings ∧ x.card = card))

/-- A valid card at a station in IDLE that holds no session, with no admission in passage and the audit lock off:
refused with LOG_FULL without unreserved space, with NO_TARIFF without a tariff, with REFUSED by its rule, each
without a change of the log's records or reservations; a FREE card opens a session, and a BANK card takes the station
to AUTHORIZING with a request. -/
def Obligations.CardAdmissionResult : Prop :=
  ∀ (s : State) (n : StationId) (card : CardId), CardId.wf card = true → (s.st n).state = .idle →
    (s.st n).passage = none → (s.st n).session = none → (s.st n).settings.auditLock = false → (s.st n).slot = .free →
    ∃ t, exec (.card n (beCardId card)) s = .next t ∧ (∀ m, m ≠ n → t.st m = s.st m) ∧ (t.st n).silence = 0 ∧
      t.log.records = s.log.records ∧
      (s.log.unreserved = 0 → (t.st n).state = .idle ∧ t.log = s.log ∧
        (t.st n).sendList.getLast? = some (.panel true 0 (some .logFull))) ∧
      (1 ≤ s.log.unreserved → (s.st n).tariff.active = none → (t.st n).state = .idle ∧
        t.log.reservations = s.log.reservations ∧
        (t.st n).sendList.getLast? = some (.panel true 0 (some .noTariff))) ∧
      (1 ≤ s.log.unreserved → (s.st n).tariff.active.isSome = true → (classify s card).action = .refuse →
        (t.st n).state = .idle ∧ t.log.reservations = s.log.reservations ∧
        (t.st n).sendList.getLast? = some (.panel true 0 (some .refused))) ∧
      (1 ≤ s.log.unreserved → (s.st n).tariff.active.isSome = true → (classify s card).action = .free →
        (t.st n).state = .opened ∧ t.log.reservations = s.log.reservations + 1 ∧
        (∃ ses, (t.st n).session = some ses ∧ ses.number = s.sessionCounter ∧ ses.funding = .free ∧ ses.card = card ∧
          ses.limit = none ∧ ses.discount = 0 ∧ ses.gross = 0 ∧ ses.openTime = s.clock)) ∧
      (1 ≤ s.log.unreserved → (s.st n).tariff.active.isSome = true → (classify s card).action = .bank →
        (t.st n).state = .authorizing ∧ t.log.reservations = s.log.reservations + 1 ∧ (t.st n).session = none ∧
        t.fetchOrder = s.fetchOrder ++ [n] ∧
        (∃ req, (t.st n).slot = .requested card (classify s card).discountClass req ∧ req.amount = s.quantum ∧
          req.time = s.clock ∧ req.timer = 30 ∧ req.fetched = false))

/-- A card whose rule says ACCOUNT, at such a station with a tariff and unreserved space: UNKNOWN_CARD, LOST_CARD and the
three refusals of the account table leave the station in IDLE and the log's reservations as they were; an admitted card
opens a session whose funding limit is its hold. -/
def Obligations.AccountCardAdmission : Prop :=
  ∀ (s : State) (n : StationId) (card : CardId) (tf : Tariff), CardId.wf card = true → (s.st n).state = .idle →
    (s.st n).passage = none → (s.st n).session = none → (s.st n).settings.auditLock = false → s.tablesReady = true →
    AccountTable.wf s.accounts → 1 ≤ s.log.unreserved → (s.st n).tariff.active = some tf →
    (classify s card).action = .account → ∃ t, exec (.card n (beCardId card)) s = .next t ∧
      (∀ m, m ≠ n → t.st m = s.st m) ∧ t.log.records = s.log.records ∧ t.bindings = s.bindings ∧
      ((∀ b ∈ s.bindings, b.card ≠ card) → (t.st n).state = .idle ∧ t.log.reservations = s.log.reservations ∧
        t.accounts = s.accounts ∧ (t.st n).sendList.getLast? = some (.panel true 0 (some .unknownCard))) ∧
      (∀ b, lookupBinding s card = some b →
        let a := s.account b.account
        (b.lost = true → (t.st n).state = .idle ∧ t.log.reservations = s.log.reservations ∧ t.accounts = s.accounts ∧
          (t.st n).sendList.getLast? = some (.panel true 0 (some .lostCard)) ∧ (t.source .lostCard).pending = true ∧
          inMask (t.source .lostCard).bitmap n = true) ∧
        (b.lost = false → (a.state ≠ .active ∨ a.cap ≤ a.funded.length ∨
            a.available < (max tf.header.minimum ((tf.ceiling + 9) / 10) : Nat)) →
          (t.st n).state = .idle ∧ t.log.reservations = s.log.reservations ∧ t.accounts = s.accounts ∧
          (t.st n).sendList.getLast? = some (.panel true 0 (some
            (if a.state ≠ .active then .refused else if a.cap ≤ a.funded.length then .inUse else .noFunds)))) ∧
        (b.lost = false → a.state = .active → a.funded.length < a.cap →
          ((max tf.header.minimum ((tf.ceiling + 9) / 10) : Nat) : Int) ≤ a.available →
          (t.st n).state = .opened ∧ t.log.reservations = s.log.reservations + 1 ∧
          (t.st n).session.map (fun x => (x.number, x.funding, x.card, x.limit, x.stamp, x.discount)) =
            some (s.sessionCounter, .account b.account, card, some (min a.available.toNat s.quantum), tf.header.stamp,
              tf.header.discounts.toList.getD a.discountClass 0) ∧
          (∀ k, k ≠ b.account → t.account k = s.account k) ∧
          t.account b.account = { a with
            funded := a.funded ++ [{ station := n, hold := min a.available.toNat s.quantum }]
            sessions := min 4294967295 (a.sessions + 1) }))

/-- A tap at a station in OPEN, CONFIRMING, RUNNING, STARVED or JAMMED with a session: the session's own card starts closing
with FINISHED, at once to settlement where no sheet is in the path, and a top-up outstanding is taken back; another card changes of the session its last-activity
time alone (R11, R13; log entry 21) and is answered IN_USE, but in JAMMED not at all. A card that is no card ID is a
protocol fault. -/
def Obligations.CardTapResult : Prop :=
  ∀ (s : State) (n : StationId) (ses : Session), (s.st n).passage = none → (s.st n).session = some ses →
    ((s.st n).state = .opened ∨ (s.st n).state = .confirming ∨ (s.st n).state = .running ∨
      (s.st n).state = .starved ∨ (s.st n).state = .jammedSession) →
    (CardId.wf ses.card = true → (s.st n).mayClose → ∃ t, exec (.card n (beCardId ses.card)) s = .next t ∧
      ClosingBegun .finished n s t ∧ (∀ m, m ≠ n → t.st m = s.st m) ∧ t.log = s.log) ∧
    (CardId.wf ses.card = true → (s.st n).closesAtOnce ses → s.log.records.length < 256 →
      ∃ (t : State) (r : SessionRecord), exec (.card n (beCardId ses.card)) s = .next t ∧ TakesRecord s t r ∧
      ClosedAtOnce .finished n ses { s.st n with silence := 0 } s t r ∧ (∀ m, m ≠ n → t.st m = s.st m)) ∧
    (∀ card, CardId.wf card = true → card ≠ ses.card → (s.st n).state ≠ .jammedSession → ∃ t,
      exec (.card n (beCardId card)) s = .next t ∧
      OnlyAt n s t ∧ (t.st n).state = (s.st n).state ∧
      (t.st n).session = some { ses with lastActivity := s.clock } ∧
      (t.st n).sendList.getLast? =
        some (.panel (decide ((s.st n).state = .confirming)) (s.st n).remaining (some .inUse))) ∧
    (∀ card, CardId.wf card = true → card ≠ ses.card → (s.st n).state = .jammedSession →
      exec (.card n (beCardId card)) s = .next (s.modSt n (fun x => { x with
        silence := 0
        idleTimer := x.idleTimer.map (fun _ => x.settings.idleTime)
        session := some { ses with lastActivity := s.clock } }))) ∧
    (∀ bytes, cardIdOf bytes = none → ∃ t, exec (.card n bytes) s = .next t ∧ OnlyAt n s t ∧
      (t.st n).state = (s.st n).state ∧ (t.st n).serviceDue = true ∧
      (t.st n).counters.protocolFaults = min 4294967295 ((s.st n).counters.protocolFaults + 1))

/-! ## Accounts -/

/-- ACCOUNT-WRITE of one record, ACCOUNT-WRITE QUANTUM and ACCOUNT-READ, and the account runs that other events come within:
a run of two records stops between them and goes on, from the state as it then stands, to its reply, and a read goes on
with the accounts as it has read them. A start, a run, a count or a record's field out of its range is answered
BAD_PARAMETER, and nothing is written or read. The data of the replies are log entry 11's, the record an unlisted index reads as
is entry 8's, and the place of a run that is cut is entry 17's. -/
def Obligations.AccountWriteAndReadResults : Prop :=
  (∀ (s : State) (tag : Byte) (rest : List Frame) (i : AccountId) (w : AccountFields),
    let p := be2 i.val ++ be1 1 ++ w.bytes
    Executing s ⟨0x17#8, tag, p⟩ rest → s.tablesReady = true → AccountTable.wf s.accounts → w.InRange →
    ((s.account i).funded ≠ [] → exec (.accountWriteRecords none) s =
      .next (answered s rest ⟨0x17#8, tag, p⟩ .busy (be1 0))) ∧
    ((s.account i).funded = [] → w.balance + (if w.kind = .credit then (w.creditLimit : Int) else 0) < 0 →
      exec (.accountWriteRecords none) s = .next (answered s rest ⟨0x17#8, tag, p⟩ .badParameter (be1 0))) ∧
    ((s.account i).funded = [] → 0 ≤ w.balance + (if w.kind = .credit then (w.creditLimit : Int) else 0) →
      ∃ t, exec (.accountWriteRecords none) s = .next (answered t rest ⟨0x17#8, tag, p⟩ .ok (be1 1)) ∧
        t = { s with accounts := t.accounts } ∧ (∀ k, k ≠ i → t.account k = s.account k) ∧
        (s.account i).WrittenAs w s.clock s.clockSet (t.account i))) ∧
  (∀ (s : State) (tag : Byte) (rest : List Frame) (i k : AccountId) (w v : AccountFields),
    let f : Frame := ⟨0x17#8, tag, be2 i.val ++ be1 2 ++ (w.bytes ++ v.bytes)⟩
    k.val = i.val + 1 → s.tablesReady = true → AccountTable.wf s.accounts → w.InRange → v.InRange →
    0 ≤ w.balance + (if w.kind = .credit then (w.creditLimit : Int) else 0) →
    0 ≤ v.balance + (if v.kind = .credit then (v.creditLimit : Int) else 0) →
    (Executing s f rest → (s.account i).funded = [] → ∃ t, exec (.accountWriteRecords (some 1)) s = .next t ∧
      t = { s with accounts := t.accounts, host := { s.host with run := some { taken := 1 } } } ∧
      (∀ m, m ≠ i → t.account m = s.account m) ∧ (s.account i).WrittenAs w s.clock s.clockSet (t.account i)) ∧
    (Running s { taken := 1 } f rest →
      ((s.account k).funded ≠ [] → exec (.accountWriteRecords none) s = .next (answered s rest f .busy (be1 1))) ∧
      ((s.account k).funded = [] → ∃ t, exec (.accountWriteRecords none) s = .next (answered t rest f .ok (be1 2)) ∧
        t = { s with accounts := t.accounts } ∧ (∀ m, m ≠ k → t.account m = s.account m) ∧
        (s.account k).WrittenAs v s.clock s.clockSet (t.account k)))) ∧
  (∀ (s : State) (tag : Byte) (rest : List Frame) (start run : Nat) (records : List Byte), s.tablesReady = true →
    start < 65536 → run < 256 →
    let f : Frame := ⟨0x17#8, tag, be2 start ++ be1 run ++ records⟩
    Executing s f rest → sizeAllowed 0x17#8 f.payload.length = true →
    (2047 < start ∨ run = 0 ∨ 8 < run ∨ 2047 < start + run - 1 ∨ records.length ≠ 12 * run) →
    ∀ pause, exec (.accountWriteRecords pause) s = .next (answered s rest f .badParameter (be1 0))) ∧
  (∀ (s : State) (tag : Byte) (rest : List Frame) (i : AccountId) (record : List Byte), s.tablesReady = true →
    AccountTable.wf s.accounts → record.length = 12 → (s.account i).funded = [] →
    let f : Frame := ⟨0x17#8, tag, be2 i.val ++ be1 1 ++ record⟩
    Executing s f rest →
    (2 < fieldAt record 0 1 ∨ 1 < fieldAt record 1 1 ∨ signedAt record 2 < -99999999 ∨ 99999999 < signedAt record 2 ∨
      signedAt record 6 < 0 ∨ 99999999 < signedAt record 6 ∨ fieldAt record 10 1 = 0 ∨ 4 < fieldAt record 10 1 ∨
      7 < fieldAt record 11 1) →
    exec (.accountWriteRecords none) s = .next (answered s rest f .badParameter (be1 0))) ∧
  (∀ (s : State) (tag : Byte) (rest : List Frame) (start count : Nat), s.tablesReady = true → start < 65536 →
    count < 256 → (2047 < start ∨ count = 0 ∨ 8 < count ∨ 2047 < start + count - 1) →
    Executing s ⟨0x19#8, tag, be2 start ++ be1 count⟩ rest → ∀ pause, exec (.accountRead pause) s =
      .next (answered s rest ⟨0x19#8, tag, be2 start ++ be1 count⟩ .badParameter [])) ∧
  (∀ (s : State) (tag : Byte) (rest : List Frame) (q : Nat), q < 4294967296 → s.tablesReady = true →
    Executing s ⟨0x18#8, tag, be4 q⟩ rest → exec .accountWriteQuantum s = .next
      (if 100 ≤ q ∧ q ≤ 50000 then answered { s with quantum := q } rest ⟨0x18#8, tag, be4 q⟩ .ok (be1 0)
      else answered s rest ⟨0x18#8, tag, be4 q⟩ .badParameter [])) ∧
  (∀ (s : State) (tag : Byte) (rest : List Frame) (start count : Nat), s.tablesReady = true → 1 ≤ count → count ≤ 8 →
    start + count ≤ 2048 →
    let f : Frame := ⟨0x19#8, tag, be2 start ++ be1 count⟩
    (Executing s f rest → exec (.accountRead none) s = .next (answered s rest f .ok
        (be1 count ++ (List.range count).flatMap (fun k => beAccount (lookupAccount s.accounts (start + k))) ++
          be4 s.quantum)) ∧
      ∀ k, k < count → exec (.accountRead (some k)) s = .next { s with host := { s.host with
        run := some { taken := k, read := (List.range k).map (fun j => lookupAccount s.accounts (start + j)) } } }) ∧
    (∀ read : List Account, read.length < count → Running s { taken := read.length, read := read } f rest →
      exec (.accountRead none) s = .next (answered s rest f .ok
        (be1 count ++ read.flatMap beAccount ++
          (List.range (count - read.length)).flatMap
            (fun k => beAccount (lookupAccount s.accounts (start + read.length + k))) ++ be4 s.quantum))))

/-- ACCOUNT-ADJUST by its cases, ACCOUNT-BLOCK and ACCOUNT-UNBLOCK: the one account changes, and nothing else of the
part does. An index above 2,047 and an amount outside -99,999,999 to 99,999,999 are answered BAD_PARAMETER. A positive
amount, and an unblock of a BLOCKED account, start a wake: a walk begins at the lowest station on the list, or the walk in
progress is marked for restart (R115; its field `visited` is log entry 19's). The data of a refused adjustment are log entry
11's. -/
def Obligations.AccountAdjustAndBlockResults : Prop :=
  (∀ (s : State) (tag : Byte) (rest : List Frame) (i : AccountId) (amount : Int),
    let p := be2 i.val ++ beSigned4 amount
    let a := s.account i
    Executing s ⟨0x1A#8, tag, p⟩ rest → s.tablesReady = true → AccountTable.wf s.accounts → -99999999 ≤ amount →
    amount ≤ 99999999 →
    (a.state = .free → exec .accountAdjust s = .next (answered s rest ⟨0x1A#8, tag, p⟩ .wrongState
      (beSigned4 a.balance ++ beSigned4 a.available))) ∧
    (a.state ≠ .free → (a.balance + amount < -99999999 ∨ 99999999 < a.balance + amount) → exec .accountAdjust s =
      .next (answered s rest ⟨0x1A#8, tag, p⟩ .badParameter (beSigned4 a.balance ++ beSigned4 a.available))) ∧
    (a.state ≠ .free → -99999999 ≤ a.balance + amount → a.balance + amount ≤ 99999999 → a.available + amount < 0 →
      exec .accountAdjust s =
        .next (answered s rest ⟨0x1A#8, tag, p⟩ .insufficient (beSigned4 a.balance ++ beSigned4 a.available))) ∧
    (a.state ≠ .free → -99999999 ≤ a.balance + amount → a.balance + amount ≤ 99999999 → 0 ≤ a.available + amount →
      ∃ t, exec .accountAdjust s = .next (answered t rest ⟨0x1A#8, tag, p⟩ .ok
          (beSigned4 (a.balance + amount) ++ beSigned4 (a.available + amount))) ∧
        t = { s with accounts := t.accounts } ∧ (∀ k, k ≠ i → t.account k = s.account k) ∧
        t.account i = { a with balance := a.balance + amount, walk := (t.account i).walk } ∧
        (amount ≤ 0 → (t.account i).walk = a.walk) ∧
        (0 < amount → WakeStarted a.funded a.walk (t.account i).walk))) ∧
  (∀ (s : State) (tag : Byte) (rest : List Frame) (i : AccountId) (amount : Int),
    let p := be2 i.val ++ beSigned4 amount
    let a := s.account i
    Executing s ⟨0x1A#8, tag, p⟩ rest → s.tablesReady = true → -2147483648 ≤ amount → amount < 2147483648 →
    (amount < -99999999 ∨ 99999999 < amount) → exec .accountAdjust s =
      .next (answered s rest ⟨0x1A#8, tag, p⟩ .badParameter (beSigned4 a.balance ++ beSigned4 a.available))) ∧
  (∀ (s : State) (tag : Byte) (rest : List Frame) (index : Nat), s.tablesReady = true → 2047 < index → index < 65536 →
    (∀ amount : Int, Executing s ⟨0x1A#8, tag, be2 index ++ beSigned4 amount⟩ rest → exec .accountAdjust s =
      .next (answered s rest ⟨0x1A#8, tag, be2 index ++ beSigned4 amount⟩ .badParameter [])) ∧
    (Executing s ⟨0x1B#8, tag, be2 index⟩ rest → exec .accountBlock s =
      .next (answered s rest ⟨0x1B#8, tag, be2 index⟩ .badParameter [])) ∧
    (Executing s ⟨0x1C#8, tag, be2 index⟩ rest → exec .accountUnblock s =
      .next (answered s rest ⟨0x1C#8, tag, be2 index⟩ .badParameter []))) ∧
  (∀ (s : State) (tag : Byte) (rest : List Frame) (i : AccountId), s.tablesReady = true →
    AccountTable.wf s.accounts →
    (Executing s ⟨0x1B#8, tag, be2 i.val⟩ rest →
      ((s.account i).state = .free → exec .accountBlock s =
        .next (answered s rest ⟨0x1B#8, tag, be2 i.val⟩ .wrongState [])) ∧
      ((s.account i).state ≠ .free → ∃ t, exec .accountBlock s =
          .next (answered t rest ⟨0x1B#8, tag, be2 i.val⟩ .ok []) ∧ t = { s with accounts := t.accounts } ∧
        (∀ k, k ≠ i → t.account k = s.account k) ∧ t.account i = { s.account i with state := .blocked })) ∧
    (Executing s ⟨0x1C#8, tag, be2 i.val⟩ rest →
      ((s.account i).state = .free → exec .accountUnblock s =
        .next (answered s rest ⟨0x1C#8, tag, be2 i.val⟩ .wrongState [])) ∧
      ((s.account i).state = .active → exec .accountUnblock s =
        .next (answered s rest ⟨0x1C#8, tag, be2 i.val⟩ .ok [])) ∧
      ((s.account i).state = .blocked → ∃ t, exec .accountUnblock s =
          .next (answered t rest ⟨0x1C#8, tag, be2 i.val⟩ .ok []) ∧ t = { s with accounts := t.accounts } ∧
        (∀ k, k ≠ i → t.account k = s.account k) ∧
        t.account i = { s.account i with state := .active, walk := (t.account i).walk } ∧
        WakeStarted (s.account i).funded (s.account i).walk (t.account i).walk)))

/-- CLOSE-PERIOD: BAD_PARAMETER for an index above 2,047, BUSY with a session open, LOG_FULL without unreserved space, and
otherwise a STATEMENT with the counters as they stood, the counters then 0 and the period starting at the shop clock. -/
def Obligations.ClosePeriodResult : Prop :=
  (∀ (s : State) (tag : Byte) (rest : List Frame) (i : AccountId), s.tablesReady = true → AccountTable.wf s.accounts →
    Executing s ⟨0x1D#8, tag, be2 i.val⟩ rest →
    ((s.account i).funded ≠ [] → exec .closePeriod s = .next (answered s rest ⟨0x1D#8, tag, be2 i.val⟩ .busy [])) ∧
    ((s.account i).funded = [] → s.log.unreserved = 0 → exec .closePeriod s =
      .next (answered s rest ⟨0x1D#8, tag, be2 i.val⟩ .logFull [])) ∧
    ((s.account i).funded = [] → 1 ≤ s.log.unreserved → ∃ t, exec .closePeriod s =
        .next (answered t rest ⟨0x1D#8, tag, be2 i.val⟩ .ok (be4 s.log.counter)) ∧
      t.log.records = s.log.records ++ [{ number := s.log.counter, body := (.statement
        { account := i, periodStart := (s.account i).periodStart, startClockSet := (s.account i).startClockSet
          periodEnd := s.clock, endClockSet := s.clockSet, sideCounts := (s.account i).sides
          jobs := (s.account i).jobs, sessions := (s.account i).sessions, charge := (s.account i).charge }) }] ∧
      t.log.reservations = s.log.reservations ∧ t.stations = s.stations ∧
      (s.log.records = [] → (t.source .settlement).pending = true) ∧ (∀ k, k ≠ i → t.account k = s.account k) ∧
      t.account i = { s.account i with sides := Vector.replicate 4 0, jobs := 0, sessions := 0, charge := 0
                                       periodStart := s.clock, startClockSet := s.clockSet })) ∧
  (∀ (s : State) (tag : Byte) (rest : List Frame) (index : Nat), s.tablesReady = true → 2047 < index → index < 65536 →
    Executing s ⟨0x1D#8, tag, be2 index⟩ rest → exec .closePeriod s =
      .next (answered s rest ⟨0x1D#8, tag, be2 index⟩ .badParameter []))

/-- An admission places a hold of the smaller of the available funds and the quantum, for a card in passage under a
tariff, or is refused and changes nothing in the record; the refusal stands with the card in passage (R105), whose
admission then ends in a refusal PANEL and a returned reservation whatever the account has become. A hold extension
raises the hold and the session's limit together, or is refused. The answer field and the conditions of the rows are log
entries 2 and 3, and the place where a refusal stands is log entry 20's. -/
def Obligations.AdmissionAndExtensionResults : Prop :=
  (∀ (s : State) (n : StationId) (i : AccountId) (p : Passage) (tf : Tariff), AccountTable.wf s.accounts →
    (s.st n).passage = some p → p.hold = none → p.refused = none → (s.st n).tariff.active = some tf →
    let a := s.account i
    let refusal (answer : AdmissionAnswer) (code : PanelCode) : State :=
      { s.modSt n (fun x => { x with passage := some { p with refused := some code } }) with
        answer := some (.admission answer) }
    (a.state ≠ .active → exec (.admission n i) s = .next (refusal .refusedState .refused)) ∧
    (a.state = .active → a.cap ≤ a.funded.length → exec (.admission n i) s = .next (refusal .refusedCap .inUse)) ∧
    (a.state = .active → a.funded.length < a.cap → a.available < (max tf.header.minimum ((tf.ceiling + 9) / 10) : Nat) →
      exec (.admission n i) s = .next (refusal .refusedFloor .noFunds)) ∧
    (a.state = .active → a.funded.length < a.cap → ((max tf.header.minimum ((tf.ceiling + 9) / 10) : Nat) : Int) ≤
        a.available → ∃ t, exec (.admission n i) s = .next t ∧
      t.answer = some (.admission (.admitted (min a.available.toNat s.quantum) a.discountClass)) ∧
      t = { s with stations := t.stations, accounts := t.accounts, answer := t.answer } ∧
      (∀ m, m ≠ n → t.st m = s.st m) ∧ (∀ k, k ≠ i → t.account k = s.account k) ∧
      t.account i = { a with funded := a.funded ++ [{ station := n, hold := min a.available.toNat s.quantum }]
                             sessions := min 4294967295 (a.sessions + 1) } ∧
      t.st n = { s.st n with
        passage := some { p with hold := some (i, min a.available.toNat s.quantum, a.discountClass) } })) ∧
  (∀ (s : State) (n : StationId) (i : AccountId) (p : Passage) (code : PanelCode), (s.st n).state = .idle →
    (s.st n).passage = some p → p.hold = none → p.refused = some code →
    exec (.admission n i) s = .next s ∧ exec (.handover n) s = .next s ∧
    ∃ t, exec (.status n) s = .next t ∧ t.accounts = s.accounts ∧ t.log.records = s.log.records ∧
      t.log.reservations = s.log.reservations - 1 ∧ (∀ m, m ≠ n → t.st m = s.st m) ∧ (t.st n).state = .idle ∧
      (t.st n).passage = none ∧ (t.st n).session = (s.st n).session ∧ (t.st n).slot = (s.st n).slot ∧
      OutRecord.panel true 0 (some code) ∈ (t.st n).sendList) ∧
  (∀ (s : State) (n : StationId) (i : AccountId) (ses : Session) (limit : Nat), AccountTable.wf s.accounts →
    (s.st n).session = some ses → ses.funding = .account i → ses.limit = some limit →
    let a := s.account i
    ((a.state = .blocked ∨ a.available ≤ 0) →
      exec (.holdExtension n) s = .next { s with answer := some (.extension none) }) ∧
    (a.state ≠ .blocked → 0 < a.available → ∃ t, exec (.holdExtension n) s = .next t ∧
      t.answer = some (.extension (some (min a.available.toNat s.quantum))) ∧
      t = { s with stations := t.stations, accounts := t.accounts, answer := t.answer } ∧
      (∀ m, m ≠ n → t.st m = s.st m) ∧ (∀ k, k ≠ i → t.account k = s.account k) ∧
      (t.st n).session = some { ses with limit := some (limit + min a.available.toNat s.quantum) } ∧
      t.account i = { a with funded := a.funded.map (fun e =>
        if e.station = n then { e with hold := e.hold + min a.available.toNat s.quantum } else e) }))

/-- The period counters and a posting: each changes the one account as R114 and R117 to R119 say, and nothing else but
the answer. The answer to a side advance stays with the asking station, where its session draws on the account, for its
next sheet (R60, R117; log entry 17). A posting below the hold starts a wake, and the walk does not visit the entry removed
(R115; log entry 19 has the walk's field `visited` and the end of a walk whose list is emptied). The answer field and the conditions of the rows are log entries 2 and 3. -/
def Obligations.PeriodCountersAndPosting : Prop :=
  (∀ (s : State) (asker : Option StationId) (i : AccountId) (c : ClassId), AccountTable.wf s.accounts → ∃ t,
    exec (.sideAdvance i c asker) s = .next t ∧ t.answer = some (.count (s.account i).sides[c]) ∧
    t = { s with stations := t.stations, accounts := t.accounts, answer := t.answer } ∧
    (∀ n, t.st n = (if asker = some n ∧ (s.st n).session.map Session.funding = some (.account i) then
      { s.st n with advances := (s.st n).advances ++ [(c, (s.account i).sides[c])] } else s.st n)) ∧
    (∀ k, k ≠ i → t.account k = s.account k) ∧
    t.account i = { s.account i with
      sides := (s.account i).sides.set c.val (min 16777215 ((s.account i).sides[c] + 1)) }) ∧
  (∀ (s : State) (i : AccountId) (c : ClassId) (sides : Nat), AccountTable.wf s.accounts → ∃ t,
    exec (.sideReturn i c sides) s = .next t ∧ t = { s with accounts := t.accounts } ∧
    (∀ k, k ≠ i → t.account k = s.account k) ∧
    t.account i = { s.account i with sides := (s.account i).sides.set c.val ((s.account i).sides[c] - sides) }) ∧
  (∀ (s : State) (i : AccountId), AccountTable.wf s.accounts → ∃ t, exec (.jobCount i) s = .next t ∧
    t = { s with accounts := t.accounts } ∧ (∀ k, k ≠ i → t.account k = s.account k) ∧
    t.account i = { s.account i with jobs := min 4294967295 ((s.account i).jobs + 1) }) ∧
  (∀ (s : State) (i : AccountId) (n : StationId) (hold charge : Nat) (before after : List Funded),
    AccountTable.wf s.accounts → (s.account i).funded = before ++ { station := n, hold := hold } :: after →
    (∀ e ∈ before ++ after, e.station ≠ n) → charge ≤ hold → ∃ t, exec (.posting i n charge) s = .next t ∧
    t = { s with accounts := t.accounts } ∧ (∀ k, k ≠ i → t.account k = s.account k) ∧
    (t.account i).balance = (s.account i).balance - charge ∧ (t.account i).funded = before ++ after ∧
    (t.account i).charge = min 999999999 ((s.account i).charge + charge) ∧
    (t.account i).available = (s.account i).available + (hold - charge : Nat) ∧
    (charge < hold → WakeStarted (before ++ after) (walkWithout n (s.account i).walk) (t.account i).walk) ∧
    (charge = hold → (t.account i).walk =
      if before ++ after = [] then none else walkWithout n (s.account i).walk))

/-- A wake visits the next funded station of the walk: the one the walk starts at, if its wake is still to come, or the
lowest above the position; a station below the position is not visited. One that is not STARVED is unchanged by it; one that
is STARVED retries its grant, and no other station changes. The walk then goes on, or ends, or starts anew at the lowest
station where its restart mark is set. A wake of a walk with no station left visits none and does the same. Without a walk
nothing happens. How a walk holds its position and when it ends is log entry 19's, and that a retry which grants a reprint's
unmet want in SET mode lowers the sets remaining is log entry 18's. -/
def Obligations.WakeVisitsNextStation : Prop :=
  (∀ (s : State) (i : AccountId), (s.account i).walk = none → exec (.wake i) s = .next s) ∧
  (∀ (s : State) (i : AccountId) (w : Walk) (n : StationId), AccountTable.wf s.accounts →
    (s.account i).walk = some w → w.VisitsNext (s.account i).funded n → (s.st n).state ≠ .starved →
    ∃ t, exec (.wake i) s = .next t ∧ t = { s with accounts := t.accounts } ∧
    (∀ k, k ≠ i → t.account k = s.account k) ∧ t.account i = { s.account i with walk := (t.account i).walk } ∧
    WalkMoved (s.account i).funded w n (t.account i).walk) ∧
  (∀ (s : State) (i : AccountId) (w : Walk), AccountTable.wf s.accounts → (s.account i).walk = some w →
    (∀ n, ¬ w.VisitsNext (s.account i).funded n) →
    ∃ t, exec (.wake i) s = .next t ∧ t = { s with accounts := t.accounts } ∧
    (∀ k, k ≠ i → t.account k = s.account k) ∧ t.account i = { s.account i with walk := (t.account i).walk } ∧
    (w.restart = false → (t.account i).walk = none) ∧
    (w.restart = true → WakeStarted (s.account i).funded none (t.account i).walk)) ∧
  (∀ (s : State) (i : AccountId) (w : Walk) (n : StationId), (s.account i).walk = some w →
    w.VisitsNext (s.account i).funded n →
    (s.st n).state = .starved → ∃ t, exec (.wake i) s = .next t ∧ (∀ m, m ≠ n → t.st m = s.st m) ∧ t.log = s.log ∧
    ((t.st n).state = .running ∨ (t.st n).state = .starved) ∧
    (AccountTable.wf s.accounts → WalkMoved (s.account i).funded w n (t.account i).walk) ∧
    (t.st n).session.map Session.gross = (s.st n).session.map Session.gross ∧
    ∀ ses j, (s.st n).session = some ses → (s.st n).job = some j → ∃ g, Consulted .starved (decide (j.mode = .set))
      (j.laterRequest (s.st n).settings.window j.released) n ses j.released j.setsRemaining s t g)

/-- Every command, and every step, the one with no command waiting included, keeps the part solvent: no account's available
funds fall below 0 (R108), each funded entry is its session's funding limit or an admission's hold in passage, no
station stands twice on a list, and the gross mills of every ACCOUNT or BANK session with its released sides at the ceiling
stay within ten times its funding limit (R49). -/
def Obligations.AvailableFundsStayNonNegative : Prop :=
  (∀ (c : Instr) (s t : State), s.Solvent → exec c s = .next t → t.Solvent) ∧
  (∀ s t : State, s.Solvent → step s = .next t → t.Solvent)

/-! ## The bank exchange -/

/-- AUTH-FETCH NEW returns the oldest unfetched requests, up to 4, and marks them fetched; OUTSTANDING returns up to 4 from
a position on and changes nothing. -/
def Obligations.AuthFetchResults : Prop :=
  (∀ (s : State) (tag : Byte) (rest : List Frame), Executing s ⟨0x1E#8, tag, []⟩ rest → s.fetchOrder.Nodup → ∃ t,
    exec .authFetchNew s = .next (answered t rest ⟨0x1E#8, tag, []⟩ .ok
      (be1 ((s.fetchOrder.filter s.unfetched).length - 4) ++
        be1 (min 4 (s.fetchOrder.filter s.unfetched).length) ++
        ((s.fetchOrder.filter s.unfetched).take 4).flatMap (requestData t))) ∧
    t = { s with stations := t.stations } ∧
    ∀ n, t.st n = (if n ∈ (s.fetchOrder.filter s.unfetched).take 4 then
      { s.st n with slot := (s.st n).slot.mapRequest (fun r => { r with fetched := true }) } else s.st n)) ∧
  (∀ (s : State) (tag position : Byte) (rest : List Frame), Executing s ⟨0x1E#8, tag, [position]⟩ rest →
    exec .authFetchOutstanding s = .next
      (if position.toNat ≤ 15 then answered s rest ⟨0x1E#8, tag, [position]⟩ .ok
        (be1 (s.fetchOrder.filter s.unfetched).length ++
          be1 ((s.fetchOrder.drop position.toNat).take 4).length ++
          ((s.fetchOrder.drop position.toNat).take 4).flatMap (requestData s))
      else answered s rest ⟨0x1E#8, tag, [position]⟩ .badParameter []))

/-- AUTH-RESULT for a first request: a usable approval opens a BANK session with the clamped amount, an unusable one writes
a VOID record, a decline returns the reservation; the slot's request is gone in each case. -/
def Obligations.AuthResultOfFirstRequest : Prop :=
  ∀ (s : State) (tag : Byte) (rest : List Frame) (n : StationId) (card : CardId) (dc amount : Nat) (req : Request)
    (tf : Tariff),
    let p := be2 req.tag ++ be4 amount
    Executing s ⟨0x1F#8, tag, p⟩ rest → (s.st n).slot = .requested card dc req → 1 ≤ req.tag → req.tag ≤ 65535 →
    amount ≤ 99999999 → (∀ m, (s.st m).slot.request.map Request.tag = some req.tag → m = n) →
    (s.st n).tariff.active = some tf → s.log.records.length < 256 →
    (0 < amount → (s.st n).state = .authorizing → max tf.header.minimum ((tf.ceiling + 9) / 10) ≤ min amount req.amount →
      ∃ t, exec .authResult s = .next (answered t rest ⟨0x1F#8, tag, p⟩ .ok (be1 0 ++ be4 (min amount req.amount))) ∧
        t.log = s.log ∧ (∀ m, m ≠ n → t.st m = s.st m) ∧ n ∉ t.fetchOrder ∧ (t.st n).state = .opened ∧
        (t.st n).slot = .active card dc ∧ ∃ ses, (t.st n).session = some ses ∧ ses.number = s.sessionCounter ∧
          ses.funding = .bank [req.tag] [] 0 ∧ ses.card = card ∧ ses.limit = some (min amount req.amount) ∧
          ses.stamp = tf.header.stamp ∧ ses.discount = tf.header.discounts.toList.getD dc 0 ∧ ses.gross = 0) ∧
    (0 < amount → ((s.st n).state ≠ .authorizing ∨
        min amount req.amount < max tf.header.minimum ((tf.ceiling + 9) / 10)) →
      ∃ t, exec .authResult s = .next (answered t rest ⟨0x1F#8, tag, p⟩ .ok (be1 1 ++ be4 0)) ∧
        (∀ m, m ≠ n → t.st m = s.st m) ∧ n ∉ t.fetchOrder ∧ (t.st n).slot = .free ∧
        t.log.records = s.log.records ++ [{ number := s.log.counter, body := (.void
          { tag := req.tag, station := n, time := s.clock, clockSet := s.clockSet, cause := .unusable }) }] ∧
        t.log.reservations = s.log.reservations - 1 ∧
        ((s.st n).state ≠ .authorizing → (t.st n).state = (s.st n).state)) ∧
    (amount = 0 → ∃ t, exec .authResult s = .next (answered t rest ⟨0x1F#8, tag, p⟩ .ok (be1 2 ++ be4 0)) ∧
        (∀ m, m ≠ n → t.st m = s.st m) ∧ n ∉ t.fetchOrder ∧ (t.st n).slot = .free ∧
        t.log.records = s.log.records ∧ t.log.reservations = s.log.reservations - 1 ∧
        (t.st n).state = (if (s.st n).state = .authorizing then ({ s.st n with slot := .free } : Station).idleEntry
          else (s.st n).state))

/-- AUTH-RESULT for a top-up: an approval raises the funding limit by the clamped amount and joins the approved tags, and in
RUNNING and STARVED the grant is retried; a decline changes neither; TOO_LATE where no outstanding request carries the tag,
and BAD_PARAMETER for tag 0 and for an amount below 0 or above 99,999,999.
That a retry which grants a reprint's unmet want in SET mode lowers the sets remaining is the model's reading (log entry
18). -/
def Obligations.AuthResultOfTopup : Prop :=
  (∀ (s : State) (tag : Byte) (rest : List Frame) (n : StationId) (card : CardId) (dc amount limit k : Nat)
    (req : Request) (ses : Session) (approved voided : List Nat),
    let p := be2 req.tag ++ be4 amount
    Executing s ⟨0x1F#8, tag, p⟩ rest → (s.st n).slot = .topup card dc req → 1 ≤ req.tag → req.tag ≤ 65535 →
    amount ≤ 99999999 → (∀ m, (s.st m).slot.request.map Request.tag = some req.tag → m = n) →
    (s.st n).session = some ses → ses.funding = .bank approved voided k → ses.limit = some limit →
    (0 < amount → (s.st n).state ≠ .running → (s.st n).state ≠ .starved → ∃ t, exec .authResult s =
        .next (answered t rest ⟨0x1F#8, tag, p⟩ .ok (be1 3 ++ be4 (min amount req.amount))) ∧
      (∀ m, m ≠ n → t.st m = s.st m) ∧ t.log = s.log ∧ (t.st n).slot = .active card dc ∧ n ∉ t.fetchOrder ∧
      (t.st n).state = (s.st n).state ∧ (t.st n).session = some { ses with
        limit := some (limit + min amount req.amount), funding := .bank (approved ++ [req.tag]) voided k }) ∧
    (0 < amount → ((s.st n).state = .running ∨ (s.st n).state = .starved) → ∃ t, exec .authResult s =
        .next (answered t rest ⟨0x1F#8, tag, p⟩ .ok (be1 3 ++ be4 (min amount req.amount))) ∧
      (∀ m, m ≠ n → t.st m = s.st m) ∧ t.log = s.log ∧ ((t.st n).state = .running ∨ (t.st n).state = .starved) ∧
      (t.st n).session.map Session.limit = some (some (limit + min amount req.amount)) ∧
      (t.st n).session.map Session.gross = some ses.gross ∧
      (∃ k', (t.st n).session.map Session.funding = some (.bank (approved ++ [req.tag]) voided k')) ∧
      ∀ j, (s.st n).job = some j →
        let raised : Session := { ses with limit := some (limit + min amount req.amount)
                                           funding := .bank (approved ++ [req.tag]) voided k }
        let u : State := { s.modSt n (fun x => { x with slot := .active card dc, session := some raised }) with
          fetchOrder := s.fetchOrder.filter (fun m => decide (m ≠ n)) }
        ∃ g, Consulted (s.st n).state (decide (j.mode = .set)) (j.laterRequest (s.st n).settings.window j.released) n
          raised j.released j.setsRemaining u t g) ∧
    (amount = 0 → ∃ t, exec .authResult s = .next (answered t rest ⟨0x1F#8, tag, p⟩ .ok (be1 4 ++ be4 0)) ∧
      (∀ m, m ≠ n → t.st m = s.st m) ∧ t.log = s.log ∧ n ∉ t.fetchOrder ∧
      t.st n = { s.st n with slot := .active card dc })) ∧
  (∀ (s : State) (tag : Byte) (rest : List Frame) (t amount : Nat), 1 ≤ t → t ≤ 65535 → amount ≤ 99999999 →
    Executing s ⟨0x1F#8, tag, be2 t ++ be4 amount⟩ rest →
    (∀ m, (s.st m).slot.request.map Request.tag ≠ some t) → exec .authResult s =
      .next (answered s rest ⟨0x1F#8, tag, be2 t ++ be4 amount⟩ .tooLate [])) ∧
  (∀ (s : State) (tag : Byte) (rest : List Frame) (t : Nat) (amount : Int), t < 65536 → -2147483648 ≤ amount →
    amount < 2147483648 → Executing s ⟨0x1F#8, tag, be2 t ++ beSigned4 amount⟩ rest →
    (t = 0 ∨ amount < 0 ∨ 99999999 < amount) → exec .authResult s =
      .next (answered s rest ⟨0x1F#8, tag, be2 t ++ beSigned4 amount⟩ .badParameter []))

/-! ## The log, the audit -/

/-- LOG-READ changes nothing and returns the oldest records with the log's counts; LOG-DROP removes a count of records
where the number it carries is the head's, and otherwise removes nothing. The place of the presence byte is log entry
11's. -/
def Obligations.LogReadAndDropResults : Prop :=
  (∀ (s : State) (tag count : Byte) (rest : List Frame), Executing s ⟨0x20#8, tag, [count]⟩ rest →
    exec .logRead s = .next
      (if 1 ≤ count.toNat ∧ count.toNat ≤ 4 then answered s rest ⟨0x20#8, tag, [count]⟩ .ok
        (be2 s.log.records.length ++ be2 s.log.reservations ++
          be2 (256 - s.log.records.length - s.log.reservations) ++ be4 s.log.counter ++
          be1 (min count.toNat s.log.records.length) ++ (s.log.records.take count.toNat).flatMap beLogRecord)
      else answered s rest ⟨0x20#8, tag, [count]⟩ .badParameter [])) ∧
  (∀ (s : State) (tag : Byte) (rest : List Frame) (count number : Nat), count < 65536 → number < 4294967296 →
    Executing s ⟨0x21#8, tag, be2 count ++ be4 number⟩ rest →
    ((count = 0 ∨ 256 < count ∨ s.log.records.head?.map LogRecord.number ≠ some number ∨
        s.log.records.length < count) → exec .logDrop s =
      .next (answered s rest ⟨0x21#8, tag, be2 count ++ be4 number⟩ .badParameter (logDropData s.log))) ∧
    (1 ≤ count → count ≤ 256 → s.log.records.head?.map LogRecord.number = some number →
      count ≤ s.log.records.length → ∃ t, exec .logDrop s =
        .next (answered t rest ⟨0x21#8, tag, be2 count ++ be4 number⟩ .ok (logDropData t.log)) ∧
      t = { s with log := t.log, notices := t.notices } ∧ t.log.records = s.log.records.drop count ∧
      t.log.reservations = s.log.reservations ∧ t.log.counter = s.log.counter ∧
      t.log.armed = decide (16 < 256 - (s.log.records.length - count) - s.log.reservations)))

/-- AUDIT-CONTROL START, STOP and CLEAR at the stations of the mask, BAD_PARAMETER for an action that is none of the
three or a mask of no station, and AUDIT-QUERY, which changes nothing. The layout of the query's reply is log entry
11's. -/
def Obligations.AuditCommandResults : Prop :=
  (∀ (s : State) (tag : Byte) (rest : List Frame) (mask : Mask), mask ≠ 0#16 →
    (Executing s ⟨0x22#8, tag, be2 mask.toNat ++ [0x00#8]⟩ rest → ∃ t, exec .auditControlStart s =
        .next (answered t rest ⟨0x22#8, tag, be2 mask.toNat ++ [0x00#8]⟩ .ok []) ∧
      t = { s with stations := t.stations } ∧ ∀ n, if inMask mask n = true then
        (t.st n).audit = { state := .baseline, meterRequest := true } ∧ (t.st n).state = (s.st n).state ∧
        ((s.st n).state ≠ .disabled → OutRecord.probe ∈ (t.st n).sendList) else t.st n = s.st n) ∧
    (Executing s ⟨0x22#8, tag, be2 mask.toNat ++ [0x01#8]⟩ rest → ∃ t, exec .auditControlStop s =
        .next (answered t rest ⟨0x22#8, tag, be2 mask.toNat ++ [0x01#8]⟩ .ok []) ∧
      t = { s with stations := t.stations } ∧
      ∀ n, t.st n = (if inMask mask n = true ∧ (s.st n).audit.state ≠ .off then
        { s.st n with audit := { (s.st n).audit with state := .off, intervalTimer := none, meterRequest := false } }
        else s.st n)) ∧
    (Executing s ⟨0x22#8, tag, be2 mask.toNat ++ [0x02#8]⟩ rest → ∃ t, exec .auditControlClear s =
        .next (answered t rest ⟨0x22#8, tag, be2 mask.toNat ++ [0x02#8]⟩ .ok []) ∧
      t = { s with stations := t.stations } ∧
      ∀ n, t.st n = (if inMask mask n = true then
        { s.st n with audit := { (s.st n).audit with
            accounted := Vector.replicate 4 {}, discrepancy := Vector.replicate 4 0
            baseline := if (s.st n).audit.latest.isSome then (s.st n).audit.latest else (s.st n).audit.baseline
            readings := if (s.st n).audit.latest.isSome then 1 else (s.st n).audit.readings } }
        else s.st n))) ∧
  (∀ (s : State) (tag byte : Byte) (rest : List Frame), Executing s ⟨0x23#8, tag, [byte]⟩ rest →
    (∀ n : StationId, n.val = byte.toNat → exec .auditQuery s =
      .next (answered s rest ⟨0x23#8, tag, [byte]⟩ .ok (auditQueryData (s.st n)))) ∧
    (15 < byte.toNat → exec .auditQuery s = .next (answered s rest ⟨0x23#8, tag, [byte]⟩ .badParameter []))) ∧
  (∀ (s : State) (tag action : Byte) (rest : List Frame) (mask : Mask),
    Executing s ⟨0x22#8, tag, be2 mask.toNat ++ [action]⟩ rest → (2 < action.toNat ∨ mask = 0#16) →
    exec (rowOf ⟨0x22#8, tag, be2 mask.toNat ++ [action]⟩) s =
      .next (answered s rest ⟨0x22#8, tag, be2 mask.toNat ++ [action]⟩ .badParameter []))

/-- A METER record at a station that is up: nothing but life on the link in OFF, the baseline in BASELINE, and in TRACKING
and OUT_OF_STEP the judgement of its distance from the baseline, modulo 4,294,967,296, against the threshold, with AUDIT
raised on the passage between the two, either way; a meter gone backwards becomes the new baseline. -/
def Obligations.MeterRecordResult : Prop :=
  ∀ (s : State) (n : StationId) (m0 m1 m2 m3 : BitVec 32), (s.st n).passage = none → (s.st n).state ≠ .down →
    (s.st n).state ≠ .suspended →
    let meter : PerClass Nat := #v[m0.toNat, m1.toNat, m2.toNat, m3.toNat]
    ((s.st n).audit.state = .off →
      exec (.meter n m0 m1 m2 m3) s = .next (s.modSt n (fun x => { x with silence := 0 }))) ∧
    ((s.st n).audit.state = .baseline → ∃ t, exec (.meter n m0 m1 m2 m3) s = .next t ∧
      t = { s with stations := t.stations } ∧ (∀ m, m ≠ n → t.st m = s.st m) ∧
      (t.st n).audit = { (s.st n).audit with
        state := .tracking, baseline := some meter, latest := some meter, latestTime := some (s.clock, s.clockSet)
        accounted := Vector.replicate 4 {}, discrepancy := Vector.replicate 4 0, readings := 1
        intervalTimer := some ((s.st n).settings.probeMinutes * 60) }) ∧
    (∀ base : PerClass Nat, ((s.st n).audit.state = .tracking ∨ (s.st n).audit.state = .outOfStep) →
      (s.st n).audit.baseline = some base → (∀ c : Fin 4, base[c] < 4294967296) →
      (∀ c : Fin 4, (meter[c] + 4294967296 - base[c]) % 4294967296 < 2147483648) → ∃ t,
      exec (.meter n m0 m1 m2 m3) s = .next t ∧ (∀ m, m ≠ n → t.st m = s.st m) ∧
      (t.st n).audit.latest = some meter ∧ (t.st n).audit.baseline = some base ∧
      (t.st n).audit.latestTime = some (s.clock, s.clockSet) ∧
      (t.st n).audit.readings = min 4294967295 ((s.st n).audit.readings + 1) ∧
      (t.st n).audit.accounted = (s.st n).audit.accounted ∧
      (∀ c : Fin 4, (t.st n).audit.discrepancy[c] =
        (((meter[c] + 4294967296 - base[c]) % 4294967296 : Nat) : Int) -
        ((s.st n).audit.accounted[c].billed + (s.st n).audit.accounted[c].free +
          (s.st n).audit.accounted[c].overrun + (s.st n).audit.accounted[c].unattributed : Nat)) ∧
      ((t.st n).audit.state = .outOfStep ↔
        ∃ c : Fin 4, (s.st n).settings.auditThreshold < ((t.st n).audit.discrepancy[c]).natAbs) ∧
      ((t.st n).audit.state = .outOfStep ∨ (t.st n).audit.state = .tracking) ∧
      ((t.st n).audit.state ≠ (s.st n).audit.state →
        (t.source .audit).pending = true ∧ inMask (t.source .audit).bitmap n = true) ∧
      ((t.st n).audit.state = (s.st n).audit.state → t.notices = s.notices) ∧
      (t.st n).state = (if (s.st n).audit.state = .tracking ∧ (t.st n).audit.state = .outOfStep ∧
        (s.st n).state = .idle ∧ (s.st n).settings.auditLock = true then .service else (s.st n).state)) ∧
    (∀ base : PerClass Nat, ((s.st n).audit.state = .tracking ∨ (s.st n).audit.state = .outOfStep) →
      (s.st n).audit.baseline = some base → (∀ c : Fin 4, base[c] < 4294967296) →
      (∃ c : Fin 4, 2147483648 ≤ (meter[c] + 4294967296 - base[c]) % 4294967296) → ∃ t,
      exec (.meter n m0 m1 m2 m3) s = .next t ∧ OnlyAt n s t ∧ (t.st n).state = (s.st n).state ∧
      (t.source .audit).pending = true ∧ inMask (t.source .audit).bitmap n = true ∧
      (t.st n).audit = { (s.st n).audit with
        state := .tracking, baseline := some meter, latest := some meter, latestTime := some (s.clock, s.clockSet)
        accounted := Vector.replicate 4 {}, discrepancy := Vector.replicate 4 0, readings := 1
        rebaselines := min 65535 ((s.st n).audit.rebaselines + 1)
        intervalTimer := some ((s.st n).settings.probeMinutes * 60) })

/-! ## The station links -/

/-- A copier's record that arrives whole at a hunting receiver is handled as its row says; a frame with a wrong CRC,
an unknown kind, a payload that is not of its kind's size, a length above 32 or a gap within it counts as a link frame
error and changes nothing else; the oldest record of the send list is begun and leaves it. That the row of a frame
error feeds the receiver is log entry 15's, a PROBE in BASELINE entry 13's, and the byte of a GRANT whose sum has passed
128 entry 28's. -/
def Obligations.StationLinkCarriesRecords : Prop :=
  (∀ (s : State) (n : StationId) (r : CopierRecord), (s.st n).rx = .hunting →
    (∀ bytes, r = .card bytes → bytes.length = 11) → stationBytes n r.frame s = handleRecord r n s) ∧
  (∀ (s : State) (n : StationId) (kind crc : Byte) (payload : List Byte), (s.st n).rx = .hunting →
    payload.length ≤ 32 →
    (crc ≠ crc8 (be1 payload.length ++ [kind] ++ payload) ∨ recordOf kind.toNat payload = none) →
    exec (.stationFrameError n (0x5A#8 :: be1 payload.length ++ [kind] ++ payload ++ [crc])) s =
      .next (s.modSt n (fun x => { x with
        counters := { x.counters with frameErrors := min 4294967295 (x.counters.frameErrors + 1) } }))) ∧
  (∀ (s : State) (n : StationId) (len : Byte), (s.st n).rx = .hunting → 32 < len.toNat →
    exec (.stationFrameError n [0x5A#8, len]) s = .next (s.modSt n (fun x => { x with
      counters := { x.counters with frameErrors := min 4294967295 (x.counters.frameErrors + 1) } }))) ∧
  (∀ (s : State) (n : StationId) (bytes : List Byte), (s.st n).rx = .inFrame bytes →
    exec (.stationFrameGapTimeout n) s = .next (s.modSt n (fun x => { x with
      rx := .hunting
      counters := { x.counters with frameErrors := min 4294967295 (x.counters.frameErrors + 1) } }))) ∧
  (∀ (s : State) (n : StationId) (r : OutRecord) (rest : List OutRecord), (s.st n).sendList = r :: rest →
    ∃ t, exec (.stationSendRecord n) s = .next t ∧ t = { s with stations := t.stations } ∧
      (∀ m, m ≠ n → t.st m = s.st m) ∧ (t.st n).sendList = rest ∧ (t.st n).state = (s.st n).state ∧
      (∀ g, r = .grant g → (t.st n).line = stationFrame 0x81#8 (be1 g)) ∧
      (r = .halt → (t.st n).line = stationFrame 0x82#8 []) ∧
      (∀ locked amount code, r = .panel locked amount code → (t.st n).line =
        stationFrame 0x83#8 (be1 (if locked then 0 else 1) ++ be4 amount ++ be1 (panelCodeByte code))) ∧
      (r = .probe → (t.st n).line = stationFrame 0x84#8 (be1
          (if (s.st n).audit.state = .baseline ∨ (s.st n).audit.meterRequest then 1 else 0)) ∧
        ((s.st n).audit.state ≠ .baseline → (t.st n).audit.meterRequest = false)))

/-- Any valid record is life on the link. A STATUS has no other effect at a station that is up; it takes a station out of
DOWN by the entry to IDLE, and resumes a suspended session in its prior state. An ANNOUNCE replaces the identity and
clears the sequence-known flag, and credits the sheets still in the path. -/
def Obligations.AnnounceAndStatusResults : Prop :=
  (∀ (s : State) (n : StationId), (s.st n).passage = none →
    ((s.st n).state ≠ .down → (s.st n).state ≠ .suspended →
      exec (.status n) s = .next (s.modSt n (fun x => { x with silence := 0 }))) ∧
    ((s.st n).state = .down → ∃ t, exec (.status n) s = .next t ∧ OnlyAt n s t ∧ (t.st n).silence = 0 ∧
      (t.st n).state = (s.st n).idleEntry) ∧
    (∀ p, (s.st n).state = .suspended → (s.st n).prior = some p → ∃ t, exec (.status n) s = .next t ∧
      t = { s with stations := t.stations } ∧ (∀ m, m ≠ n → t.st m = s.st m) ∧ (t.st n).state = p ∧
      (t.st n).prior = none ∧ (t.st n).changed = true ∧ (t.st n).session = (s.st n).session ∧
      (t.st n).job = (s.st n).job ∧ (t.st n).inPath = (s.st n).inPath ∧
      (t.st n).idleTimer = (if p = .opened ∨ p = .starved then some (s.st n).settings.idleTime else none) ∧
      (t.st n).recoveryTimer = (if p = .jammedSession then (s.st n).recoveryTimer else none))) ∧
  (∀ (s : State) (n : StationId) (model : BitVec 16) (classes capacity : Byte), (s.st n).passage = none →
    (s.st n).state ≠ .down → (s.st n).state ≠ .suspended → (s.st n).inPath = [] →
    exec (.announce n model classes capacity) s = .next (s.modSt n (fun x => { x with
      silence := 0
      seqKnown := false
      identity := { model := some model.toNat, classes := BitVec.ofNat 4 classes.toNat
                    capacity := some capacity.toNat } }))) ∧
  (∀ (s : State) (n : StationId) (model : BitVec 16) (classes capacity : Byte) (ses : Session),
    (s.st n).passage = none → (s.st n).state ≠ .down → (s.st n).state ≠ .suspended → (s.st n).state ≠ .closing →
    (s.st n).inPath ≠ [] → (s.st n).session = some ses → ∃ t, exec (.announce n model classes capacity) s = .next t ∧
    (∀ m, m ≠ n → t.st m = s.st m) ∧ t.log = s.log ∧ (t.st n).state = (s.st n).state ∧ (t.st n).inPath = [] ∧
    (t.st n).seqKnown = false ∧ (t.st n).identity = { model := some model.toNat
                                                      classes := BitVec.ofNat 4 classes.toNat
                                                      capacity := some capacity.toNat } ∧
    (t.st n).session.map Session.gross = some (ses.gross - ((s.st n).inPath.map Sheet.mills).sum) ∧
    (t.st n).job.map Job.reprint = (s.st n).job.map Job.reprint)

/-- A START record: a valid descriptor in OPEN becomes a job under PANEL, whose mode is consulted for the first grant, and
waits in CONFIRMING under ATTENDED; an invalid one is a protocol fault, as is a START in CONFIRMING, RUNNING, STARVED,
JAMMED, CLOSING or SERVICE, and nothing is started. -/
def Obligations.StartRecordResult : Prop :=
  ∀ (s : State) (n : StationId) (mode : Byte) (originals copies : BitVec 16) (duplex : Byte),
    (s.st n).passage = none →
    ((s.st n).state = .opened → (s.st n).settings.startMode = .attended → mode.toNat ≤ 2 → originals.toNat ≤ 999 →
      1 ≤ copies.toNat → copies.toNat ≤ 9999 → ∃ t, exec (.start n mode originals copies duplex) s = .next t ∧
      OnlyAt n s t ∧ (t.st n).state = .confirming ∧ (t.st n).startPending = true ∧
      (t.st n).descriptor.map (fun d => (d.mode.code, d.originals, d.copies, d.duplex)) =
        some (mode.toNat, originals.toNat, copies.toNat, decide (duplex ≠ 0#8)) ∧
      (t.st n).confirmTimer = some (s.st n).settings.confirmTime ∧ (t.st n).idleTimer = none ∧
      (t.source .confirmWaiting).pending = true ∧ inMask (t.source .confirmWaiting).bitmap n = true) ∧
    ((s.st n).state = .opened → (s.st n).settings.startMode = .panel → (s.st n).session.isSome = true →
      mode.toNat ≤ 2 → originals.toNat ≤ 999 → 1 ≤ copies.toNat → copies.toNat ≤ 9999 → ∃ t,
      exec (.start n mode originals copies duplex) s = .next t ∧ (∀ m, m ≠ n → t.st m = s.st m) ∧
      ((t.st n).state = .running ∨ (t.st n).state = .starved) ∧ (t.st n).startPending = false ∧
      (t.st n).descriptor = none ∧ (t.st n).job.map Job.copies = some copies.toNat ∧
      (t.st n).counters.jobs = min 4294967295 ((s.st n).counters.jobs + 1) ∧
      ∀ (d : Descriptor) (ses : Session), d.mode.code = mode.toNat → d.originals = originals.toNat →
        d.copies = copies.toNat → d.duplex = decide (duplex ≠ 0#8) → (s.st n).session = some ses →
        (t.st n).job.map (fun j => (j.mode, j.setSides)) =
          some (if d.runsAsSet then (.set, d.setSides) else (if d.mode = .set then .run else d.mode, 0)) ∧
        ∃ g, Consulted .running d.runsAsSet (d.startRequest (s.st n).settings.window) n ses 0
          (if d.runsAsSet then d.copies else 0) s t g) ∧
    (((s.st n).state = .opened ∧ (2 < mode.toNat ∨ 999 < originals.toNat ∨ copies.toNat = 0 ∨ 9999 < copies.toNat)) ∨
        (s.st n).state = .confirming ∨ (s.st n).state = .running ∨ (s.st n).state = .starved ∨
        (s.st n).state = .closing ∨ (s.st n).state = .service ∨ (s.st n).state = .jammedFree ∨
        (s.st n).state = .jammedSession → ∃ t, exec (.start n mode originals copies duplex) s = .next t ∧ OnlyAt n s t ∧
      (t.st n).state = (s.st n).state ∧ (t.st n).job = (s.st n).job ∧ (t.st n).descriptor = (s.st n).descriptor ∧
      (t.st n).serviceDue = ((s.st n).serviceDue || (s.st n).session.isSome) ∧
      (t.st n).counters.protocolFaults = min 4294967295 ((s.st n).counters.protocolFaults + 1) ∧
      (t.source .protocol).pending = true)

/-- An IMAGED sheet in RUNNING whose sides are all released, whose number is the one after the last and whose path lists
fewer than 8 sheets: its sides are priced in order under the active tariff, join
gross mills and the side count, the sheet joins the in-path list, and the job's mode is consulted. A FREE or BANK session
prices from its own counts; an ACCOUNT session advances the account's period count by each side, and prices from it under
PERIOD basis. Where the first side's advance of a duplex sheet has been made ahead, other stations' may come between, and
the second side reads the count as they left it (R60, R117; the place of an answer asked ahead is log entry 17's). That
such a sheet is metered even where the path lists its number already is log entry 26's reading of R39 against R36, and that
a grant of a reprint's unmet want in SET mode lowers the sets remaining is log entry 18's. Gaps in the numbers, a full path,
a sheet released in part and an unsupported class are the next statement's. -/
def Obligations.ImagedSheetIsPriced : Prop :=
  (∀ (s : State) (n : StationId) (sheet : BitVec 16) (cls sides : Byte) (c : ClassId) (ses : Session) (j : Job)
    (tf : Tariff), (s.st n).passage = none → (s.st n).state = .running → (s.st n).session = some ses →
    (s.st n).job = some j → (s.st n).tariff.active = some tf → (∀ i, ses.funding ≠ .account i) →
    cls.toNat = c.val → (s.st n).identity.classes.getLsbD c.val = true → (sides = 1#8 ∨ sides = 2#8) →
    sides.toNat ≤ j.released → (s.st n).inPath.length < 8 → (s.st n).seqKnown = true →
    (s.st n).lastSeq < 65536 → sheet.toNat = ((s.st n).lastSeq + 1) % 65536 → ses.sideCounts[c] + 2 ≤ 16777215 →
    let m0 := sideMills tf c (if sides = 1#8 then .simplex else .first) ses.sideCounts[c] ses.gross
    let m1 := if sides = 1#8 then 0 else sideMills tf c .second (ses.sideCounts[c] + 1) (ses.gross + m0)
    ∃ t, exec (.imaged n sheet cls sides) s = .next t ∧ (∀ m, m ≠ n → t.st m = s.st m) ∧ t.log = s.log ∧
      ((t.st n).state = .running ∨ (t.st n).state = .starved) ∧ (t.st n).lastSeq = sheet.toNat ∧
      (t.st n).session.map Session.gross = some (ses.gross + m0 + m1) ∧
      (t.st n).session.map Session.sideCounts =
        some (ses.sideCounts.set c.val (ses.sideCounts[c] + sides.toNat)) ∧
      (t.st n).session.map Session.lastActivity = some s.clock ∧
      (t.st n).session.map Session.overrunSides = some (min 4294967295 ses.overrunSides) ∧
      (t.st n).inPath = (s.st n).inPath ++ [{ number := sheet.toNat, cls := c.val, sides := sides.toNat
                                              charged := sides.toNat, mills := m0 + m1, basis := .session
                                              overrun := false }] ∧
      ∃ g, Consulted .running (decide (j.mode = .set))
        (j.laterRequest (s.st n).settings.window (j.released - sides.toNat)) n { ses with gross := ses.gross + m0 + m1 }
        (j.released - sides.toNat) j.setsRemaining s t g) ∧
  (∀ (s : State) (n : StationId) (sheet : BitVec 16) (cls sides : Byte) (c : ClassId) (ses : Session) (j : Job)
    (tf : Tariff) (i : AccountId), (s.st n).passage = none → (s.st n).state = .running → (s.st n).session = some ses →
    (s.st n).job = some j → (s.st n).tariff.active = some tf → ses.funding = .account i → AccountTable.wf s.accounts →
    cls.toNat = c.val → (s.st n).identity.classes.getLsbD c.val = true → (sides = 1#8 ∨ sides = 2#8) →
    sides.toNat ≤ j.released → (s.st n).inPath.length < 8 → (s.st n).seqKnown = true →
    (s.st n).lastSeq < 65536 → sheet.toNat = ((s.st n).lastSeq + 1) % 65536 → ses.sideCounts[c] + 2 ≤ 16777215 →
    (s.account i).sides[c] + 2 ≤ 16777215 → (s.st n).advances = [] →
    let n0 := if tf.pricing[c].basis = .period then (s.account i).sides[c] else ses.sideCounts[c]
    let m0 := sideMills tf c (if sides = 1#8 then .simplex else .first) n0 ses.gross
    let m1 := if sides = 1#8 then 0 else sideMills tf c .second (n0 + 1) (ses.gross + m0)
    ∃ t, exec (.imaged n sheet cls sides) s = .next t ∧ (∀ m, m ≠ n → t.st m = s.st m) ∧ t.log = s.log ∧
      (∀ k, k ≠ i → t.account k = s.account k) ∧ (t.account i).balance = (s.account i).balance ∧
      (t.account i).sides = (s.account i).sides.set c.val ((s.account i).sides[c] + sides.toNat) ∧
      ((t.st n).state = .running ∨ (t.st n).state = .starved) ∧ (t.st n).lastSeq = sheet.toNat ∧
      (t.st n).session.map Session.gross = some (ses.gross + m0 + m1) ∧
      (t.st n).session.map Session.sideCounts =
        some (ses.sideCounts.set c.val (ses.sideCounts[c] + sides.toNat)) ∧
      (t.st n).inPath = (s.st n).inPath ++ [{ number := sheet.toNat, cls := c.val, sides := sides.toNat
                                              charged := sides.toNat, mills := m0 + m1
                                              basis := tf.pricing[c].basis, overrun := false }] ∧
      ∃ g, Consulted .running (decide (j.mode = .set))
        (j.laterRequest (s.st n).settings.window (j.released - sides.toNat)) n { ses with gross := ses.gross + m0 + m1 }
        (j.released - sides.toNat) j.setsRemaining s t g) ∧
  (∀ (s : State) (n : StationId) (sheet : BitVec 16) (cls : Byte) (c : ClassId) (ses : Session) (j : Job)
    (tf : Tariff) (i : AccountId) (ahead : Nat), (s.st n).passage = none → (s.st n).state = .running →
    (s.st n).session = some ses → (s.st n).job = some j → (s.st n).tariff.active = some tf →
    ses.funding = .account i → AccountTable.wf s.accounts → cls.toNat = c.val →
    (s.st n).identity.classes.getLsbD c.val = true → 2 ≤ j.released → (s.st n).inPath.length < 8 →
    (s.st n).seqKnown = true → (s.st n).lastSeq < 65536 → sheet.toNat = ((s.st n).lastSeq + 1) % 65536 →
    ses.sideCounts[c] + 2 ≤ 16777215 → (s.account i).sides[c] + 1 ≤ 16777215 → (s.st n).advances = [(c, ahead)] →
    let period := decide (tf.pricing[c].basis = .period)
    let m0 := sideMills tf c .first (if period then ahead else ses.sideCounts[c]) ses.gross
    let m1 := sideMills tf c .second (if period then (s.account i).sides[c] else ses.sideCounts[c] + 1) (ses.gross + m0)
    ∃ t, exec (.imaged n sheet cls 2#8) s = .next t ∧ (∀ m, m ≠ n → t.st m = s.st m) ∧ t.log = s.log ∧
      (∀ k, k ≠ i → t.account k = s.account k) ∧
      (t.account i).sides = (s.account i).sides.set c.val ((s.account i).sides[c] + 1) ∧ (t.st n).advances = [] ∧
      (t.st n).session.map Session.gross = some (ses.gross + m0 + m1) ∧
      (t.st n).session.map Session.sideCounts = some (ses.sideCounts.set c.val (ses.sideCounts[c] + 2)) ∧
      (t.st n).inPath = (s.st n).inPath ++ [{ number := sheet.toNat, cls := c.val, sides := 2, charged := 2
                                              mills := m0 + m1, basis := tf.pricing[c].basis, overrun := false }])

/-- An IMAGED record in its other cases. Sides other than 1 and 2, and a number at or behind the last or one in the
path, are a protocol fault that changes neither the session nor the path, the numbering or the audit unit (R38, R39), and
restarts the idle timer where it runs (R13; that the session's last-activity time stays is log entry 21's). With no session
the sides are unattributed and nothing is entered (R46). A number that leaves others out counts its gap. In a session, a
sheet whose sides are not all released is charged for those that are, and one of a class the copier does not support for
none; both start closing with OVERRUN (R40, R41, R44). A sheet whose sides are all released goes on to the consultation, and
on a full path takes the place of the head, which exits, with a protocol fault counted (R43). In JAMMED with a session a
sheet is metered and at once credited, and the session goes on (R153). A number that passes may stand in the path already
(log entry 26), sums of credits saturate (log entry 12), and that a grant of a reprint's unmet want in SET mode lowers the
sets remaining is log entry 18's. -/
def Obligations.ImagedWithoutReleasedSides : Prop :=
  (∀ (s : State) (n : StationId) (sheet : BitVec 16) (cls sides : Byte), (s.st n).passage = none →
    ((s.st n).state ≠ .disabled → (s.st n).state ≠ .down → (s.st n).state ≠ .suspended →
        ((sides ≠ 1#8 ∧ sides ≠ 2#8) ∨ ((s.st n).seqKnown = true ∧ (s.st n).lastSeq = sheet.toNat) ∨
          ((s.st n).seqKnown = true ∧ (s.st n).lastSeq < 65536 ∧
            32768 ≤ (sheet.toNat + 65536 - (s.st n).lastSeq) % 65536) ∨
          ((s.st n).seqKnown = false ∧ ∃ e ∈ (s.st n).inPath, e.number = sheet.toNat)) →
      ∃ t, exec (.imaged n sheet cls sides) s = .next t ∧ OnlyAt n s t ∧ (t.st n).state = (s.st n).state ∧
      (t.st n).inPath = (s.st n).inPath ∧
      (t.st n).session = (s.st n).session ∧
      (t.st n).idleTimer = (s.st n).idleTimer.map (fun _ => (s.st n).settings.idleTime) ∧
      (t.st n).audit = (s.st n).audit ∧ (t.st n).seqKnown = (s.st n).seqKnown ∧
      (t.st n).job = (s.st n).job ∧
      (t.st n).lastSeq = (s.st n).lastSeq ∧
      (t.st n).counters.protocolFaults = min 4294967295 ((s.st n).counters.protocolFaults + 1)) ∧
    ((s.st n).state = .idle ∨ (s.st n).state = .authorizing ∨ (s.st n).state = .service ∨
        (s.st n).state = .jammedFree → (s.st n).session = none → ∀ gap, (s.st n).inSequence sheet.toNat gap →
      (sides = 1#8 ∨ sides = 2#8) →
      ∃ t, exec (.imaged n sheet cls sides) s = .next t ∧ t = { s with stations := t.stations } ∧
      (∀ m, m ≠ n → t.st m = s.st m) ∧ (t.st n).state = (s.st n).state ∧ (t.st n).inPath = (s.st n).inPath ∧
      (t.st n).lastSeq = sheet.toNat ∧ (t.st n).seqKnown = true ∧
      (t.st n).counters.sequenceGaps = min 4294967295 ((s.st n).counters.sequenceGaps + gap) ∧
      (t.st n).counters.unattributed = min 4294967295 ((s.st n).counters.unattributed + sides.toNat)) ∧
    ((s.st n).state = .opened → (s.st n).session.isSome = true → (s.st n).session.bind Session.endReason = none →
      (s.st n).job = none → (s.st n).seqKnown = false → (s.st n).inPath = [] → (sides = 1#8 ∨ sides = 2#8) →
      ∃ t, exec (.imaged n sheet cls sides) s = .next t ∧ (∀ m, m ≠ n → t.st m = s.st m) ∧
      (t.st n).state = .closing ∧ (t.st n).session.bind Session.endReason = some .overrun ∧
      (t.st n).session.map Session.gross = (s.st n).session.map Session.gross ∧
      (t.st n).session.map Session.overrunSides =
        (s.st n).session.map (fun x => min 4294967295 (x.overrunSides + sides.toNat)) ∧
      (t.st n).inPath.map Sheet.number = [sheet.toNat] ∧ (t.st n).inPath.map Sheet.charged = [0])) ∧
  (∀ (s : State) (n : StationId) (sheet : BitVec 16) (cls sides : Byte) (gap : Nat) (ses : Session),
    (s.st n).passage = none → (s.st n).session = some ses → ses.endReason = none →
    ((s.st n).state = .opened ∨ (s.st n).state = .confirming ∨ (s.st n).state = .running ∨
      (s.st n).state = .starved) →
    (s.st n).inSequence sheet.toNat gap → (s.st n).inPath.length < 8 → (sides = 1#8 ∨ sides = 2#8) →
    CountsFit s ses → (s.st n).advances = [] →
    (∀ (c : ClassId) (tf : Tariff), (s.st n).supports cls c → (s.st n).tariff.active = some tf →
      (s.st n).released < sides.toNat → ∃ t, exec (.imaged n sheet cls sides) s = .next t ∧
      OverrunClosed n ses (chargedEntry s n ses tf c sheet.toNat sides.toNat) gap s t) ∧
    ((∀ c, ¬ (s.st n).supports cls c) → ∃ t, exec (.imaged n sheet cls sides) s = .next t ∧
      OverrunClosed n ses (uncharged sheet.toNat cls.toNat sides.toNat) gap s t)) ∧
  (∀ (s : State) (n : StationId) (sheet : BitVec 16) (cls sides : Byte) (gap : Nat) (ses : Session) (j : Job)
    (c : ClassId) (tf : Tariff), (s.st n).passage = none → (s.st n).state = .running → (s.st n).session = some ses →
    (s.st n).job = some j → (s.st n).tariff.active = some tf → AccountTable.wf s.accounts →
    (s.st n).supports cls c → (sides = 1#8 ∨ sides = 2#8) → sides.toNat ≤ j.released →
    (s.st n).inSequence sheet.toNat gap → (s.st n).inPath.length ≤ 8 →
    (∀ e, (s.st n).inPath.head? = some e → j.lastSheet ≠ some e.number) → CountsFit s ses →
    (s.st n).advances = [] →
    let e := chargedEntry s n ses tf c sheet.toNat sides.toNat
    let full := (s.st n).inPath.length = 8
    ∃ t, exec (.imaged n sheet cls sides) s = .next t ∧ SheetCounted n ses e gap s t ∧
      SheetEntered n ses e (if full then (s.st n).inPath.tail else (s.st n).inPath) s t ∧
      (t.st n).session.map Session.sheetsExited =
        some (if full then min 4294967295 (ses.sheetsExited + 1) else ses.sheetsExited) ∧
      (t.st n).counters.sheetsExited = (if full then min 4294967295 ((s.st n).counters.sheetsExited + 1)
        else (s.st n).counters.sheetsExited) ∧
      (t.st n).counters.protocolFaults = (if full then min 4294967295 ((s.st n).counters.protocolFaults + 1)
        else (s.st n).counters.protocolFaults) ∧
      (full → (t.st n).serviceDue = true ∧ (t.source .protocol).pending = true ∧
        inMask (t.source .protocol).bitmap n = true) ∧
      ∃ g, Consulted .running (decide (j.mode = .set))
        (j.laterRequest (s.st n).settings.window (j.released - sides.toNat)) n { ses with gross := ses.gross + e.mills }
        (j.released - sides.toNat) j.setsRemaining s t g) ∧
  (∀ (s : State) (n : StationId) (sheet : BitVec 16) (cls sides : Byte) (gap : Nat) (ses : Session),
    (s.st n).passage = none → (s.st n).state = .jammedSession → (s.st n).session = some ses →
    (s.st n).inSequence sheet.toNat gap → (sides = 1#8 ∨ sides = 2#8) → CountsFit s ses → (s.st n).advances = [] →
    (∀ (c : ClassId) (tf : Tariff), (s.st n).supports cls c → (s.st n).tariff.active = some tf →
      ∃ t, exec (.imaged n sheet cls sides) s = .next t ∧
      JamSheetCredited n ses (chargedEntry s n ses tf c sheet.toNat sides.toNat) gap s t) ∧
    ((∀ c, ¬ (s.st n).supports cls c) → ∃ t, exec (.imaged n sheet cls sides) s = .next t ∧
      JamSheetCredited n ses (uncharged sheet.toNat cls.toNat sides.toNat) gap s t))

/-- An EXITED record in RUNNING, STARVED, OPEN or CONFIRMING removes the entries from the head that are at or before its
number, and no other, and ends a SINGLE job with its last sheet; JOB_END in RUNNING or STARVED drops the job and returns the
station to OPEN, in JAMMED it drops the job, and in OPEN it is a protocol fault. -/
def Obligations.ExitedAndJobEndResults : Prop :=
  (∀ (s : State) (n : StationId) (sheet : BitVec 16) (ses : Session), (s.st n).passage = none →
    ((s.st n).state = .running ∨ (s.st n).state = .starved ∨ (s.st n).state = .opened ∨
      (s.st n).state = .confirming) → (s.st n).session = some ses →
    (∀ j, (s.st n).job = some j → j.lastSheet = none) → ∃ t, exec (.exited n sheet) s = .next t ∧
    t = { s with stations := t.stations } ∧ (∀ m, m ≠ n → t.st m = s.st m) ∧
    (t.st n).state = (s.st n).state ∧ (t.st n).job = (s.st n).job ∧
    (t.st n).inPath = (s.st n).inPath.dropWhile (fun e => atOrBefore e.number sheet.toNat) ∧
    (t.st n).session.map Session.gross = some ses.gross ∧
    (ses.sheetsExited + 8 ≤ 4294967295 → (s.st n).inPath.length ≤ 8 → (t.st n).session.map Session.sheetsExited =
      some (ses.sheetsExited + ((s.st n).inPath.length - (t.st n).inPath.length)))) ∧
  (∀ (s : State) (n : StationId) (sheet : BitVec 16) (ses : Session) (j : Job) (e : Sheet) (rest : List Sheet),
    (s.st n).passage = none → ((s.st n).state = .running ∨ (s.st n).state = .starved) →
    (s.st n).session = some ses → (s.st n).job = some j → (s.st n).inPath = e :: rest → j.lastSheet = some e.number →
    atOrBefore e.number sheet.toNat = true → (∀ f, rest.head? = some f → atOrBefore f.number sheet.toNat = false) →
    ∃ t, exec (.exited n sheet) s = .next t ∧ t = { s with stations := t.stations } ∧
    (∀ m, m ≠ n → t.st m = s.st m) ∧ (t.st n).state = .opened ∧ (t.st n).job = none ∧ (t.st n).inPath = rest ∧
    (t.st n).idleTimer = some (s.st n).settings.idleTime ∧ (∀ g, OutRecord.grant g ∉ (t.st n).sendList) ∧
    (t.st n).session.map Session.gross = some ses.gross ∧
    (t.st n).session.map Session.sheetsExited = some (min 4294967295 (ses.sheetsExited + 1)) ∧
    (t.st n).counters.sheetsExited = min 4294967295 ((s.st n).counters.sheetsExited + 1)) ∧
  (∀ (s : State) (n : StationId) (outcome : Byte), (s.st n).passage = none →
    ((s.st n).state = .running ∨ (s.st n).state = .starved → ∃ t, exec (.jobEnd n outcome) s = .next t ∧
      OnlyAt n s t ∧ (t.st n).state = .opened ∧ (t.st n).job = none ∧
      (t.st n).idleTimer = some (s.st n).settings.idleTime ∧ (t.st n).inPath = (s.st n).inPath ∧
      (∀ g, OutRecord.grant g ∉ (t.st n).sendList)) ∧
    ((s.st n).state = .opened → ∃ t, exec (.jobEnd n outcome) s = .next t ∧ OnlyAt n s t ∧
      (t.st n).state = .opened ∧ (t.st n).counters.protocolFaults =
        min 4294967295 ((s.st n).counters.protocolFaults + 1)) ∧
    ((s.st n).state = .jammedSession → (s.st n).job.isSome = true → ∃ t, exec (.jobEnd n outcome) s = .next t ∧
      OnlyAt n s t ∧ (t.st n).state = .jammedSession ∧ (t.st n).job = none ∧
      (t.st n).recoveryTimer = (s.st n).recoveryTimer))

/-- A JAM in a session below its limit credits the path and takes the station to JAMMED with the recovery timer; at its
limit it settles the session with JAM_LIMIT, the path credited: the log takes its record, its account the charge, and a
top-up outstanding is taken back (that the credited mills saturate is log entry 12's); in IDLE it takes it to JAMMED; in DISABLED it is ignored. A CLEARED resumes
the session, with the reprint grant of its job and then a consultation of its mode, or takes the station to the entry to
IDLE. That the consultation, where it grants the reprint's unmet want in SET mode, lowers the sets remaining is log entry
18's. -/
def Obligations.JamAndClearedResults : Prop :=
  (∀ (s : State) (n : StationId) (location sheets : Byte) (ses : Session), (s.st n).passage = none →
    ((s.st n).state = .opened ∨ (s.st n).state = .confirming ∨ (s.st n).state = .running ∨
      (s.st n).state = .starved) →
    (s.st n).session = some ses → ses.jamCount + 1 < (s.st n).settings.jamLimit → (s.st n).settings.jamLimit ≤ 9 →
    ∃ t, exec (.jam n location sheets) s = .next t ∧ (∀ m, m ≠ n → t.st m = s.st m) ∧ t.log = s.log ∧
      (t.st n).state = .jammedSession ∧ (t.st n).inPath = [] ∧
      (t.st n).recoveryTimer = some (s.st n).settings.recoveryTime ∧ (t.st n).idleTimer = none ∧
      (t.st n).session.map Session.jamCount = some (ses.jamCount + 1) ∧
      (t.st n).session.map Session.gross = some (ses.gross - ((s.st n).inPath.map Sheet.mills).sum) ∧
      (t.st n).job.map Job.reprint = (s.st n).job.map (fun j =>
        min 16 (j.reprint + ((s.st n).inPath.map Sheet.charged).sum)) ∧
      (t.st n).lastJam.map JamReport.location = some location.toNat ∧
      (t.source .jam).pending = true ∧ inMask (t.source .jam).bitmap n = true) ∧
  (∀ (s : State) (n : StationId) (location sheets : Byte) (ses : Session), (s.st n).passage = none →
    ((s.st n).state = .opened ∨ (s.st n).state = .confirming ∨ (s.st n).state = .running ∨
      (s.st n).state = .starved ∨ (s.st n).state = .jammedSession) →
    (s.st n).session = some ses → ses.endReason = none → ses.jamCount < 255 →
    (s.st n).settings.jamLimit ≤ ses.jamCount + 1 → s.log.records.length < 256 →
    ∃ (t : State) (r : SessionRecord), exec (.jam n location sheets) s = .next t ∧ (∀ m, m ≠ n → t.st m = s.st m) ∧
      TakesRecord s t r ∧ Settled .jamLimit n ses { s.st n with silence := 0 } s t r ∧
      Credited (s.st n).inPath ses r ∧ r.jamCount = ses.jamCount + 1 ∧
      ((s.st n).disablePending = false → (t.st n).state = .jammedFree ∧ (t.st n).serviceDue = true)) ∧
  (∀ (s : State) (n : StationId) (location sheets : Byte), (s.st n).passage = none →
    ((s.st n).state = .idle → ∃ t, exec (.jam n location sheets) s = .next t ∧ OnlyAt n s t ∧
      (t.st n).state = .jammedFree ∧ (t.st n).counters.jams = min 4294967295 ((s.st n).counters.jams + 1) ∧
      (t.source .jam).pending = true) ∧
    ((s.st n).state = .disabled → (s.st n).session = none → (s.st n).idleTimer = none →
      exec (.jam n location sheets) s = .next (s.modSt n (fun x => { x with silence := 0 })))) ∧
  (∀ (s : State) (n : StationId), (s.st n).passage = none →
    ((s.st n).state = .jammedFree → ∃ t, exec (.cleared n) s = .next t ∧ OnlyAt n s t ∧
      (t.st n).state = (s.st n).idleEntry) ∧
    ((s.st n).state = .jammedSession → (s.st n).job = none → ∃ t, exec (.cleared n) s = .next t ∧ OnlyAt n s t ∧
      (t.st n).state = .opened ∧ (t.st n).recoveryTimer = none ∧
      (t.st n).idleTimer = some (s.st n).settings.idleTime) ∧
    ((s.st n).state = .jammedSession → (s.st n).job.isSome = true → ∃ t, exec (.cleared n) s = .next t ∧
      (∀ m, m ≠ n → t.st m = s.st m) ∧ t.log = s.log ∧
      ((t.st n).state = .running ∨ (t.st n).state = .starved) ∧ (t.st n).recoveryTimer = none ∧
      (t.st n).job.map Job.reprint = some 0 ∧
      ∀ ses j, (s.st n).session = some ses → (s.st n).job = some j →
        ∃ (u : State) (paid : Session) (k : Job) (g h : Nat),
        Sized false (min j.reprint ((if j.mode = .set then 2 * j.setSides else (s.st n).settings.window) - j.released)) n
          ses j.released j.setsRemaining s u g ∧
        (u.st n).session = some paid ∧ (u.st n).job = some k ∧ k.mode = j.mode ∧ k.setSides = j.setSides ∧
        (AccountTable.wf s.accounts → AccountTable.wf u.accounts) ∧ u.quantum = s.quantum ∧ u.clock = s.clock ∧
        (u.st n).ceiling = (s.st n).ceiling ∧
        Consulted .running (decide (j.mode = .set)) (k.laterRequest (s.st n).settings.window k.released) n
          paid k.released k.setsRemaining u t h))

/-- The 2 s tick lists a PROBE for every station not DISABLED and changes nothing else; link silence takes a station
without a session to DOWN and one with a session to SUSPENDED, its session, job and path kept. -/
def Obligations.ProbesAndSilenceResults : Prop :=
  (∀ s : State, ∃ t, exec .probeTick s = .next t ∧ t = { s with stations := t.stations } ∧
    ∀ n, t.st n = (if (s.st n).state = .disabled ∨ OutRecord.probe ∈ (s.st n).sendList then s.st n
      else { s.st n with sendList := (s.st n).sendList ++ [.probe] })) ∧
  (∀ (s : State) (n : StationId), (s.st n).passage = none →
    ((s.st n).state = .idle ∨ (s.st n).state = .authorizing ∨ (s.st n).state = .jammedFree → ∃ t,
      exec (.linkSilence n) s = .next t ∧ OnlyAt n s t ∧ (t.st n).state = .down ∧ (t.st n).silence = 100 ∧
      (t.st n).slot = (s.st n).slot ∧ (t.source .stationDown).pending = true) ∧
    ((s.st n).state = .opened ∨ (s.st n).state = .confirming ∨ (s.st n).state = .running ∨
        (s.st n).state = .starved ∨ (s.st n).state = .jammedSession → ∃ t,
      exec (.linkSilence n) s = .next t ∧ OnlyAt n s t ∧ (t.st n).state = .suspended ∧
      (t.st n).prior = some (if (s.st n).state = .confirming then .opened else (s.st n).state) ∧
      (t.st n).session = (s.st n).session ∧ (t.st n).job = (s.st n).job ∧ (t.st n).inPath = (s.st n).inPath ∧
      (t.st n).idleTimer = none ∧ (t.st n).recoveryTimer = (if (s.st n).state = .jammedSession then
        (s.st n).recoveryTimer else some (s.st n).settings.recoveryTime) ∧
      (t.source .stationDown).pending = true) ∧
    ((s.st n).state = .closing ∨ (s.st n).state = .disabled ∨ (s.st n).state = .down ∨ (s.st n).state = .service ∨
      (s.st n).state = .suspended → exec (.linkSilence n) s =
        .next (s.modSt n (fun x => { x with silence := 100 }))))

/-- The other timers: the confirm timer denies the start, a first request's expiry writes a VOID with TIMEOUT and
frees the slot, a top-up's puts its tag on the voided tags, the recovery timer settles with JAM_ABANDONED or
LINK_LOST, the path credited, a top-up taken back and the charge taken, and the audit's interval timer asks for a meter and
restarts. That the credited mills saturate is log entry 12's; that an expiry acts wherever its timer runs
is log entry 2's. -/
def Obligations.TimerExpiryResults : Prop :=
  (∀ (s : State) (n : StationId), (s.st n).state = .confirming → (s.st n).confirmTimer.isSome = true → ∃ t,
    exec (.confirmTimerExpiry n) s = .next t ∧ OnlyAt n s t ∧ (t.st n).state = .opened ∧
    (t.st n).startPending = false ∧ (t.st n).descriptor = none ∧ (t.st n).session = (s.st n).session ∧
    (t.st n).sendList.getLast? = some (.panel false (s.st n).remaining (some .refused))) ∧
  (∀ (s : State) (n : StationId) (card : CardId) (dc : Nat) (req : Request),
    (s.st n).slot = .requested card dc req → s.log.records.length < 256 → ∃ t,
    exec (.requestTimerExpiry n) s = .next t ∧ (∀ m, m ≠ n → t.st m = s.st m) ∧ (t.st n).slot = .free ∧
    n ∉ t.fetchOrder ∧ t.log.records = s.log.records ++ [{ number := s.log.counter, body := (.void
      { tag := req.tag, station := n, time := s.clock, clockSet := s.clockSet, cause := .timeout }) }] ∧
    t.log.reservations = s.log.reservations - 1 ∧
    (t.st n).state = (if (s.st n).state = .authorizing then ({ s.st n with slot := .free } : Station).idleEntry
      else (s.st n).state)) ∧
  (∀ (s : State) (n : StationId) (card : CardId) (dc k : Nat) (req : Request) (ses : Session) (a v : List Nat),
    (s.st n).slot = .topup card dc req → (s.st n).session = some ses → ses.funding = .bank a v k → ∃ t,
    exec (.requestTimerExpiry n) s = .next t ∧ t = { s with stations := t.stations, fetchOrder := t.fetchOrder } ∧
    n ∉ t.fetchOrder ∧ (∀ m, m ≠ n → t.st m = s.st m) ∧ t.st n = { s.st n with
      slot := .active card dc, session := some { ses with funding := .bank a (v ++ [req.tag]) k } }) ∧
  (∀ (s : State) (n : StationId) (ses : Session), (s.st n).recoveryTimer.isSome = true →
    ((s.st n).state = .jammedSession ∨ (s.st n).state = .suspended) → (s.st n).session = some ses →
    ses.endReason = none → s.log.records.length < 256 → ∃ (t : State) (r : SessionRecord),
    exec (.recoveryTimerExpiry n) s = .next t ∧ (∀ m, m ≠ n → t.st m = s.st m) ∧
    TakesRecord s t r ∧
    Settled (if (s.st n).state = .jammedSession then .jamAbandoned else .linkLost) n ses (s.st n) s t r ∧
    Credited (s.st n).inPath ses r ∧ r.jamCount = ses.jamCount ∧ (t.st n).prior = none ∧
    ((s.st n).disablePending = false → (s.st n).jamDuringClose = false →
      (t.st n).state = (if (s.st n).state = .jammedSession then .jammedFree else .down))) ∧
  (∀ (s : State) (n : StationId), (s.st n).audit.intervalTimer.isSome = true →
    exec (.intervalTimerExpiry n) s = .next (s.modSt n (fun x => { x with audit := { x.audit with
      meterRequest := true, intervalTimer := some (x.settings.probeMinutes * 60) } })))

/-! ## The log's requests, the rating engine, the shared counters -/

/-- An admission reservation is granted against unreserved space alone and counts; a return lowers the count; a
handover, of an admission on its placed hold, or of a FREE or BANK card that has not been refused, by the outcome that
stands or by its classification now, keeps it; an offered VOID or SESSION spends a reservation, a STATEMENT needs unreserved space and
spends none, and a record taken receives the counter's number. The answer field and the conditions of the rows are log
entries 2 and 3. -/
def Obligations.LogRequestResults : Prop :=
  (∀ (s : State) (n : StationId) (card : CardId), (s.st n).state = .idle → (s.st n).passage = none →
    (s.log.unreserved = 0 → exec (.admissionReservation n card) s =
      .next { s with answer := some (.reserved false) }) ∧
    (1 ≤ s.log.unreserved → ∃ t, exec (.admissionReservation n card) s = .next t ∧
      t.answer = some (.reserved true) ∧ t.log.reservations = s.log.reservations + 1 ∧
      t.log.records = s.log.records ∧ (t.log.unreserved ≤ 16 → s.log.armed = true → (t.source .logLow).pending = true) ∧
      (t.st n).passage = some { card := card, hold := none } ∧ (∀ m, m ≠ n → t.st m = s.st m))) ∧
  (∀ (s : State) (n : StationId) (p : Passage), (s.st n).passage = some p → p.hold = none →
    ∃ t, exec (.reservationReturn n) s = .next t ∧ t.log.reservations = s.log.reservations - 1 ∧
      t.log.records = s.log.records ∧ t.st n = { s.st n with passage := none } ∧ (∀ m, m ≠ n → t.st m = s.st m)) ∧
  (∀ (s : State) (n : StationId) (p : Passage) (i : AccountId) (limit dc : Nat), (s.st n).state = .idle →
    (s.st n).passage = some p → p.hold = some (i, limit, dc) → ∃ t, exec (.handover n) s = .next t ∧
      t.log = s.log ∧ (∀ m, m ≠ n → t.st m = s.st m) ∧ (t.st n).state = .opened ∧ (t.st n).passage = none ∧
      (t.st n).session.map (fun x => (x.number, x.funding, x.card, x.limit)) =
        some (s.sessionCounter, .account i, p.card, some limit)) ∧
  (∀ (s : State) (n : StationId) (p : Passage) (o : CardOutcome), (s.st n).state = .idle →
    (s.st n).passage = some p → p.hold = none → p.refused = none → (p.outcome = some o ∨ (p.outcome = none ∧
      classify s p.card = o ∧ (s.st n).tariff.active.isSome = true ∧
      ¬ ((s.st n).settings.auditLock = true ∧ (s.st n).audit.state = .outOfStep))) →
    (o.action = .free → ∃ t, exec (.handover n) s = .next t ∧
      t.log = s.log ∧ (∀ m, m ≠ n → t.st m = s.st m) ∧ (t.st n).state = .opened ∧ (t.st n).passage = none ∧
      (t.st n).session.map (fun x => (x.number, x.funding, x.card, x.limit)) =
        some (s.sessionCounter, .free, p.card, none)) ∧
    (o.action = .bank → ∃ t, exec (.handover n) s = .next t ∧
      t.log = s.log ∧ (∀ m, m ≠ n → t.st m = s.st m) ∧ (t.st n).state = .authorizing ∧ (t.st n).passage = none ∧
      (t.st n).session = (s.st n).session ∧ t.fetchOrder = s.fetchOrder ++ [n] ∧
      ∃ req, (t.st n).slot = .requested p.card o.discountClass req ∧ req.amount = s.quantum ∧ req.timer = 30)) ∧
  (∀ (s : State) (r : VoidRecord), 1 ≤ s.log.reservations → s.log.records.length < 256 → ∃ t,
    exec (.recordOffer (.void r)) s = .next t ∧ t.answer = some (.recordNumber (some s.log.counter)) ∧
      t.log.records = s.log.records ++ [{ number := s.log.counter, body := .void r }] ∧
      t.log.reservations = s.log.reservations - 1 ∧
      t.log.counter = (if 4294967295 ≤ s.log.counter then 1 else s.log.counter + 1) ∧
      (s.log.records = [] → (t.source .settlement).pending = true) ∧ t.stations = s.stations) ∧
  (∀ (s : State) (r : SessionRecord), 1 ≤ s.log.reservations → s.log.records.length < 256 → ∃ t,
    exec (.recordOffer (.session r)) s = .next t ∧ t.answer = some (.recordNumber (some s.log.counter)) ∧
      TakesRecord s t r ∧ t.log.counter = (if 4294967295 ≤ s.log.counter then 1 else s.log.counter + 1) ∧
      (s.log.records = [] → (t.source .settlement).pending = true) ∧ t.stations = s.stations) ∧
  (∀ (s : State) (body : LogBody), s.log.reservations = 0 → (∀ r, body ≠ .statement r) →
    exec (.recordOffer body) s = .next { s with answer := some (.recordNumber none) }) ∧
  (∀ (s : State) (r : StatementRecord), s.log.unreserved = 0 → exec (.recordOffer (.statement r)) s =
    .next { s with answer := some (.recordNumber none) }) ∧
  (∀ (s : State) (r : StatementRecord), 1 ≤ s.log.unreserved → ∃ t,
    exec (.recordOffer (.statement r)) s = .next t ∧ t.answer = some (.recordNumber (some s.log.counter)) ∧
      t.log.records = s.log.records ++ [{ number := s.log.counter, body := .statement r }] ∧
      t.log.reservations = s.log.reservations ∧
      t.log.counter = (if 4294967295 ≤ s.log.counter then 1 else s.log.counter + 1) ∧
      (s.log.records = [] → (t.source .settlement).pending = true) ∧ t.stations = s.stations)

/-- The rating engine's three requests, worked from the station's active tariff: a side's mills with the gross cap,
the opening floor and discount, and the settlement charge with its minimum and its limit. They change nothing but the
answer. The answer field is log entry 3's. -/
def Obligations.RatingEngineAnswers : Prop :=
  ∀ (s : State) (n : StationId) (tf : Tariff), (s.st n).tariff.active = some tf →
    (∀ (c : ClassId) (kind : SideKind) (count gross : Nat),
      let tier := ((tf.pricing[c].breaks.toList.take (tf.pricing[c].tiers - 1)).filter
        (fun b => decide (b < count + 1))).length
      let price := tf.pricing[c].prices.toList.getD tier 0
      exec (.sidePrice n c kind count gross) s = .next { s with answer := some (.mills
        (min (if kind = .second then (price * tf.header.duplex + 50) / 100 else price) (999999990 - gross))) }) ∧
    (∀ dc : Fin 8, exec (.openingFigures n dc) s = .next { s with answer := some (.opening
      (max tf.header.minimum ((tf.ceiling + 9) / 10)) tf.header.discounts[dc]) }) ∧
    (∀ gross discount limit sideTotal : Nat,
      let cents := (gross - gross * discount / 100 + 5) / 10
      exec (.settlementCharge n .free gross discount limit sideTotal) s =
        .next { s with answer := some (.charge 0 false) } ∧
      ∀ kind, kind ≠ .free → exec (.settlementCharge n kind gross discount limit sideTotal) s = .next { s with
        answer := some (if 1 ≤ sideTotal ∧ cents < tf.header.minimum then .charge (min tf.header.minimum limit) true
          else .charge (min cents limit) false) })

/-- A tag taken is the counter's value, or the first after it that no outstanding request carries, and the counter
goes on from it; a session number taken is the counter's value. Nothing else changes but the answer. The answer field
is log entry 3's. -/
def Obligations.SharedCountersAreTaken : Prop :=
  (∀ s : State, 1 ≤ s.tagCounter → s.tagCounter ≤ 65535 → ∃ tag : Nat,
    exec .tagTake s = .next { s with tagCounter := if tag = 65535 then 1 else tag + 1, answer := some (.tag tag) } ∧
    1 ≤ tag ∧ tag ≤ 65535 ∧ (∀ m : StationId, (s.st m).slot.request.map Request.tag ≠ some tag) ∧
    ∃ passed : Nat, tag = (s.tagCounter - 1 + passed) % 65535 + 1 ∧ ∀ j, j < passed → ∃ m : StationId,
      (s.st m).slot.request.map Request.tag = some ((s.tagCounter - 1 + j) % 65535 + 1)) ∧
  (∀ s : State, exec .sessionNumberTake s = .next { s with
    sessionCounter := if 4294967295 ≤ s.sessionCounter then 1 else s.sessionCounter + 1
    answer := some (.sessionNumber s.sessionCounter) })

/-! ## What every command keeps -/

/-- Every command, and every step, the one with no command waiting included, keeps the settlement log's invariant: the
records' numbers run without a gap up to the counter, and records and reservations stay within 256. -/
def Obligations.EveryCommandKeepsTheLogSound : Prop :=
  (∀ (c : Instr) (s t : State), s.log.sound → exec c s = .next t → t.log.sound) ∧
  (∀ s t : State, s.log.sound → step s = .next t → t.log.sound)

/-- Every command, and every step, the one with no command waiting included, keeps the account table's canonical form and the
binding table's order without repeats. -/
def Obligations.EveryCommandKeepsTheTablesSound : Prop :=
  (∀ (c : Instr) (s t : State), AccountTable.wf s.accounts → bindingsSound s.bindings → exec c s = .next t →
    AccountTable.wf t.accounts ∧ bindingsSound t.bindings) ∧
  (∀ s t : State, AccountTable.wf s.accounts → bindingsSound s.bindings → step s = .next t →
    AccountTable.wf t.accounts ∧ bindingsSound t.bindings)

/-- Every command, and every step, the one with no command waiting included, keeps the lists of the host link within their
sizes and what the host sets within its ranges. -/
def Obligations.EveryCommandKeepsTheRanges : Prop :=
  (∀ (c : Instr) (s t : State), s.InRange → exec c s = .next t → t.InRange) ∧
  (∀ s t : State, s.InRange → step s = .next t → t.InRange)

/-- Every command, and every step, the one with no command waiting included, keeps every station's items in agreement with
its state: a session record exactly in the states that R1 marks, at most 8 sheets in the path, a card in passage only in
IDLE. -/
def Obligations.EveryCommandKeepsTheStationsInAgreement : Prop :=
  (∀ (c : Instr) (s t : State), (∀ n, (s.st n).Agrees) → exec c s = .next t → ∀ n, (t.st n).Agrees) ∧
  (∀ s t : State, (∀ n, (s.st n).Agrees) → step s = .next t → ∀ n, (t.st n).Agrees)

/-- No command touches the queue of waiting commands, which is the model's own (log entry 2), cold reset included (log entry
16). -/
def Obligations.EveryCommandLeavesTheQueue : Prop :=
  ∀ (c : Instr) (s t : State), exec c s = .next t → t.pending = s.pending

/-- The shop clock is moved by its tick, SET-TIME and cold reset alone, and the card rules, the default action, the hold
quantum and the mask level by their own commands and cold reset alone (the quantum also by the table initialization). -/
def Obligations.OnlyTheirCommandsChangeClockAndSettings : Prop :=
  ∀ (c : Instr) (s t : State), exec c s = .next t → (∀ a b d, c ≠ .coldReset a b d) →
    (c ≠ .shopClockTick → c ≠ .setTime → t.clock = s.clock) ∧ (c ≠ .setTime → t.clockSet = s.clockSet) ∧
    (c ≠ .ruleWrite → t.rules = s.rules) ∧ (c ≠ .defaultAction → t.defaultAction = s.defaultAction) ∧
    (c ≠ .accountWriteQuantum → c ≠ .tableInitializationComplete → t.quantum = s.quantum) ∧
    (c ≠ .noticeMask → t.notices.maskLevel = s.notices.maskLevel) ∧
    (c ≠ .stationConfig → ∀ n, (t.st n).settings = (s.st n).settings) ∧
    (c ≠ .stageTariff → t.tariffs.header = s.tariffs.header ∧ t.tariffs.pricing = s.tariffs.pricing)
end

