-- ==== Sys2Proof/Laws/State.lean ====
section
/-! SUPPORT. The small lemmas of the state's updates: what each named update of the state leaves of every field, and what
it makes of the field it changes. Later proofs cite these and unfold no record update. -/

namespace Sys2Proof.Machine

/-! ## A station in the state -/

/-- The station that an update changes. -/
@[simp] theorem st_modSt_self (s : State) (n : StationId) (f : Station → Station) :
    (s.modSt n f).st n = f (s.st n) := by
  simp [State.modSt, State.st]

/-- Every other station is as it was. -/
theorem st_modSt_ne (s : State) (f : Station → Station) {m n : StationId} (h : m ≠ n) :
    (s.modSt n f).st m = s.st m := by
  have : n.val ≠ m.val := fun e => h (Fin.ext e.symm)
  simp [State.modSt, State.st, Vector.getElem_set_ne, this]

/-- A station after an update, whichever it is. -/
theorem st_modSt (s : State) (f : Station → Station) (m n : StationId) :
    (s.modSt n f).st m = if m = n then f (s.st m) else s.st m := by
  by_cases h : m = n
  · subst h; simp
  · simp [h, st_modSt_ne]

/-- A station read from the vector of stations. -/
theorem st_eq (s : State) (n : StationId) : s.st n = s.stations[n.val] := rfl

/-- Two states whose stations agree one by one have the same stations. -/
theorem stations_ext {s t : State} (h : ∀ n, s.st n = t.st n) : s.stations = t.stations := by
  apply Vector.ext
  intro i hi
  exact h ⟨i, hi⟩

/-! ## `modSt` -/

@[simp] theorem modSt_accounts (s : State) (n : StationId) (f : Station → Station) : (s.modSt n f).accounts = s.accounts := rfl
@[simp] theorem modSt_quantum (s : State) (n : StationId) (f : Station → Station) : (s.modSt n f).quantum = s.quantum := rfl
@[simp] theorem modSt_tablesReady (s : State) (n : StationId) (f : Station → Station) : (s.modSt n f).tablesReady = s.tablesReady := rfl
@[simp] theorem modSt_rules (s : State) (n : StationId) (f : Station → Station) : (s.modSt n f).rules = s.rules := rfl
@[simp] theorem modSt_defaultAction (s : State) (n : StationId) (f : Station → Station) : (s.modSt n f).defaultAction = s.defaultAction := rfl
@[simp] theorem modSt_bindings (s : State) (n : StationId) (f : Station → Station) : (s.modSt n f).bindings = s.bindings := rfl
@[simp] theorem modSt_tariffs (s : State) (n : StationId) (f : Station → Station) : (s.modSt n f).tariffs = s.tariffs := rfl
@[simp] theorem modSt_tagCounter (s : State) (n : StationId) (f : Station → Station) : (s.modSt n f).tagCounter = s.tagCounter := rfl
@[simp] theorem modSt_fetchOrder (s : State) (n : StationId) (f : Station → Station) : (s.modSt n f).fetchOrder = s.fetchOrder := rfl
@[simp] theorem modSt_sessionCounter (s : State) (n : StationId) (f : Station → Station) : (s.modSt n f).sessionCounter = s.sessionCounter := rfl
@[simp] theorem modSt_log (s : State) (n : StationId) (f : Station → Station) : (s.modSt n f).log = s.log := rfl
@[simp] theorem modSt_host (s : State) (n : StationId) (f : Station → Station) : (s.modSt n f).host = s.host := rfl
@[simp] theorem modSt_notices (s : State) (n : StationId) (f : Station → Station) : (s.modSt n f).notices = s.notices := rfl
@[simp] theorem modSt_clock (s : State) (n : StationId) (f : Station → Station) : (s.modSt n f).clock = s.clock := rfl
@[simp] theorem modSt_clockSet (s : State) (n : StationId) (f : Station → Station) : (s.modSt n f).clockSet = s.clockSet := rfl
@[simp] theorem modSt_tenths (s : State) (n : StationId) (f : Station → Station) : (s.modSt n f).tenths = s.tenths := rfl
@[simp] theorem modSt_draws (s : State) (n : StationId) (f : Station → Station) : (s.modSt n f).draws = s.draws := rfl
@[simp] theorem modSt_answer (s : State) (n : StationId) (f : Station → Station) : (s.modSt n f).answer = s.answer := rfl
@[simp] theorem modSt_pending (s : State) (n : StationId) (f : Station → Station) : (s.modSt n f).pending = s.pending := rfl

/-! ## `modHost` -/

@[simp] theorem modHost_stations (s : State) (f : HostLink → HostLink) : (s.modHost f).stations = s.stations := rfl
@[simp] theorem modHost_accounts (s : State) (f : HostLink → HostLink) : (s.modHost f).accounts = s.accounts := rfl
@[simp] theorem modHost_quantum (s : State) (f : HostLink → HostLink) : (s.modHost f).quantum = s.quantum := rfl
@[simp] theorem modHost_tablesReady (s : State) (f : HostLink → HostLink) : (s.modHost f).tablesReady = s.tablesReady := rfl
@[simp] theorem modHost_rules (s : State) (f : HostLink → HostLink) : (s.modHost f).rules = s.rules := rfl
@[simp] theorem modHost_defaultAction (s : State) (f : HostLink → HostLink) : (s.modHost f).defaultAction = s.defaultAction := rfl
@[simp] theorem modHost_bindings (s : State) (f : HostLink → HostLink) : (s.modHost f).bindings = s.bindings := rfl
@[simp] theorem modHost_tariffs (s : State) (f : HostLink → HostLink) : (s.modHost f).tariffs = s.tariffs := rfl
@[simp] theorem modHost_tagCounter (s : State) (f : HostLink → HostLink) : (s.modHost f).tagCounter = s.tagCounter := rfl
@[simp] theorem modHost_fetchOrder (s : State) (f : HostLink → HostLink) : (s.modHost f).fetchOrder = s.fetchOrder := rfl
@[simp] theorem modHost_sessionCounter (s : State) (f : HostLink → HostLink) : (s.modHost f).sessionCounter = s.sessionCounter := rfl
@[simp] theorem modHost_log (s : State) (f : HostLink → HostLink) : (s.modHost f).log = s.log := rfl
@[simp] theorem modHost_notices (s : State) (f : HostLink → HostLink) : (s.modHost f).notices = s.notices := rfl
@[simp] theorem modHost_clock (s : State) (f : HostLink → HostLink) : (s.modHost f).clock = s.clock := rfl
@[simp] theorem modHost_clockSet (s : State) (f : HostLink → HostLink) : (s.modHost f).clockSet = s.clockSet := rfl
@[simp] theorem modHost_tenths (s : State) (f : HostLink → HostLink) : (s.modHost f).tenths = s.tenths := rfl
@[simp] theorem modHost_draws (s : State) (f : HostLink → HostLink) : (s.modHost f).draws = s.draws := rfl
@[simp] theorem modHost_answer (s : State) (f : HostLink → HostLink) : (s.modHost f).answer = s.answer := rfl
@[simp] theorem modHost_pending (s : State) (f : HostLink → HostLink) : (s.modHost f).pending = s.pending := rfl
@[simp] theorem modHost_st (s : State) (f : HostLink → HostLink) (m : StationId) : (s.modHost f).st m = s.st m := rfl

/-! ## `modAccount` -/

@[simp] theorem modAccount_stations (s : State) (i : AccountId) (f : Account → Account) : (s.modAccount i f).stations = s.stations := rfl
@[simp] theorem modAccount_quantum (s : State) (i : AccountId) (f : Account → Account) : (s.modAccount i f).quantum = s.quantum := rfl
@[simp] theorem modAccount_tablesReady (s : State) (i : AccountId) (f : Account → Account) : (s.modAccount i f).tablesReady = s.tablesReady := rfl
@[simp] theorem modAccount_rules (s : State) (i : AccountId) (f : Account → Account) : (s.modAccount i f).rules = s.rules := rfl
@[simp] theorem modAccount_defaultAction (s : State) (i : AccountId) (f : Account → Account) : (s.modAccount i f).defaultAction = s.defaultAction := rfl
@[simp] theorem modAccount_bindings (s : State) (i : AccountId) (f : Account → Account) : (s.modAccount i f).bindings = s.bindings := rfl
@[simp] theorem modAccount_tariffs (s : State) (i : AccountId) (f : Account → Account) : (s.modAccount i f).tariffs = s.tariffs := rfl
@[simp] theorem modAccount_tagCounter (s : State) (i : AccountId) (f : Account → Account) : (s.modAccount i f).tagCounter = s.tagCounter := rfl
@[simp] theorem modAccount_fetchOrder (s : State) (i : AccountId) (f : Account → Account) : (s.modAccount i f).fetchOrder = s.fetchOrder := rfl
@[simp] theorem modAccount_sessionCounter (s : State) (i : AccountId) (f : Account → Account) : (s.modAccount i f).sessionCounter = s.sessionCounter := rfl
@[simp] theorem modAccount_log (s : State) (i : AccountId) (f : Account → Account) : (s.modAccount i f).log = s.log := rfl
@[simp] theorem modAccount_host (s : State) (i : AccountId) (f : Account → Account) : (s.modAccount i f).host = s.host := rfl
@[simp] theorem modAccount_notices (s : State) (i : AccountId) (f : Account → Account) : (s.modAccount i f).notices = s.notices := rfl
@[simp] theorem modAccount_clock (s : State) (i : AccountId) (f : Account → Account) : (s.modAccount i f).clock = s.clock := rfl
@[simp] theorem modAccount_clockSet (s : State) (i : AccountId) (f : Account → Account) : (s.modAccount i f).clockSet = s.clockSet := rfl
@[simp] theorem modAccount_tenths (s : State) (i : AccountId) (f : Account → Account) : (s.modAccount i f).tenths = s.tenths := rfl
@[simp] theorem modAccount_draws (s : State) (i : AccountId) (f : Account → Account) : (s.modAccount i f).draws = s.draws := rfl
@[simp] theorem modAccount_answer (s : State) (i : AccountId) (f : Account → Account) : (s.modAccount i f).answer = s.answer := rfl
@[simp] theorem modAccount_pending (s : State) (i : AccountId) (f : Account → Account) : (s.modAccount i f).pending = s.pending := rfl
@[simp] theorem modAccount_st (s : State) (i : AccountId) (f : Account → Account) (m : StationId) : (s.modAccount i f).st m = s.st m := rfl

/-- The host link after its update. -/
@[simp] theorem modHost_host (s : State) (f : HostLink → HostLink) : (s.modHost f).host = f s.host := rfl

/-- The accounts after the update of one. -/
theorem modAccount_accounts (s : State) (i : AccountId) (f : Account → Account) :
    (s.modAccount i f).accounts = putAccount i.val (f (s.account i)) s.accounts := rfl

/-- An update of a station leaves every account. -/
@[simp] theorem modSt_account (s : State) (n : StationId) (f : Station → Station) (i : AccountId) :
    (s.modSt n f).account i = s.account i := rfl

/-- An update of the host link leaves every account. -/
@[simp] theorem modHost_account (s : State) (f : HostLink → HostLink) (i : AccountId) :
    (s.modHost f).account i = s.account i := rfl

/-! ## Raises -/

@[simp] theorem raiseMask_stations (src : NoticeSource) (m : Mask) (s : State) : (raiseMask src m s).stations = s.stations := rfl
@[simp] theorem raiseMask_accounts (src : NoticeSource) (m : Mask) (s : State) : (raiseMask src m s).accounts = s.accounts := rfl
@[simp] theorem raiseMask_quantum (src : NoticeSource) (m : Mask) (s : State) : (raiseMask src m s).quantum = s.quantum := rfl
@[simp] theorem raiseMask_tablesReady (src : NoticeSource) (m : Mask) (s : State) : (raiseMask src m s).tablesReady = s.tablesReady := rfl
@[simp] theorem raiseMask_rules (src : NoticeSource) (m : Mask) (s : State) : (raiseMask src m s).rules = s.rules := rfl
@[simp] theorem raiseMask_defaultAction (src : NoticeSource) (m : Mask) (s : State) : (raiseMask src m s).defaultAction = s.defaultAction := rfl
@[simp] theorem raiseMask_bindings (src : NoticeSource) (m : Mask) (s : State) : (raiseMask src m s).bindings = s.bindings := rfl
@[simp] theorem raiseMask_tariffs (src : NoticeSource) (m : Mask) (s : State) : (raiseMask src m s).tariffs = s.tariffs := rfl
@[simp] theorem raiseMask_tagCounter (src : NoticeSource) (m : Mask) (s : State) : (raiseMask src m s).tagCounter = s.tagCounter := rfl
@[simp] theorem raiseMask_fetchOrder (src : NoticeSource) (m : Mask) (s : State) : (raiseMask src m s).fetchOrder = s.fetchOrder := rfl
@[simp] theorem raiseMask_sessionCounter (src : NoticeSource) (m : Mask) (s : State) : (raiseMask src m s).sessionCounter = s.sessionCounter := rfl
@[simp] theorem raiseMask_log (src : NoticeSource) (m : Mask) (s : State) : (raiseMask src m s).log = s.log := rfl
@[simp] theorem raiseMask_host (src : NoticeSource) (m : Mask) (s : State) : (raiseMask src m s).host = s.host := rfl
@[simp] theorem raiseMask_clock (src : NoticeSource) (m : Mask) (s : State) : (raiseMask src m s).clock = s.clock := rfl
@[simp] theorem raiseMask_clockSet (src : NoticeSource) (m : Mask) (s : State) : (raiseMask src m s).clockSet = s.clockSet := rfl
@[simp] theorem raiseMask_tenths (src : NoticeSource) (m : Mask) (s : State) : (raiseMask src m s).tenths = s.tenths := rfl
@[simp] theorem raiseMask_draws (src : NoticeSource) (m : Mask) (s : State) : (raiseMask src m s).draws = s.draws := rfl
@[simp] theorem raiseMask_answer (src : NoticeSource) (m : Mask) (s : State) : (raiseMask src m s).answer = s.answer := rfl
@[simp] theorem raiseMask_pending (src : NoticeSource) (m : Mask) (s : State) : (raiseMask src m s).pending = s.pending := rfl
@[simp] theorem raiseMask_st (src : NoticeSource) (m : Mask) (s : State) (n : StationId) :
    (raiseMask src m s).st n = s.st n := rfl
@[simp] theorem raiseMask_account (src : NoticeSource) (m : Mask) (s : State) (i : AccountId) :
    (raiseMask src m s).account i = s.account i := rfl

/-- A raise keeps the mask level and every source's level (R196). -/
theorem raiseMask_level (src : NoticeSource) (m : Mask) (s : State) (x : NoticeSource) :
    ((raiseMask src m s).source x).level = (s.source x).level := by
  by_cases h : x.index = src.index
  · simp [State.source, raiseMask, h]
  · have h2 : src.index.val ≠ x.index.val := fun e => h (Fin.ext e.symm)
    simp [State.source, raiseMask, Vector.getElem_set_ne, h2]

/-- A raise sets the source pending and merges its stations (R196). -/
theorem raiseMask_source (src : NoticeSource) (m : Mask) (s : State) :
    (raiseMask src m s).source src =
      { s.source src with pending := true, bitmap := (s.source src).bitmap ||| m } := by
  simp [State.source, raiseMask]

end Sys2Proof.Machine
end

