-- ==== Sys2Proof/Laws/Accounts.lean ====
section
/-! SUPPORT. The account table (R107) as a table: a record read after a write, and the canonical form that every write
keeps. The proofs of claims about accounts cite these and do not unfold the table's functions. -/

namespace Sys2Proof.Machine

/-- Every index of the table lies above a bound. -/
theorem lookupAccount_below {t : AccountTable} {i : Nat} (h : ∀ e ∈ t, i < e.1) : lookupAccount t i = {} := by
  induction t with
  | nil => rfl
  | cons e t ih =>
    obtain ⟨j, a⟩ := e
    have hj : i < j := h (j, a) (by simp)
    have : ¬ i = j := by omega
    simp [lookupAccount, this]
    exact ih (fun e he => h e (by simp [he]))

/-- A record in front of a table whose indices lie above its own reads as that record. -/
theorem lookup_consAccount_self {t : AccountTable} {i : Nat} (a : Account) (h : ∀ e ∈ t, i < e.1) :
    lookupAccount (consAccount i a t) i = a := by
  by_cases ha : a = {}
  · simp [consAccount, ha, lookupAccount_below h]
  · simp [consAccount, ha, lookupAccount]

/-- A record in front of a table leaves every other index. -/
theorem lookup_consAccount_ne (t : AccountTable) {i k : Nat} (a : Account) (h : k ≠ i) :
    lookupAccount (consAccount i a t) k = lookupAccount t k := by
  by_cases ha : a = {}
  · simp [consAccount, ha]
  · simp [consAccount, ha, lookupAccount, h]

/-- A write is read back. -/
theorem lookup_putAccount_self {t : AccountTable} (ht : AccountTable.wf t) (i : Nat) (a : Account) :
    lookupAccount (putAccount i a t) i = a := by
  induction t with
  | nil => exact lookup_consAccount_self a (by simp)
  | cons e t ih =>
    obtain ⟨j, b⟩ := e
    obtain ⟨hp, he⟩ := ht
    rw [List.pairwise_cons] at hp
    have hw : AccountTable.wf t := ⟨hp.2, fun e h => he e (by simp [h])⟩
    unfold putAccount
    split
    · rename_i hlt
      refine lookup_consAccount_self a ?_
      intro e h
      rcases List.mem_cons.mp h with h | h
      · subst h; exact hlt
      · exact lt_trans hlt (hp.1 e h)
    · split
      · rename_i _ heq
        exact lookup_consAccount_self a (fun e h => heq ▸ hp.1 e h)
      · rename_i _ hne
        simp [lookupAccount, hne, ih hw]

/-- A write leaves every other account. -/
theorem lookup_putAccount_ne (t : AccountTable) {i k : Nat} (a : Account) (h : k ≠ i) :
    lookupAccount (putAccount i a t) k = lookupAccount t k := by
  induction t with
  | nil => exact lookup_consAccount_ne [] a h
  | cons e t ih =>
    obtain ⟨j, b⟩ := e
    unfold putAccount
    split
    · exact lookup_consAccount_ne _ a h
    · split
      · rename_i _ heq
        subst heq
        rw [lookup_consAccount_ne _ a h]
        simp [lookupAccount, h]
      · by_cases hk : k = j
        · simp [lookupAccount, hk]
        · simp [lookupAccount, hk, ih]

/-- Every entry of a written table is the written one or an old one. -/
theorem mem_putAccount {t : AccountTable} {i : Nat} {a : Account} {e : Nat × Account} (h : e ∈ putAccount i a t) :
    (e = (i, a) ∧ a ≠ {}) ∨ e ∈ t := by
  induction t with
  | nil =>
    unfold putAccount consAccount at h
    split at h
    · simp at h
    · rename_i ha
      simp at h
      exact .inl ⟨h, ha⟩
  | cons x t ih =>
    obtain ⟨j, b⟩ := x
    unfold putAccount consAccount at h
    split at h
    · split at h
      · exact .inr h
      · rename_i ha
        rcases List.mem_cons.mp h with h | h
        · exact .inl ⟨h, ha⟩
        · exact .inr h
    · split at h
      · split at h
        · exact .inr (by simp [h])
        · rename_i ha
          rcases List.mem_cons.mp h with h | h
          · exact .inl ⟨h, ha⟩
          · exact .inr (by simp [h])
      · rcases List.mem_cons.mp h with h | h
        · exact .inr (by simp [h])
        · rcases ih h with h | h
          · exact .inl h
          · exact .inr (by simp [h])

/-- A write keeps the canonical form: indices strictly rising and below 2,048, no entry equal to the cold reset
values. -/
theorem putAccount_wf {t : AccountTable} (ht : AccountTable.wf t) {i : Nat} (hi : i < 2048) (a : Account) :
    AccountTable.wf (putAccount i a t) := by
  refine ⟨?_, ?_⟩
  · induction t with
    | nil =>
      unfold putAccount consAccount
      split <;> simp
    | cons e t ih =>
      obtain ⟨j, b⟩ := e
      obtain ⟨hp, he⟩ := ht
      have hp' := hp
      rw [List.pairwise_cons] at hp
      have hw : AccountTable.wf t := ⟨hp.2, fun e h => he e (by simp [h])⟩
      unfold putAccount consAccount
      split
      · rename_i hlt
        split
        · exact hp'
        · rw [List.pairwise_cons]
          refine ⟨?_, hp'⟩
          intro e h
          rcases List.mem_cons.mp h with h | h
          · subst h; exact hlt
          · exact lt_trans hlt (hp.1 e h)
      · split
        · rename_i _ heq
          split
          · exact hp.2
          · rw [List.pairwise_cons]
            exact ⟨fun e h => heq ▸ hp.1 e h, hp.2⟩
        · rename_i hlt hne
          rw [List.pairwise_cons]
          refine ⟨?_, ih hw⟩
          intro e h
          rcases mem_putAccount h with ⟨h, _⟩ | h
          · subst h; show j < i; omega
          · exact hp.1 e h
  · intro e h
    rcases mem_putAccount h with ⟨h, ha⟩ | h
    · subst h; exact ⟨hi, ha⟩
    · exact ht.2 e h

/-- An account's update is read back. -/
theorem account_modAccount_self {s : State} (hs : AccountTable.wf s.accounts) (i : AccountId)
    (f : Account → Account) : (s.modAccount i f).account i = f (s.account i) :=
  lookup_putAccount_self hs i.val _

/-- An account's update leaves every other account. -/
theorem account_modAccount_ne (s : State) {i k : AccountId} (f : Account → Account) (h : k ≠ i) :
    (s.modAccount i f).account k = s.account k :=
  lookup_putAccount_ne _ _ (fun e => h (Fin.ext e))

/-- An account's update keeps the table's canonical form. -/
theorem modAccount_wf {s : State} (hs : AccountTable.wf s.accounts) (i : AccountId) (f : Account → Account) :
    AccountTable.wf (s.modAccount i f).accounts :=
  putAccount_wf hs i.isLt _

/-- The end of every wake walk keeps the canonical form (R111). -/
theorem endWalks_wf {t : AccountTable} (ht : AccountTable.wf t) : AccountTable.wf (endWalks t) := by
  refine ⟨?_, ?_⟩
  · unfold endWalks
    refine List.Pairwise.filter _ ?_
    rw [List.pairwise_map]
    exact ht.1
  · intro e h
    simp only [endWalks, List.mem_filter, List.mem_map] at h
    obtain ⟨⟨x, hx, rfl⟩, hne⟩ := h
    exact ⟨(ht.2 x hx).1, of_decide_eq_true hne⟩

/-- The table right after reset is canonical. -/
theorem reset_accounts_wf : AccountTable.wf State.reset.accounts := ⟨List.Pairwise.nil, by simp [State.reset]⟩

end Sys2Proof.Machine
end

