-- ==== Sys2Proof/Laws/Stations.lean ====
section
/-! SUPPORT. What the operations of one station leave alone: every other station, and every item of the part but that
station and the notices (`AtStation`); and what an entry to a state makes of the station's own items. -/

namespace Sys2Proof.Machine

/-- `t` differs from `s` at station `n` and in the notices alone. -/
structure AtStation (n : StationId) (s t : State) : Prop where
  others : ∀ m, m ≠ n → t.st m = s.st m
  rest : t = { s with stations := t.stations, notices := t.notices }

/-- Nothing changed. -/
theorem AtStation.refl (n : StationId) (s : State) : AtStation n s s := ⟨fun _ _ => rfl, rfl⟩

/-- One change at a station after another. -/
theorem AtStation.trans {n : StationId} {s t u : State} (h : AtStation n s t) (k : AtStation n t u) :
    AtStation n s u := by
  refine ⟨fun m hm => (k.others m hm).trans (h.others m hm), ?_⟩
  have hr := k.rest
  rw [h.rest] at hr
  exact hr

/-- A change of the station's own items. -/
theorem atStation_modSt (s : State) (n : StationId) (f : Station → Station) : AtStation n s (s.modSt n f) :=
  ⟨fun _ h => st_modSt_ne s f h, rfl⟩

/-- A raise. -/
theorem atStation_raise (src : NoticeSource) (m : Mask) (n : StationId) (s : State) :
    AtStation n s (raiseMask src m s) :=
  ⟨fun _ _ => rfl, rfl⟩

/-- A PANEL joins the station's send list. -/
theorem atStation_sendPanel (n : StationId) (l : Bool) (a : Nat) (c : Option PanelCode) (s : State) :
    AtStation n s (sendPanel n l a c s) := atStation_modSt _ _ _

/-- The PANEL of the station's state. -/
theorem atStation_statePanel (n : StationId) (s : State) : AtStation n s (statePanel n s) := by
  unfold statePanel
  split
  · exact AtStation.refl n s
  · exact atStation_sendPanel _ _ _ _ _

/-- A commit (R84). -/
theorem atStation_commitTariff (q : Bool) (n : StationId) (s : State) : AtStation n s (commitTariff q n s) := by
  unfold commitTariff
  split
  · exact AtStation.refl n s
  · dsimp only
    split
    · exact atStation_modSt _ _ _
    · exact (atStation_modSt _ _ _).trans (atStation_raise _ _ _ _)

/-- An entry to a state (R1, R6, R13, R29, R84). -/
theorem atStation_enter (q : Bool) (new : StationState) (n : StationId) (s : State) :
    AtStation n s (enter q new n s) := by
  have hr : ∀ u, AtStation n u (raiseEntry new n u) := by
    intro u
    unfold raiseEntry
    split
    · exact AtStation.refl n u
    · exact atStation_raise _ _ _ _
  unfold enter
  split
  · exact AtStation.refl n s
  · dsimp only
    have h := (atStation_modSt s n (Station.entering new)).trans ((hr _).trans (atStation_statePanel n _))
    split
    · exact h.trans (atStation_commitTariff _ _ _)
    · exact h

/-- The entry to SERVICE. -/
theorem atStation_enterService (q : Bool) (n : StationId) (s : State) : AtStation n s (enterService q n s) :=
  (atStation_raise _ _ _ _).trans (atStation_enter _ _ _ _)

/-- The entry to IDLE with its checks (R6). -/
theorem atStation_enterIdle (q : Bool) (n : StationId) (s : State) : AtStation n s (enterIdle q n s) := by
  unfold enterIdle
  split
  · exact (atStation_modSt _ _ _).trans (atStation_enterService _ _ _)
  · split
    · exact atStation_enterService _ _ _
    · split
      · exact atStation_enter _ _ _ _
      · exact atStation_enter _ _ _ _

/-- A protocol fault (R31). -/
theorem atStation_protocolFault (n : StationId) (s : State) : AtStation n s (protocolFault n s) :=
  (atStation_modSt _ _ _).trans (atStation_raise _ _ _ _)

/-- A side report (R178). -/
theorem atStation_reportSides (cls : Nat) (cat : SideCategory) (sides : Nat) (n : StationId) (s : State) :
    AtStation n s (reportSides cls cat sides n s) := atStation_modSt _ _ _

/-- The start, stop and clear of an audit (R184 to R186). -/
theorem atStation_auditStart (n : StationId) (s : State) : AtStation n s (auditStart n s) := by
  unfold auditStart
  dsimp only
  split
  · exact atStation_modSt _ _ _
  · exact (atStation_modSt _ _ _).trans (atStation_modSt _ _ _)

/-- What an entry leaves of the station's items: the state, and everything that neither the state's entry nor its
commit touches. -/
theorem enter_station (q : Bool) (new : StationState) (n : StationId) (s : State) (h : (s.st n).state ≠ new) :
    ∃ l tf, (enter q new n s).st n =
      { Station.entering new (s.st n) with sendList := l, tariff := tf } := by
  have key : ∀ u : State, ∃ l tf, (if new.commits then commitTariff q n (statePanel n u) else statePanel n u).st n =
      { u.st n with sendList := l, tariff := tf } := by
    intro u
    have hp : ∃ l, (statePanel n u).st n = { u.st n with sendList := l } := by
      unfold statePanel
      split
      · exact ⟨(u.st n).sendList, rfl⟩
      · exact ⟨_, st_modSt_self _ _ _⟩
    obtain ⟨l, hl⟩ := hp
    split
    · unfold commitTariff
      split
      · exact ⟨l, (u.st n).tariff, hl⟩
      · rename_i t _
        refine ⟨l, { active := some t, next := none, status := (u.st n).tariff.status.afterCommit }, ?_⟩
        dsimp only
        split
        · rw [st_modSt_self, hl]
        · rw [raiseFor, raiseMask_st, st_modSt_self, hl]
    · exact ⟨l, (u.st n).tariff, hl⟩
  have hr : ∀ u : State, (raiseEntry new n u).st n = u.st n := by
    intro u
    unfold raiseEntry
    split <;> rfl
  obtain ⟨l, tf, hk⟩ := key (raiseEntry new n (s.modSt n (Station.entering new)))
  refine ⟨l, tf, ?_⟩
  unfold enter
  rw [if_neg h]
  rw [hr, st_modSt_self] at hk
  exact hk

/-- After an entry the station is in the state entered. -/
theorem enter_state (q : Bool) (new : StationState) (n : StationId) (s : State) :
    ((enter q new n s).st n).state = new := by
  by_cases h : (s.st n).state = new
  · simp [enter, h]
  · obtain ⟨l, tf, e⟩ := enter_station q new n s h
    rw [e]
    rfl

/-- An entry leaves the station's session record. -/
theorem enter_session (q : Bool) (new : StationState) (n : StationId) (s : State) :
    ((enter q new n s).st n).session = (s.st n).session := by
  by_cases h : (s.st n).state = new
  · simp [enter, h]
  · obtain ⟨l, tf, e⟩ := enter_station q new n s h
    rw [e]
    rfl

/-- The entry to IDLE ends in SERVICE, AUTHORIZING or IDLE, by the checks of R6 in their order. -/
theorem enterIdle_state (q : Bool) (n : StationId) (s : State) :
    ((enterIdle q n s).st n).state =
      if (s.st n).serviceDue ∨ (s.st n).lockedOut then .service
      else if (s.st n).slot.isRequested then .authorizing else .idle := by
  unfold enterIdle
  split
  · simp [*, enterService, enter_state]
  · split
    · simp [*, enterService, enter_state]
    · split <;> simp [*, enter_state]

/-- The entry to IDLE leaves the station's session record. -/
theorem enterIdle_session (q : Bool) (n : StationId) (s : State) :
    ((enterIdle q n s).st n).session = (s.st n).session := by
  unfold enterIdle
  split
  · simp [enterService, enter_session, raiseFor]
  · split
    · simp [enterService, enter_session, raiseFor]
    · split <;> exact enter_session _ _ _ _

end Sys2Proof.Machine
end

