-- ==== Sys2Proof/Laws/Shared.lean ====
section
/-! SUPPORT. What the requests of the shared blocks can do, said once each: the free order of the stations, the log's
requests (R168, R169, R173), the account table's requests (R112, R113, R117) and its wake walks (R115), the shared counters
(R2, R129), and the execution of a host command (R192). -/

namespace Sys2Proof.Machine

/-! ## The free order -/

/-- Every free order names every station. -/
theorem mem_stationOrder (k : Nat) (n : StationId) : n ∈ Config.stationOrder k := by
  unfold Config.stationOrder
  by_cases h : n ∈ (Config.orderSeed k).dedup
  · exact List.mem_append_left _ h
  · refine List.mem_append_right _ (List.mem_filter.mpr ⟨List.mem_finRange n, ?_⟩)
    simpa using h

/-- No free order names a station twice. -/
theorem nodup_stationOrder (k : Nat) : (Config.stationOrder k).Nodup := by
  unfold Config.stationOrder
  refine List.Nodup.append (List.nodup_dedup _) ((List.nodup_finRange 16).filter _) ?_
  intro a h1 h2
  have := (List.mem_filter.mp h2).2
  simp at this
  exact this (by simpa using h1)

/-- A property that each station's turn keeps is kept by the turns of a list of stations. -/
theorem atEach_keeps {P : State → Prop} {f : StationId → State → State} (h : ∀ n s, P s → P (f n s)) :
    ∀ (l : List StationId) (s : State), P s → P (atEach l f s) := by
  intro l
  induction l with
  | nil => exact fun _ hs => hs
  | cons n l ih => exact fun s hs => ih (f n s) (h n s hs)

/-! ## The settlement log -/

/-- The LOG_LOW check changes the armed flag and the notices alone (R173). -/
theorem logLowCheck_frame (s : State) :
    logLowCheck s = { s with log := { s.log with armed := (logLowCheck s).log.armed }
                             notices := (logLowCheck s).notices } := by
  unfold logLowCheck
  split
  · split <;> rfl
  · rfl

/-- After the LOG_LOW check the flag is set exactly when the unreserved space is above 16 (R173). -/
theorem logLowCheck_armed (s : State) : (logLowCheck s).log.armed = decide (16 < s.log.unreserved) := by
  unfold logLowCheck
  split
  · rename_i h
    have h' : ¬ 16 < s.log.unreserved := by omega
    split
    · simp [raise, h']
    · rename_i ha
      simp [h', Bool.not_eq_true _ ▸ ha]
  · rename_i h
    have h' : 16 < s.log.unreserved := by omega
    simp [h']

/-- The records, the counter and the reservations pass the LOG_LOW check unchanged. -/
@[simp] theorem logLowCheck_records (s : State) : (logLowCheck s).log.records = s.log.records := by
  rw [logLowCheck_frame]
@[simp] theorem logLowCheck_counter (s : State) : (logLowCheck s).log.counter = s.log.counter := by
  rw [logLowCheck_frame]
@[simp] theorem logLowCheck_reservations (s : State) : (logLowCheck s).log.reservations = s.log.reservations := by
  rw [logLowCheck_frame]
@[simp] theorem logLowCheck_stations (s : State) : (logLowCheck s).stations = s.stations := by
  rw [logLowCheck_frame]
@[simp] theorem logLowCheck_st (s : State) (n : StationId) : (logLowCheck s).st n = s.st n := by
  simp [State.st]
@[simp] theorem logLowCheck_accounts (s : State) : (logLowCheck s).accounts = s.accounts := by
  rw [logLowCheck_frame]

/-- An admission reservation: granted against unreserved space, and then the count is one higher (R168). -/
theorem reserve_granted {s : State} (h : 1 ≤ s.log.unreserved) :
    (reserve s).1 = true ∧ (reserve s).2.log.reservations = s.log.reservations + 1 ∧
      (reserve s).2.log.records = s.log.records ∧ (reserve s).2.log.counter = s.log.counter ∧
      (reserve s).2.stations = s.stations := by
  simp [reserve, h]

/-- An admission reservation without unreserved space changes nothing (R168). -/
theorem reserve_refused {s : State} (h : s.log.unreserved = 0) : reserve s = (false, s) := by
  simp [reserve, h]

/-- A returned reservation lowers the count by one (R168). -/
theorem returnReservation_log (s : State) :
    (returnReservation s).log.reservations = s.log.reservations - 1 ∧
      (returnReservation s).log.records = s.log.records ∧ (returnReservation s).log.counter = s.log.counter := by
  simp [returnReservation]

/-- A record that joins the log takes the counter's value, and the counter advances (R165, R169). -/
theorem joinLog_log (body : LogBody) (r : Nat) (s : State) :
    (joinLog body r s).log.records = s.log.records ++ [{ number := s.log.counter, body := body }] ∧
      (joinLog body r s).log.counter = nextNumber s.log.counter ∧ (joinLog body r s).log.reservations = r := by
  unfold joinLog
  dsimp only
  split <;> simp [raise]

/-- A record that joins the log changes no station. -/
@[simp] theorem joinLog_st (body : LogBody) (r : Nat) (s : State) (n : StationId) :
    (joinLog body r s).st n = s.st n := by
  unfold joinLog
  dsimp only
  split <;> simp [raise, State.st]

/-- A reservation keeps the log within its entries. -/
theorem reserve_within {s : State} (h : s.log.within) : (reserve s).2.log.within := by
  unfold Log.within at *
  by_cases hu : 1 ≤ s.log.unreserved
  · obtain ⟨-, hr, hl, -⟩ := reserve_granted hu
    rw [hr, hl]
    unfold Log.unreserved at hu
    omega
  · simp only [reserve, if_neg hu]
    exact h

/-- An offered record keeps the log within its entries. -/
theorem offerReserved_within {s : State} (body : LogBody) (h : s.log.within) : (offerReserved body s).log.within := by
  unfold Log.within at *
  unfold offerReserved
  split
  · obtain ⟨hr, -, hn⟩ := joinLog_log body (s.log.reservations - 1) s
    rw [hr, hn]
    simp
    omega
  · exact h

/-- An offered STATEMENT keeps the log within its entries. -/
theorem offerStatement_within {s : State} (body : LogBody) (h : s.log.within) :
    (offerStatement body s).2.log.within := by
  unfold Log.within at *
  unfold offerStatement
  split
  · rename_i hu
    obtain ⟨hr, -, hn⟩ := joinLog_log body s.log.reservations s
    unfold Log.unreserved at hu
    dsimp only
    rw [hr, hn]
    simp
    omega
  · exact h

/-! ## The account table -/

/-- A hold that an admission places lies within the available funds, and the admission is below the cap (R112). -/
theorem requestAdmission_admitted {i : AccountId} {n : StationId} {floor limit dc : Nat} {s t : State}
    (h : requestAdmission i n floor s = (.admitted limit dc, t)) :
    (s.account i).state = .active ∧ (s.account i).funded.length < (s.account i).cap ∧
      (floor : Int) ≤ (s.account i).available ∧ limit = min (s.account i).available.toNat s.quantum ∧
      dc = (s.account i).discountClass ∧
      t = s.modAccount i (fun a => { a with
        funded := a.funded ++ [{ station := n, hold := limit }], sessions := satAdd max32 a.sessions 1 }) := by
  unfold requestAdmission at h
  dsimp only at h
  split at h
  · simp at h
  · split at h
    · simp at h
    · split at h
      · simp at h
      · simp only [Prod.mk.injEq, AdmissionAnswer.admitted.injEq] at h
        obtain ⟨⟨rfl, rfl⟩, rfl⟩ := h
        rename_i h1 h2 h3
        exact ⟨by simpa using h1, by omega, by omega, rfl, rfl, rfl⟩

/-- A refused admission changes nothing (R112). -/
theorem requestAdmission_refused {i : AccountId} {n : StationId} {floor : Nat} {s t : State} {a : AdmissionAnswer}
    (h : requestAdmission i n floor s = (a, t)) (ha : ∀ l d, a ≠ .admitted l d) : t = s := by
  unfold requestAdmission at h
  dsimp only at h
  split at h
  · exact (Prod.mk.inj h).2.symm
  · split at h
    · exact (Prod.mk.inj h).2.symm
    · split at h
      · exact (Prod.mk.inj h).2.symm
      · exact absurd (Prod.mk.inj h).1.symm (ha _ _)

/-- A hold extension within the available funds (R113). -/
theorem extensionAmount_le {i : AccountId} {s : State} {a : Nat} (h : extensionAmount i s = some a) :
    (s.account i).state ≠ .blocked ∧ 0 < (s.account i).available ∧
      a = min (s.account i).available.toNat s.quantum := by
  unfold extensionAmount at h
  dsimp only at h
  split at h
  · simp at h
  · split at h
    · simp at h
    · rename_i h1 h2
      exact ⟨h1, by omega, by simpa using h.symm⟩

/-! ## The shared counters -/

/-- A free tag's search stays within the tags (R129). -/
theorem freeTag_range (used : List Nat) : ∀ (k t : Nat), 1 ≤ t → t ≤ 65535 →
    1 ≤ freeTag used k t ∧ freeTag used k t ≤ 65535 := by
  intro k
  induction k with
  | zero => exact fun t h1 h2 => ⟨h1, h2⟩
  | succ k ih =>
    intro t h1 h2
    unfold freeTag
    split
    · apply ih
      · unfold nextTag; split <;> omega
      · unfold nextTag; split <;> omega
    · exact ⟨h1, h2⟩

/-! ## Host commands -/

/-- The head of the queue, when a command may execute. -/
theorem headCommand_eq {s : State} {f : Frame} {rest : List Frame} (h : Executing s f rest) :
    s.headCommand = some f := by
  obtain ⟨hn, hp, hr, hq⟩ := h
  simp [State.headCommand, State.mayExecute, hn, hp, hr, hq]

/-- No command may execute within a run (R192). -/
theorem headCommand_running {s : State} (h : s.host.run.isSome = true) : s.headCommand = none := by
  cases hr : s.host.run with
  | none => simp [hr] at h
  | some r => simp [State.headCommand, State.mayExecute, hr]

/-- The row of the command at the head of the queue executes it (R192). -/
theorem runCommand_head {s : State} {f : Frame} {mine : Frame → Bool} (rule : List Byte → State → Handled)
    (h : s.headCommand = some f) (hm : mine f = true) :
    runCommand mine rule s = complete (f.type + 0x80#8) f.tag (judge rule f s) := by
  simp [runCommand, h, hm]

/-- No row executes a command while none may (R192, R195). -/
theorem runCommand_none {s : State} (mine : Frame → Bool) (rule : List Byte → State → Handled)
    (h : s.headCommand = none) : runCommand mine rule s = s := by
  simp [runCommand, h]

/-- A command of an allowed size whose tables are ready is not refused before its own rule (R192). -/
theorem refusedBefore_none {f : Frame} {s : State} (hs : sizeAllowed f.type f.payload.length = true)
    (ht : touchesTables f.type = true → s.tablesReady = true) : refusedBefore f s = none := by
  unfold refusedBefore
  rw [if_neg (by simp [hs])]
  exact if_neg (fun h => by simp [ht h.1] at h)

/-- Such a command is taken by its own rule (R192, step 4). -/
theorem judge_rule {rule : List Byte → State → Handled} {f : Frame} {s : State}
    (hs : sizeAllowed f.type f.payload.length = true) (ht : touchesTables f.type = true → s.tablesReady = true) :
    judge rule f s = rule f.payload s := by
  simp [judge, refusedBefore_none hs ht]

/-- An account run not begun starts at its first record, where a command may execute (R120, R122, R192). -/
theorem headRun_begins {s : State} {f : Frame} {rest : List Frame} (h : Executing s f rest) :
    s.headRun = some (f, {}) := by
  simp [State.headRun, h.1, headCommand_eq h]

/-- An account run that other events have come within goes on from where it stands (R192). -/
theorem headRun_running {s : State} {r : Run} {f : Frame} {rest : List Frame} (h : Running s r f rest) :
    s.headRun = some (f, r) := by
  simp [State.headRun, h.1, h.2]

/-- The row of the account run at the head of the queue takes it on (R192). -/
theorem runAccounts_head {s : State} {f : Frame} {r : Run} {code : Nat} (rule : Run → List Byte → State → RunStep)
    (h : s.headRun = some (f, r)) (hc : ofCode code f = true) (hr : refusedBefore f s = none) :
    runAccounts code rule s = (rule r f.payload s).settle f := by
  simp [runAccounts, h, hc, judgeRun, hr]

/-! ## Side advances -/

/-- With none asked ahead, a side's advance is asked of the account table now (R117). -/
theorem takeAdvance_now {i : AccountId} {c : ClassId} {n : StationId} {s : State} (h : (s.st n).advances = []) :
    takeAdvance i c n s = requestSideAdvance i c s := by
  simp [takeAdvance, h]

/-- An advance asked ahead answers the side, and the account table is not asked again (R60). -/
theorem takeAdvance_ahead {i : AccountId} {c : ClassId} {n : StationId} {k : Nat} {rest : List (ClassId × Nat)}
    {s : State} (h : (s.st n).advances = (c, k) :: rest) :
    takeAdvance i c n s = (k, s.modSt n (fun x => { x with advances := x.advances.erase (c, k) })) := by
  simp [takeAdvance, h]

/-! ## The wake walk (R115) -/

/-- The lowest station with a property. -/
theorem lowestStation_eq_some {p : StationId → Bool} {n : StationId} :
    (List.finRange 16).find? p = some n ↔ p n = true ∧ ∀ m, p m = true → n ≤ m := by
  rw [List.find?_eq_some_iff_getElem]
  constructor
  · rintro ⟨hp, i, hi, he, hlt⟩
    refine ⟨hp, fun m hm => ?_⟩
    by_contra hc
    rw [List.getElem_finRange] at he
    have h := hlt m.val (by subst he; simpa [Fin.lt_def] using hc)
    simp [hm] at h
  · rintro ⟨hp, hlow⟩
    refine ⟨hp, n.val, by simp, by simp, fun j hj => ?_⟩
    by_contra hc
    have h := hlow ⟨j, by omega⟩ (by simpa using hc)
    exact absurd h (by simp [Fin.le_def]; omega)

/-- A station lies ahead of a walk that has not passed its position, or above it. -/
theorem Walk.ahead_iff (w : Walk) (n : StationId) :
    w.ahead n = true ↔ w.position < n ∨ (w.visited = false ∧ n = w.position) := by
  unfold Walk.ahead
  cases w.visited <;> simp only [decide_eq_true_eq, if_true, Bool.false_eq_true, if_false, le_iff_lt_or_eq] <;>
    simp [eq_comm]

/-- The station that a walk visits next is the one R115 says. -/
theorem nextVisit_eq_some {w : Walk} {funded : List Funded} {n : StationId} :
    nextVisit w funded = some n ↔ w.VisitsNext funded n := by
  unfold nextVisit
  simp only [lowestStation_eq_some, Bool.and_eq_true, List.any_eq_true, decide_eq_true_eq, Walk.ahead_iff]
  constructor
  · rintro ⟨⟨hl, ha⟩, hm⟩
    exact ⟨hl, ha, fun e he hh => hm _ ⟨⟨e, he, rfl⟩, hh⟩⟩
  · rintro ⟨hl, ha, hm⟩
    exact ⟨⟨hl, ha⟩, fun m ⟨⟨e, he, hem⟩, hh⟩ => hem ▸ hm e he (hem ▸ hh)⟩

/-- A walk visits none exactly when no station is left for it. -/
theorem nextVisit_eq_none {w : Walk} {funded : List Funded} :
    nextVisit w funded = none ↔ ∀ n, ¬ w.VisitsNext funded n := by
  simp only [Option.eq_none_iff_forall_ne_some, ne_eq, nextVisit_eq_some]

/-- A walk starts at the lowest station on the list, and none starts over an empty list. -/
theorem newWalk_started (funded : List Funded) : WakeStarted funded none (newWalk funded) where
  ends h := by subst h; rfl
  starts _ e he hlow := by
    have h : (List.finRange 16).find? (fun n => funded.any (fun e => decide (e.station = n))) = some e.station := by
      simp only [lowestStation_eq_some, List.any_eq_true, decide_eq_true_eq]
      exact ⟨⟨e, he, rfl⟩, fun m ⟨f, hf, hfm⟩ => hfm ▸ hlow f hf⟩
    simp [newWalk, h]
  marks _ h := nomatch h

/-- A wake that is started does to the account's walk what R115 says, and to nothing else of it. -/
theorem startWake_account {s : State} (hs : AccountTable.wf s.accounts) (i : AccountId) :
    ∃ walk, (startWake i s).account i = { s.account i with walk := walk } ∧
      WakeStarted (s.account i).funded (s.account i).walk walk := by
  refine ⟨_, account_modAccount_self hs i _, ?_⟩
  cases h : (s.account i).walk with
  | none => exact newWalk_started _
  | some w =>
    exact { ends := fun he => by simp [he], starts := fun hn => nomatch hn
            marks := fun v hv hne => by cases hv; simp [hne] }

/-- A walk that has visited a station goes on, ends or starts anew as R115 says. -/
theorem closeWalk_moved (a : Account) (w : Walk) (n : StationId)
    (h : a.walk = some { w with position := n, visited := true }) :
    a.closeWalk = { a with walk := a.closeWalk.walk } ∧ WalkMoved a.funded w n a.closeWalk.walk := by
  have hw (hle : ∀ e ∈ a.funded, e.station ≤ n) :
      nextVisit { w with position := n, visited := true } a.funded = none :=
    nextVisit_eq_none.2 fun m hm => by
      obtain ⟨e, he, rfl⟩ := hm.listed
      rcases hm.ahead with hlt | ⟨hv, -⟩
      · exact absurd hlt (not_lt.2 (hle e he))
      · cases hv
  refine ⟨rfl, ⟨fun ⟨e, he, hlt⟩ => ?_, fun hle hr => ?_, fun hle hr => ?_⟩⟩
  · have hn : (nextVisit { w with position := n, visited := true } a.funded).isSome = true := by
      rw [Option.isSome_iff_ne_none]
      intro hnone
      have hf := List.find?_eq_none.1 hnone e.station (List.mem_finRange _)
      exact hf (by simp only [Bool.and_eq_true, List.any_eq_true, decide_eq_true_eq, Walk.ahead_iff]
                   exact ⟨⟨e, he, rfl⟩, .inl hlt⟩)
    simp [Account.closeWalk, h, hn]
  · have hn := hw hle
    simp_all [Account.closeWalk]
  · have hc : a.closeWalk.walk = newWalk a.funded := by
      have hn := hw hle
      simp_all [Account.closeWalk]
    exact hc ▸ newWalk_started _

end Sys2Proof.Machine
end

