-- ==== Sys2Proof/Tests/Slice0.lean ====
section
/-! SUPPORT. The model's own tests: the ill-formed terms that `Instr.wf` refuses, figures of the manual's tables and worked
cases (each test names its source), and for every statement that has hypotheses a state and operands that meet them. -/

namespace Sys2Proof.Tests

open Sys2Proof Sys2Proof.Machine

-- One theorem is checked at a time, so that the checks of this file do not hold a thread each.
set_option Elab.async false

/-! ## Helpers -/

/-- The state a command leaves. -/
def after (c : Instr) (s : State) : State :=
  match exec c s with
  | .next t => t
  | .fault _ => s
  | .refused _ => s

/-- The state after reset with one station replaced. -/
def withStation (n : StationId) (x : Station) : State := State.reset.modSt n (fun _ => x)

/-- A command frame at the head of the queue. -/
def asked (type : Byte) (payload : List Byte) (s : State) : State :=
  { s with host := { s.host with queue := [⟨type, 0x2C#8, payload⟩] } }

/-- The last reply, by its status and data. -/
def lastReply (s : State) : Option (Status × List Byte) := s.host.replies.getLast?.map (fun r => (r.status, r.data))

/-- The part with its tables ready. -/
def ready : State := { State.reset with tablesReady := true }

/-- The class pricing of the worked cases of 3.6: T = 3, B1 = 20, B2 = 100, prices 100, 80 and 60. -/
def workedPricing (basis : TierBasis) : Pricing :=
  { tiers := 3, breaks := #v[20, 100, 0], prices := #v[100, 80, 60, 0], basis := basis }

/-- A tariff with that pricing: duplex rate 80, minimum 50 cents, discount class 2 at 10 percent. -/
def workedTariff (basis : TierBasis) : Tariff :=
  { header := { stamp := 42, duplex := 80, minimum := 50, discounts := #v[0, 0, 10, 0, 0, 0, 0, 50] }
    pricing := Vector.replicate 4 (workedPricing basis), ceiling := 400 }

/-- A card ID of 9 digits. -/
def card9 : CardId := [4, 9, 0, 1, 2, 0, 1, 2, 3]

/-- Another, of 8 digits. -/
def card8 : CardId := [1, 2, 3, 4, 5, 6, 7, 8]

/-- The longest, of 19 digits. -/
def card19 : CardId := [9, 8, 7, 6, 5, 4, 3, 2, 1, 0, 9, 8, 7, 6, 5, 4, 3, 2, 1]

/-- An open session. -/
def session (funding : Funding) (limit : Option Nat) : Session :=
  { number := 1207, funding := funding, card := card9, limit := limit, stamp := 42, discount := 0, gross := 180
    credited := 0, sideCounts := #v[2, 0, 0, 0], sheetsExited := 0, sheetsCredited := 0, overrunSides := 0
    jamCount := 0, jobs := 1, openTime := 0, clockSet := false, lastActivity := 0, endReason := none }

/-- A RUN job with sides released. -/
def job (released : Nat) : Job :=
  { mode := .run, originals := 3, copies := 4, duplex := true, setSides := 6, setsRemaining := 0, released := released
    reprint := 0, unmet := 0, lastSheet := none }

/-- A sheet of two sides in the path. -/
def sheet (number : Nat) : Sheet :=
  { number := number, cls := 0, sides := 2, charged := 2, mills := 180, basis := .session, overrun := false }

/-- A station in a state with a session and the worked tariff, up on its link. -/
def open_ (state : StationState) (funding : Funding) (limit : Option Nat) : Station :=
  { state := state, session := some (session funding limit), silence := 0
    tariff := { active := some (workedTariff .session) } }

/-- A request outstanding at a slot. -/
def request : Request := { tag := 7, amount := 2000, time := 0, clockSet := false, timer := 1, fetched := false }

/-- An account of 500 cents that two sessions may use. -/
def account (funded : List Funded) : Account := { state := .active, balance := 500, cap := 2, funded := funded }

/-- The part with that account at an index, its tables ready. -/
def withAccount (i : AccountId) (a : Account) (s : State) : State := { s with accounts := [(i.val, a)], tablesReady := true }

/-! ## Well-formedness: an ill-formed term for each check -/

theorem test_wf_frame_bytes : Instr.wf (.hostFrameReceived []) = false ∧ Instr.wf (.hostFrameReceived [0#8]) = true := by
  decide +kernel
theorem test_wf_station_bytes : Instr.wf (.stationFrameError 3 []) = false := by decide +kernel
theorem test_wf_card_length : Instr.wf (.card 3 [9#8]) = false ∧ Instr.wf (.card 3 (beCardId card19)) = true := by decide +kernel
theorem test_wf_card_digits : Instr.wf (.classification [1, 2, 3, 4, 5, 6, 7]) = false ∧
    Instr.wf (.classification (0 :: card19)) = false ∧ Instr.wf (.bindingLookup [1, 2, 3, 4, 5, 6, 7, 10]) = false ∧
    Instr.wf (.admissionReservation 0 []) = false ∧ Instr.wf (.classification card8) = true := by decide +kernel
theorem test_wf_side_return : Instr.wf (.sideReturn 5 0 0) = false ∧ Instr.wf (.sideReturn 5 0 17) = false ∧
    Instr.wf (.sideReturn 5 0 16) = true := by decide +kernel
theorem test_wf_posting : Instr.wf (.posting 5 3 100000000) = false ∧ Instr.wf (.posting 5 3 99999999) = true := by decide +kernel
theorem test_wf_side_price : Instr.wf (.sidePrice 0 0 .simplex 16777216 0) = false ∧
    Instr.wf (.sidePrice 0 0 .simplex 0 999999991) = false ∧
    Instr.wf (.sidePrice 0 0 .simplex 16777215 999999990) = true := by decide +kernel
theorem test_wf_settlement : Instr.wf (.settlementCharge 0 .bank 999999991 0 0 0) = false ∧
    Instr.wf (.settlementCharge 0 .bank 0 51 0 0) = false ∧
    Instr.wf (.settlementCharge 0 .bank 0 0 2147483648 0) = false ∧
    Instr.wf (.settlementCharge 0 .bank 999999990 50 2147483647 0) = true := by decide +kernel

/-- The SESSION record of the worked record of chapter 9. -/
def workedRecord : SessionRecord :=
  { number := 1207, station := 2, kind := .account, account := some 305, tags := none, cardTail := [0, 1, 2, 3]
    limit := some 2000, openTime := 0, openClockSet := true, closeTime := 0, closeClockSet := true, stamp := 42
    sideCounts := #v[60, 0, 0, 0], sheetsExited := 30, sheetsCredited := 0, creditedMills := 0, overrunSides := 0
    jamCount := 0, jobs := 1, gross := 4680, discount := 10, charge := 421, minimumApplied := false
    endReason := .finished }

def workedStatement : StatementRecord :=
  { account := 88, periodStart := 0, startClockSet := false, periodEnd := 0, endClockSet := false
    sideCounts := #v[0, 0, 0, 0], jobs := 0, sessions := 0, charge := 0 }

def workedVoid : VoidRecord := { tag := 7, station := 12, time := 0, clockSet := false, cause := .timeout }

theorem test_wf_session_record : Instr.wf (.recordOffer (.session workedRecord)) = true ∧
    Instr.wf (.recordOffer (.session { workedRecord with number := 0 })) = false ∧
    Instr.wf (.recordOffer (.session { workedRecord with number := 4294967296 })) = false ∧
    Instr.wf (.recordOffer (.session { workedRecord with gross := 999999991 })) = false ∧
    Instr.wf (.recordOffer (.session { workedRecord with discount := 51 })) = false ∧
    Instr.wf (.recordOffer (.session { workedRecord with charge := 100000000 })) = false ∧
    Instr.wf (.recordOffer (.session { workedRecord with sideCounts := #v[16777216, 0, 0, 0] })) = false ∧
    Instr.wf (.recordOffer (.session { workedRecord with account := none })) = false ∧
    Instr.wf (.recordOffer (.session { workedRecord with tags := some ([], []) })) = false ∧
    Instr.wf (.recordOffer (.session { workedRecord with limit := none })) = false ∧
    Instr.wf (.recordOffer (.session { workedRecord with cardTail := [0, 1, 2] })) = false := by decide +kernel
theorem test_wf_void_record : Instr.wf (.recordOffer (.void workedVoid)) = true ∧
    Instr.wf (.recordOffer (.void { workedVoid with tag := 0 })) = false ∧
    Instr.wf (.recordOffer (.void { workedVoid with tag := 65536 })) = false ∧
    Instr.wf (.recordOffer (.void { workedVoid with time := 4294967296 })) = false := by decide +kernel
theorem test_wf_statement_record : Instr.wf (.recordOffer (.statement workedStatement)) = true ∧
    Instr.wf (.recordOffer (.statement { workedStatement with sideCounts := #v[0, 16777216, 0, 0] })) = false ∧
    Instr.wf (.recordOffer (.statement { workedStatement with jobs := 4294967296 })) = false ∧
    Instr.wf (.recordOffer (.statement { workedStatement with sessions := 4294967296 })) = false ∧
    Instr.wf (.recordOffer (.statement { workedStatement with charge := 1000000000 })) = false := by decide +kernel

/-! ## Figures of the manual's tables and worked cases -/

/-- The published check values of the two CRCs over the nine digits "123456789". -/
theorem test_crc_check_values :
    crc16 [0x31#8, 0x32#8, 0x33#8, 0x34#8, 0x35#8, 0x36#8, 0x37#8, 0x38#8, 0x39#8] = 0x29B1#16 ∧
    crc8 [0x31#8, 0x32#8, 0x33#8, 0x34#8, 0x35#8, 0x36#8, 0x37#8, 0x38#8, 0x39#8] = 0xF4#8 := by decide +kernel

/-- "Worked frame: one notice" (chapter 12): stations 3 and 7 have jammed. -/
theorem test_worked_notice_frame :
    (after .transmitNextFrame (raiseFor .jam 7 (raiseFor .jam 3 State.reset))).host.line.take 8 =
      [0xA5#8, 0x04#8, 0xFF#8, 0x00#8, 0x05#8, 0x01#8, 0x00#8, 0x88#8] ∧
    (after .transmitNextFrame (raiseFor .jam 7 (raiseFor .jam 3 State.reset))).host.line.length = 10 := by decide +kernel

/-- The record sizes of "Worked frame: a two-segment LOG-READ reply" (chapter 12). -/
theorem test_worked_record_sizes :
    (beLogRecord ⟨5118, .session workedRecord⟩).length = 78 ∧
    (beLogRecord ⟨1, .session { workedRecord with kind := .bank, account := none, tags := some ([1, 2], [3]) }⟩).length
      = 84 ∧
    (beLogRecord ⟨1, .void workedVoid⟩).length = 15 ∧
    (beLogRecord ⟨1, .statement workedStatement⟩).length = 45 := by decide +kernel

/-- The tier table of R58. -/
theorem test_tiers_R58 : ([0, 19, 20, 99, 100, 16777215].map (tierIndex (workedPricing .session))) = [0, 0, 1, 1, 2, 2] := by
  decide +kernel

/-- The table of R63. -/
theorem test_second_sides_R63 :
    ([(100, 80), (80, 80), (65, 50), (1200, 75), (65535, 100), (99, 0)].map (fun (x : Nat × Nat) =>
      (x.1 * x.2 + 50) / 100)) = [80, 64, 33, 900, 65535, 0] ∧
    sideMills (workedTariff .session) 0 .second 1 100 = 80 ∧ sideMills (workedTariff .session) 0 .second 21 1880 = 64 := by
  decide +kernel

/-- "A sheet that crosses a breakpoint" (3.6): the first side is side 20, the second side 21. -/
theorem test_crossing_sheet : sideMills (workedTariff .session) 0 .first 19 0 = 100 ∧
    sideMills (workedTariff .session) 0 .second 20 100 = 64 := by decide +kernel

/-- The gross cap of R64. -/
theorem test_gross_cap_R64 : sideMills (workedTariff .session) 0 .simplex 0 999999990 = 0 ∧
    sideMills (workedTariff .session) 0 .simplex 0 999999950 = 40 := by decide +kernel

/-- The opening floors of R66. -/
theorem test_floors_R66 : openingFloor (workedTariff .session) = 50 ∧
    openingFloor { workedTariff .session with ceiling := 1200 } = 120 ∧
    openingFloor { workedTariff .session with
      header := { (workedTariff .session).header with minimum := 0 }, ceiling := 1 } = 1 := by decide +kernel

/-- The table of R69. -/
theorem test_cents_R69 :
    ([0, 4, 5, 4212, 4214, 4215, 999999990].map (fun g => roundedCents g 0)) = [0, 0, 1, 421, 421, 422, 99999999] := by
  decide +kernel

/-- The settlements of 3.6: the 60-side session, the minimum charge, the minimum against a small hold. -/
theorem test_worked_charges : settlementCharge (workedTariff .session) .account 4680 10 2000 60 = (421, false) ∧
    settlementCharge (workedTariff .session) .bank 300 0 2000 3 = (50, true) ∧
    settlementCharge { workedTariff .session with
      header := { (workedTariff .session).header with minimum := 500 } } .account 100 0 300 1 = (300, true) ∧
    settlementCharge (workedTariff .session) .bank 0 0 2000 0 = (0, false) := by decide +kernel

/-- The rules of the worked classification (chapter 5). -/
def workedRules : Vector Rule 32 :=
  (((((Vector.replicate 32 {}).set 0
    { enabled := true, pattern := [.digit 9, .digit 9, .digit 0, .digit 1], action := .account }).set 1
    { enabled := true, length := 10, pattern := [.digit 9, .digit 9, .digit 0, .wildcard], action := .free }).set 2
    { enabled := true, pattern := [.digit 5], action := .bank }).set 3
    { enabled := true, length := 16, pattern := [.digit 5, .digit 2], action := .bank, discountClass := 3 }).set 4
    { enabled := true, offset := 6, pattern := [.digit 0, .digit 0, .digit 0, .digit 0], action := .refuse }

theorem test_worked_classification :
    ([[9, 9, 0, 1, 2, 3, 4, 5, 6, 7], [9, 9, 0, 5, 0, 0, 0, 0, 1, 2], [5, 2, 1, 2, 3, 4, 0, 0, 0, 0, 1, 2, 3, 4, 5, 6],
      [5, 2, 9, 8, 7, 6, 5, 4, 3, 2, 1, 0, 9, 8, 7, 6], [1, 2, 3, 4, 5, 6, 7, 8]].map
      (fun c => classify { State.reset with rules := workedRules } c)) =
      [⟨.account, 0⟩, ⟨.free, 0⟩, ⟨.refuse, 0⟩, ⟨.bank, 0⟩, ⟨.refuse, 0⟩] := by decide +kernel

/-- "One grant and one extension" (chapter 2): room 900 mills gives 2 sides, and after the extension 6 pass. -/
theorem test_worked_grant :
    let x : Station := { open_ .running (.account 5) (some 2000) with
      session := some { session (.account 5) (some 2000) with gross := 18300 }, job := some (job 2) }
    x.exposure = 19100 ∧ (job 2).want 8 false = 6 ∧ x.passing 6 = 2 ∧
    { x with session := some { session (.account 5) (some 4000) with gross := 18300 } : Station }.passing 6 = 6 := by
  decide +kernel

/-- Sheet numbers in wrapped order (R37, R39): the next after 65,535 is 0, a number behind is a duplicate, and one 32,768
ahead is behind. -/
theorem test_sequence_R39 :
    let x : Station := { seqKnown := true, lastSeq := 65535 }
    x.seqVerdict 0 = some 0 ∧ x.seqVerdict 2 = some 2 ∧ x.seqVerdict 65535 = none ∧ x.seqVerdict 65534 = none ∧
    x.seqVerdict 32766 = some 32766 ∧ x.seqVerdict 32767 = none := by decide +kernel

/-- The meter deltas of chapter 10: 990 against a baseline of 1,000 has gone backwards, 0 against 3,000,000,000 has not. -/
theorem test_worked_meters : meterDelta #v[1000, 500, 0, 0] #v[990, 500, 0, 0] 0 = 4294967286 ∧
    wentBackwards #v[1000, 500, 0, 0] #v[990, 500, 0, 0] = true ∧
    meterDelta #v[3000000000, 0, 0, 0] #v[0, 0, 0, 0] 0 = 1294967296 ∧
    wentBackwards #v[3000000000, 0, 0, 0] #v[0, 0, 0, 0] = false := by decide +kernel

/-- The adjustments of chapter 6: 500 available cents, −500 is taken and leaves −200, −501 is refused. -/
theorem test_worked_adjustments :
    let a : Account := { state := .active, kind := .credit, balance := 300, creditLimit := 1000
                         funded := [⟨3, 800⟩] }
    let s (amount : Int) := after .accountAdjust (asked 0x1A#8 (be2 88 ++ beSigned4 amount) (withAccount 88 a State.reset))
    a.available = 500 ∧ ((s (-500)).account 88).balance = -200 ∧
    lastReply (s (-501)) = some (.insufficient, beSigned4 300 ++ beSigned4 500) := by decide +kernel

/-- The card ID field of R204: an odd count leaves its last half-byte Fh. -/
theorem test_card_field : beCardId card9 = [0x09#8, 0x49#8, 0x01#8, 0x20#8, 0x12#8, 0x3F#8, 0xFF#8, 0xFF#8, 0xFF#8, 0xFF#8, 0xFF#8] ∧
    cardIdOf (beCardId card9) = some card9 ∧ cardIdOf (beCardId card19) = some card19 ∧ cardIdOf (beCardId card8) = some card8 ∧
    cardIdOf (0x07#8 :: List.replicate 10 0#8) = none ∧ cardIdOf (0x14#8 :: List.replicate 10 0#8) = none ∧
    cardIdOf (0x08#8 :: 0x1A#8 :: List.replicate 9 0#8) = none := by decide +kernel

/-- "A duplex sheet against one released side" (chapter 2): one side charged as a first side, one overrun, closing. -/
theorem test_worked_overrun :
    let x : Station := { open_ .running (.account 5) (some 2000) with
      job := some (job 1), lastSeq := 317, seqKnown := true }
    let t := (after (.imaged 3 318#16 0#8 2#8) (withAccount 5 (account [⟨3, 500⟩]) (withStation 3 x))).st 3
    t.state = .closing ∧ t.session.bind Session.endReason = some .overrun ∧ t.drainTimer = some 20 ∧
    t.inPath = [⟨318, 0, 2, 1, 100, .session, true⟩] ∧ t.session.map Session.overrunSides = some 1 ∧
    t.counters.overrunSides = 1 ∧ t.sendList.getLast? = some (.panel true 1972 none) ∧ OutRecord.halt ∈ t.sendList := by
  decide +kernel

/-- The station of "starvation and wake on a shared balance" (chapter 2): RUN, window 8, single-tier price 400. -/
def hungry (limit gross released : Nat) : Station :=
  let p : Pricing := { tiers := 1, breaks := #v[0, 0, 0], prices := #v[400, 0, 0, 0], basis := .session }
  { open_ .running (.account 212) (some limit) with
    session := some { session (.account 212) (some limit) with gross := gross }, job := some (job released)
    tariff := { active := some { workedTariff .session with pricing := Vector.replicate 4 p } }, lastSeq := 0, seqKnown := true }

/-- What its table shows of the station: limit, gross, released, unmet want and state. -/
def fact (x : Station) : Option Nat × Option Nat × Option Nat × Option Nat × StationState :=
  (x.session.bind Session.limit, x.session.map Session.gross, x.job.map Job.released,
  x.job.map Job.unmet, x.state)

/-- One simplex sheet of class 1 at that station, of an account with a balance and a hold. -/
def fed (hold : Nat) (x : Station) := (after (.imaged 6 1#16 1#8 1#8) (withAccount 212
  { state := .active, balance := 2500, funded := [⟨6, hold⟩] } (withStation 6 x))).st 6

/-- Its rows IMAGED 44, 56 and 62, and the wake after the adjustment. -/
theorem test_worked_starvation :
    fact (fed 2000 (hungry 2000 17200 5)) = (some 2500, some 17600, some 8, some 0, .running) ∧
    fact (fed 2500 (hungry 2500 22000 5)) = (some 2500, some 22400, some 6, some 2, .running) ∧
    fact (fed 2500 (hungry 2500 24400 1)) = (some 2500, some 24800, some 0, some 8, .starved) ∧
    fact ((after (.wake 212) (withAccount 212
      { state := .active, balance := 3500, funded := [⟨6, 2500⟩], walk := some ⟨6, false, false⟩ }
      (withStation 6 { hungry 2500 24800 0 with
        state := .starved, job := some { job 0 with unmet := 8 } }))).st 6) =
      (some 3500, some 24800, some 8, some 0, .running) := by and_intros <;> decide +kernel

/-- The worked record of chapter 9: the 60-side session of 3.6 finishes with its own card tapped again. -/
theorem test_worked_record :
    let x : Station := { open_ .opened (.account 305) (some 2000) with session := some {
      session (.account 305) (some 2000) with
        gross := 4680, discount := 10, sideCounts := #v[60, 0, 0, 0], sheetsExited := 30, clockSet := true } }
    let s := withAccount 305 { state := .active, balance := 2000, funded := [⟨2, 2000⟩] } (withStation 2 x)
    let t := after (.card 2 (beCardId card9)) { s with clockSet := true, log := { s.log with counter := 5118, reservations := 1 } }
    t.log.records = [⟨5118, .session workedRecord⟩] ∧ t.log.counter = 5119 ∧ t.log.reservations = 0 ∧
    (t.account 305).balance = 1579 ∧ (t.account 305).funded = [] := by decide +kernel

/-! ## Witnesses: for each statement with hypotheses, a state and operands that meet them together

Each theorem is named for its statement. It gives the hypotheses of each clause at boundary values, and beside them a field
of the state that the command leaves, so that the case is seen to complete. -/

/-- The hypothesis that a frame may execute, for a frame that stands alone in the queue. -/
abbrev Asks (s : State) (type : Byte) (payload : List Byte) : Prop := Executing s ⟨type, 0x2C#8, payload⟩ []

/-- The state one step leaves. -/
def stepped (s : State) : State :=
  match step s with
  | .next t => t
  | .fault _ => s
  | .refused _ => s

/-- The part with lists of the host link. -/
def linked (queue : List Frame) (replies : List Reply) : State :=
  { State.reset with host := { queue := queue, replies := replies } }

/-- A reply that waits. -/
def waiting (size : Nat) : Reply := { type := 0x81#8, tag := 1#8, status := .ok, data := List.replicate size 7#8 }

/-- The part with a log of so many records and reservations. -/
def logged (records reservations : Nat) (s : State) : State :=
  { s with log := { records := List.replicate records ⟨1, .void workedVoid⟩, reservations := reservations, counter := 2 } }

theorem test_met_StepRunsFrontCommand :
    ({ State.reset with pending := [.shopClockTick, .identify] } : State).pending = .shopClockTick :: [.identify] ∧
    (stepped { State.reset with pending := [.shopClockTick, .identify] }).pending = [.identify] ∧
    (stepped { State.reset with pending := [.shopClockTick, .identify] }).clock = 1 := by decide +kernel

/-- A tenth of a second without a byte abandons the frames begun on the links (R190, R201). -/
theorem test_tenth_brings_gaps :
    let s := { withStation 3 { rx := .inFrame [1#8] } with tablesReady := true, host := { rx := .inFrame [] } }
    (stepped s).pending = [.hostFrameGapTimeout, .stationFrameGapTimeout 3] ∧
    (stepped (stepped s)).host.abandoned = 1 ∧
    ((stepped (stepped (stepped s))).st 3).counters.frameErrors = 1 ∧
    ((stepped (stepped (stepped s))).st 3).rx = .hunting := by decide +kernel

theorem test_met_TableInitializationAndClock :
    State.reset.tablesReady = false ∧ (after .tableInitializationComplete State.reset).tablesReady = true ∧
    ({ State.reset with clock := 4294967295 } : State).clock < 4294967296 ∧
    (after .shopClockTick { State.reset with clock := 4294967295 }).clock = 0 := by decide +kernel

/-- Stations that agree with their states where none of them waits to resume. -/
theorem agrees_of {s : State} (h : ∀ n, (s.st n).session.isSome = (s.st n).state.hasSession ∧
    (s.st n).inPath.length ≤ 8 ∧ ((s.st n).passage.isSome = true → (s.st n).state = .idle) ∧ (s.st n).prior = none)
    (n : StationId) : (s.st n).Agrees :=
  ⟨(h n).1, (h n).2.1, (h n).2.2.1, fun p hp => by rw [(h n).2.2.2] at hp; cases hp⟩

/-- A session that runs with a sheet in its path, a log with room for its record alone, the RESET reply sent. -/
def resetting : State :=
  { logged 255 1 (withStation 3 { open_ .running .free none with inPath := [sheet 1], job := some (job 4) }) with
    host := { resetPhase := .replyBegun } }

theorem test_met_WarmResetResult :
    resetting.host.resetPhase = .replyBegun ∧ (∀ n, (resetting.st n).passage = none) ∧
    AccountTable.wf resetting.accounts ∧
    resetting.log.records.length + firstRequests resetting + openSessions resetting ≤ 256 := by decide +kernel

theorem test_met_WarmResetResult_agrees : ∀ n, (resetting.st n).Agrees :=
  agrees_of (by decide +kernel)

/-- An ACCOUNT session of account 77, its entry on the funded list, that a warm reset settles. -/
theorem test_met_WarmResetResult_account :
    let s := withAccount 77 (account [⟨3, 400⟩]) (withStation 3 (open_ .running (.account 77) (some 400)))
    (s.st 3).session.map Session.funding = some (.account 77) ∧ (∃ e ∈ (s.account 77).funded, e.station = 3) ∧
    (∀ n, (s.st n).session.map Session.funding = some (.account 77) → ∃ e ∈ (s.account 77).funded, e.station = n) ∧
    (s.st 3).openTopup = [] := by decide +kernel

theorem test_met_HostReceiverJudgesFrames :
    (List.replicate 240 7#8).length ≤ 240 ∧ State.reset.host.rx = .hunting ∧
    (after (.hostFrameReceived (hostFrame 2#8 1#8 (List.replicate 4 7#8))) State.reset).host.queue =
      [⟨2#8, 1#8, List.replicate 4 7#8⟩] ∧
    (linked (List.replicate 4 ⟨1#8, 1#8, []⟩) (List.replicate 6 (waiting 0))).host.rx = .hunting ∧
    (after (.hostFrameReceived (hostFrame 1#8 1#8 []))
      (linked (List.replicate 4 ⟨1#8, 1#8, []⟩) (List.replicate 6 (waiting 0)))).host.replies.length = 7 ∧
    (after (.hostFrameReceived (hostFrame 1#8 1#8 []))
      (linked (List.replicate 4 ⟨1#8, 1#8, []⟩) (List.replicate 7 (waiting 0)))).host.discarded = 1 ∧
    natOf [0#8, 0#8] ≠ (crc16 (be1 0 ++ [1#8, 1#8] ++ [])).toNat ∧
    (after (.hostFrameReceived [0xA5#8, 0#8, 1#8, 1#8, 0#8, 0#8]) State.reset).host.crcFailures = 1 ∧
    240 < (241#8 : Byte).toNat ∧ (after (.hostFrameReceived [0xA5#8, 241#8]) State.reset).host.abandoned = 1 ∧
    ({ State.reset with host := { rx := .inFrame [1#8] } } : State).host.rx = .inFrame [1#8] ∧
    (after .hostFrameGapTimeout { State.reset with host := { rx := .inFrame [1#8] } }).host.abandoned = 1 := by
  decide +kernel

theorem test_met_HostCommandJudgements :
    Asks (asked 0#8 [] State.reset) 0#8 [] ∧ Asks (asked 0x27#8 [] State.reset) 0x27#8 [] ∧
    38 < (0x27#8 : Byte).toNat ∧
    lastReply (after .unknownCommand (asked 0x27#8 [] State.reset)) = some (.unknownCommand, [0x27#8]) ∧
    Asks (asked 0x26#8 [1#8] State.reset) 0x26#8 [1#8] ∧ isCommand 0x26#8 = true ∧ sizeAllowed 0x26#8 1 = false ∧
    lastReply (after .noticeQuery (asked 0x26#8 [1#8] State.reset)) = some (.badParameter, []) ∧
    Asks (asked 0x13#8 (beCardId card8 ++ be2 0) State.reset) 0x13#8 (beCardId card8 ++ be2 0) ∧
    sizeAllowed 0x13#8 13 = true ∧ Asks (asked 0x1D#8 (be2 0) State.reset) 0x1D#8 (be2 0) ∧
    0x13 ≤ (0x1D#8 : Byte).toNat ∧ (0x1D#8 : Byte).toNat ≤ 0x1D ∧ sizeAllowed 0x1D#8 2 = true ∧
    State.reset.tablesReady = false ∧
    lastReply (after .closePeriod (asked 0x1D#8 (be2 0) State.reset)) = some (.notReady, []) ∧
    4 ≤ (linked [⟨1#8, 1#8, []⟩] (List.replicate 4 (waiting 0))).host.replies.length ∧
    after .identify (linked [⟨1#8, 1#8, []⟩] (List.replicate 4 (waiting 0))) =
      linked [⟨1#8, 1#8, []⟩] (List.replicate 4 (waiting 0)) ∧
    ({ linked [⟨0x1A#8, 1#8, []⟩] [] with host := { queue := [⟨0x1A#8, 1#8, []⟩], run := some {} } } : State).host.run.isSome =
      true ∧
    (linked [⟨1#8, 1#8, []⟩] (List.replicate 4 (waiting 0))).host.run = none := by decide +kernel

theorem test_met_GeneralCommandResults :
    Asks (asked 0x01#8 [] State.reset) 0x01#8 [] ∧
    Asks (asked 0x02#8 (be4 4294967295) State.reset) 0x02#8 (be4 4294967295) ∧
    (after .setTime (asked 0x02#8 (be4 4294967295) State.reset)).clock = 4294967295 ∧
    Asks (asked 0x03#8 [] State.reset) 0x03#8 [] ∧
    (after .reset (asked 0x03#8 [] State.reset)).host.resetPhase = .replyListed := by decide +kernel

theorem test_met_NoticeCommandResults :
    (List.replicate 11 2#8).length = 11 ∧ (∀ l ∈ List.replicate 11 (2#8 : Byte), l.toNat ≤ 2) ∧
    Asks (asked 0x24#8 (List.replicate 11 2#8) State.reset) 0x24#8 (List.replicate 11 2#8) ∧
    ((after .noticeConfig (asked 0x24#8 (List.replicate 11 2#8) State.reset)).source .tariff).level = 2 ∧
    (∃ l ∈ List.replicate 11 (3#8 : Byte), 2 < l.toNat) ∧
    lastReply (after .noticeConfig (asked 0x24#8 (List.replicate 11 3#8) State.reset)) = some (.badParameter, []) ∧
    Asks (asked 0x25#8 [3#8] State.reset) 0x25#8 [3#8] ∧
    (after .noticeMask (asked 0x25#8 [3#8] State.reset)).notices.maskLevel = 3 ∧
    lastReply (after .noticeMask (asked 0x25#8 [4#8] State.reset)) = some (.badParameter, []) ∧
    Asks (asked 0x26#8 [] State.reset) 0x26#8 [] := by decide +kernel

/-- Sources 5 (level 1) and 2 (level 2) pending: the second goes first. -/
theorem test_met_TransmitterChoosesNextFrame :
    (linked [] [waiting 238]).host.resetPhase = .none ∧ (linked [] [waiting 238]).host.replies = waiting 238 :: [] ∧
    (after .transmitNextFrame (linked [] [waiting 238])).host.replies = [] ∧
    (after .transmitNextFrame (linked [] [waiting 239])).host.replies = [{ waiting 239 with begun := 1 }] ∧
    ((after .transmitNextFrame (linked [] [waiting 239])).host.line.drop 4).take 2 = [0#8, 0x80#8] ∧
    (after .transmitNextFrame (linked [] [{ waiting 239 with begun := 1 }])).host.line.take 6 =
      [0xA5#8, 3#8, 0x81#8, 1#8, 0#8, 1#8] ∧
    State.reset.host.replies = [] ∧
    ((raiseFor .authWaiting 3 (raiseFor .jam 3 State.reset)).source .authWaiting).pending = true ∧
    ((after .transmitNextFrame (raiseFor .authWaiting 3 (raiseFor .jam 3 State.reset))).source .authWaiting).pending =
      false ∧
    ((after .transmitNextFrame (raiseFor .authWaiting 3 (raiseFor .jam 3 State.reset))).source .jam).pending = true := by
  decide +kernel

/-- The notice transmitted there is the one the statement's hypotheses select. -/
theorem test_met_TransmitterChoosesNextFrame_source (other : NoticeSource) :
    ((raiseFor .authWaiting 3 (raiseFor .jam 3 State.reset)).source other).pending = true →
    ((raiseFor .authWaiting 3 (raiseFor .jam 3 State.reset)).source other).level < 2 ∨
      (((raiseFor .authWaiting 3 (raiseFor .jam 3 State.reset)).source other).level = 2 ∧
        NoticeSource.authWaiting.index ≤ other.index) := by
  cases other <;> decide +kernel

/-! ### Station commands -/

/-- The payload of STATION-CONFIG for a station from its fields in order. -/
def configBytes (station window mode idle recovery confirm jam threshold probe lock : Nat) : List Byte :=
  be1 station ++ be1 window ++ be1 mode ++ be2 idle ++ be2 recovery ++ be2 confirm ++ be1 jam ++ be1 threshold ++
    be1 probe ++ be1 lock

/-- What STATION-CONFIG with a payload answers after reset. -/
def configured (p : List Byte) : Option (Status × List Byte) :=
  lastReply (after .stationConfig (asked 0x04#8 p State.reset))

theorem test_met_StationConfigResult_ranges :
    Settings.InRange { window := 2, idleTime := 30, recoveryTime := 60, confirmTime := 10, jamLimit := 1
                       auditThreshold := 0, probeMinutes := 1 } ∧
    Settings.InRange { window := 16, startMode := .attended, idleTime := 900, recoveryTime := 1800, confirmTime := 300
                       jamLimit := 9, auditThreshold := 255, probeMinutes := 5, auditLock := true } :=
  ⟨⟨by decide, by decide, by decide, by decide, by decide, by decide, by decide⟩,
   ⟨by decide, by decide, by decide, by decide, by decide, by decide, by decide⟩⟩

theorem test_met_StationConfigResult :
    Asks (asked 0x04#8 (configBytes 15 16 1 900 1800 300 9 255 5 1) State.reset) 0x04#8
      (configBytes 15 16 1 900 1800 300 9 255 5 1) ∧
    ((after .stationConfig (asked 0x04#8 (configBytes 15 16 1 900 1800 300 9 255 5 1) State.reset)).st 15).settings =
      { window := 16, startMode := .attended, idleTime := 900, recoveryTime := 1800, confirmTime := 300
        jamLimit := 9, auditThreshold := 255, probeMinutes := 5, auditLock := true } ∧
    configured (configBytes 15 2 0 30 60 10 1 0 1 0) = some (.ok, []) ∧
    lastReply (after .stationConfig (asked 0x04#8 (configBytes 3 2 0 30 60 10 1 0 1 0)
      (withStation 3 { state := .authorizing }))) = some (.busy, []) ∧
    ∀ p ∈ [configBytes 16 8 0 120 600 60 3 4 5 0, configBytes 0 1 0 120 600 60 3 4 5 0,
        configBytes 0 17 0 120 600 60 3 4 5 0, configBytes 0 8 2 120 600 60 3 4 5 0,
        configBytes 0 8 0 29 600 60 3 4 5 0, configBytes 0 8 0 901 600 60 3 4 5 0, configBytes 0 8 0 120 59 60 3 4 5 0,
        configBytes 0 8 0 120 1801 60 3 4 5 0, configBytes 0 8 0 120 600 9 3 4 5 0,
        configBytes 0 8 0 120 600 301 3 4 5 0, configBytes 0 8 0 120 600 60 0 4 5 0,
        configBytes 0 8 0 120 600 60 10 4 5 0, configBytes 0 8 0 120 600 60 3 4 2 0],
      p.length = 13 ∧ Asks (asked 0x04#8 p State.reset) 0x04#8 p ∧ configured p = some (.badParameter, []) := by
  decide +kernel

theorem test_met_StationEnableResult :
    Asks (asked 0x05#8 (be2 0x8008) (withStation 3 { silence := 99 })) 0x05#8 (be2 (0x8008#16 : Mask).toNat) ∧
    ((after .stationEnable (asked 0x05#8 (be2 0x8008) (withStation 3 { silence := 99 }))).st 3).state = .idle ∧
    ((after .stationEnable (asked 0x05#8 (be2 0x8008) (withStation 3 { silence := 99 }))).st 15).state = .down := by
  decide +kernel

theorem test_met_StationDisableResult :
    Asks (asked 0x06#8 (be2 8) (withStation 3 { open_ .running .free none with inPath := [sheet 1] })) 0x06#8
      (be2 (8#16 : Mask).toNat) ∧
    (∀ n, ((withStation 3 { open_ .running .free none with inPath := [sheet 1] }).st n).passage = none) ∧
    (∀ n, ((withStation 3 { open_ .running .free none with inPath := [sheet 1] }).st n).session.isSome =
      ((withStation 3 { open_ .running .free none with inPath := [sheet 1] }).st n).state.hasSession) ∧
    (∀ x ∈ [{ state := .idle }, { state := .authorizing }, open_ .closing .free none], ∀ n,
      ((withStation 3 x).st n).passage = none ∧ ((withStation 3 x).st n).session.isSome =
        ((withStation 3 x).st n).state.hasSession) ∧
    ({ open_ .running .free none with inPath := [sheet 1] } : Station).mayClose ∧
    (open_ .starved .free none).closesAtOnce (session .free none) ∧
    (logged 255 1 (withStation 3 (open_ .starved .free none))).log.records.length +
      openSessions (logged 255 1 (withStation 3 (open_ .starved .free none))) ≤ 256 := by decide +kernel

theorem test_met_StationReports :
    Asks (asked 0x07#8 [15#8] State.reset) 0x07#8 [15#8] ∧ (15 : StationId).val = (15#8 : Byte).toNat ∧
    lastReply (after .stationQuery (asked 0x07#8 [15#8] State.reset)) =
      some (.ok, stationQueryData (State.reset.st 15)) ∧ 15 < (16#8 : Byte).toNat ∧
    lastReply (after .stationQuery (asked 0x07#8 [16#8] State.reset)) = some (.badParameter, []) ∧
    Asks (asked 0x08#8 [] State.reset) 0x08#8 [] ∧
    lastReply (after .stationList (asked 0x08#8 [] State.reset)) =
      some (.ok, List.replicate 16 0#8 ++ [0xFF#8, 0xFF#8]) := by decide +kernel

/-- A station in CONFIRMING with a SET start of 3 duplex originals and 4 copies waiting. -/
def confirming : Station :=
  { open_ .confirming .free none with
    startPending := true, confirmTimer := some 1
    descriptor := some { mode := .set, originals := 3, copies := 4, duplex := true } }

theorem test_met_AttendedStartResults :
    (State.reset.st 3).state ≠ .confirming ∧
    Asks (asked 0x09#8 (be1 3) State.reset) 0x09#8 (be1 (3 : StationId).val) ∧
    Asks (asked 0x0A#8 (be1 3) State.reset) 0x0A#8 (be1 (3 : StationId).val) ∧
    Asks (asked 0x0B#8 (be1 3) State.reset) 0x0B#8 (be1 (3 : StationId).val) ∧
    lastReply (after .startDeny (asked 0x0A#8 (be1 3) State.reset)) = some (.notPending, []) ∧
    Asks (asked 0x09#8 [16#8] State.reset) 0x09#8 [16#8] ∧ Asks (asked 0x0A#8 [16#8] State.reset) 0x0A#8 [16#8] ∧
    Asks (asked 0x0B#8 [16#8] State.reset) 0x0B#8 [16#8] ∧
    lastReply (after .startConfirm (asked 0x09#8 [16#8] State.reset)) = some (.badParameter, []) ∧
    lastReply (after .startConfirm (asked 0x09#8 [15#8] State.reset)) = some (.notPending, []) ∧
    ((withStation 3 confirming).st 3).state = .confirming ∧
    ((after .startDeny (asked 0x0A#8 (be1 3) (withStation 3 confirming))).st 3).state = .opened ∧
    ((after .cancelStart (asked 0x0B#8 (be1 3) (withStation 3 confirming))).st 3).idleTimer = some 120 ∧
    confirming.descriptor = some { mode := .set, originals := 3, copies := 4, duplex := true } ∧
    confirming.session = some (session .free none) ∧
    ((after .startConfirm (asked 0x09#8 (be1 3) (withStation 3 confirming))).st 3).job.map Job.released = some 6 ∧
    Descriptor.runsAsSet { mode := .set, originals := 3, copies := 4, duplex := true } = true ∧
    Descriptor.startRequest { mode := .set, originals := 3, copies := 4, duplex := true } 8 = 6 ∧
    Descriptor.runsAsSet { mode := .set, originals := 33, copies := 1, duplex := true } = false ∧
    ((after .startConfirm (asked 0x09#8 (be1 3) (withStation 3 confirming))).st 3).job.map Job.setsRemaining = some 3 := by
  decide +kernel

/-- A station with a sheet in its path, its idle timer at its last second. -/
def feeding (state : StationState) : Station :=
  { open_ state .free none with inPath := [sheet 1], idleTimer := some 1, job := some (job 4) }

/-- A BANK session with a sheet in its path and a top-up outstanding, at a station whose request waits. -/
def asking (path : List Sheet) : State :=
  { logged 255 1 (withStation 3 { open_ .running (.bank [6] [5] 2) (some 2000) with
      slot := .topup card9 2 request, inPath := path, job := some (job 0) }) with fetchOrder := [5, 3] }

/-- A top-up that closing takes back, with a sheet in the path and without one (R26, R140). -/
theorem test_met_ClosingStartsOnItsCauses_topup :
    ((asking [sheet 1]).st 3).mayClose ∧ ((asking [sheet 1]).st 3).slot = .topup card9 2 request ∧
    ((after (.finish 3) (asking [sheet 1])).st 3).slot = .active card9 2 ∧
    ((after (.finish 3) (asking [sheet 1])).st 3).session.map Session.funding = some (.bank [6] [5, 7] 2) ∧
    (after (.finish 3) (asking [sheet 1])).fetchOrder = [5] ∧
    ((asking []).st 3).closesAtOnce (session (.bank [6] [5] 2) (some 2000)) ∧ ((asking []).st 3).openTopup = [7] ∧
    ((after (.finish 3) (asking [])).st 3).slot = .free ∧ (after (.finish 3) (asking [])).fetchOrder = [5] ∧
    (after (.finish 3) (asking [])).log.records.getLast?.map (fun r => match r.body with
      | .session x => x.tags | _ => none) = some (some ([6], [5, 7])) := by decide +kernel

/-- An ACCOUNT session of 180 mills, charged its minimum of 50 cents, with another session on the account. -/
theorem test_met_ClosingStartsOnItsCauses_charge :
    let s := asked 0x0C#8 (be1 3) (withAccount 77 (account [⟨5, 50⟩, ⟨3, 400⟩])
      (withStation 3 (open_ .opened (.account 77) (some 400))))
    let t := after .endSession s
    AccountTable.wf s.accounts ∧ NoOtherSettled 77 3 s t ∧ (∃ e ∈ (s.account 77).funded, e.station = 3) ∧
    (t.account 77).balance = 450 ∧ (t.account 77).charge = 50 ∧ (t.account 77).funded = [⟨5, 50⟩] ∧
    (t.account 77).walk.isSome = true ∧ (∀ e ∈ (s.account 77).funded, e.station = 3 → 50 < e.hold) ∧
    lastReply (after .endSession (asked 0x0C#8 (be1 16) State.reset)) = some (.badParameter, []) ∧
    Asks (asked 0x0C#8 [16#8] State.reset) 0x0C#8 [16#8] := by decide +kernel

theorem test_met_ClosingStartsOnItsCauses :
    Asks (asked 0x0C#8 (be1 3) State.reset) 0x0C#8 (be1 (3 : StationId).val) ∧ (State.reset.st 3).session = none ∧
    lastReply (after .endSession (asked 0x0C#8 (be1 3) State.reset)) = some (.wrongState, []) ∧
    ((withStation 3 (feeding .suspended)).st 3).mayClose ∧ (feeding .suspended).state ≠ .closing ∧
    ((after .endSession (asked 0x0C#8 (be1 3) (withStation 3 (feeding .suspended)))).st 3).drainTimer = some 20 ∧
    ((withStation 3 (open_ .opened .free none)).st 3).session = some (session .free none) ∧
    (session .free none).endReason = none ∧ (open_ .opened .free none).inPath = [] ∧
    (logged 255 1 (withStation 3 (open_ .opened .free none))).log.records.length < 256 ∧
    (after .endSession (asked 0x0C#8 (be1 3) (logged 255 1 (withStation 3 (open_ .opened .free none))))).log.records.length
      = 256 ∧
    (feeding .jammedSession).passage = none ∧ (feeding .jammedSession).mayClose ∧
    ((after (.finish 3) (withStation 3 (feeding .jammedSession))).st 3).state = .closing ∧
    (feeding .starved).mayClose ∧ (feeding .starved).idleTimer.isSome = true ∧
    ((after (.idleTimerExpiry 3) (withStation 3 (feeding .starved))).st 3).session.bind Session.endReason =
      some .idleTimeout ∧
    (open_ .opened .free none).closesAtOnce (session .free none) ∧
    (open_ .jammedSession .free none).closesAtOnce (session .free none) ∧
    ((after (.finish 3) (logged 255 1 (withStation 3 (open_ .jammedSession .free none)))).st 3).state = .jammedFree ∧
    ((after (.idleTimerExpiry 3) (logged 255 1 (withStation 3
      { open_ .starved .free none with idleTimer := some 1 }))).st 3).state = .idle := by decide +kernel

/-- A session that closes with its drain timer at the last second. -/
def draining : Station :=
  { open_ .closing (.bank [7] [] 0) (some 2000) with
    session := some { session (.bank [7] [] 0) (some 2000) with endReason := some .finished }
    inPath := [sheet 1], drainTimer := some 1, slot := .active card9 0 }

theorem test_met_DrainExpirySettles :
    draining.state = .closing ∧ draining.drainTimer.isSome = true ∧
    draining.session = some { session (.bank [7] [] 0) (some 2000) with endReason := some .finished } ∧
    (logged 255 1 (withStation 3 draining)).log.records.length < 256 ∧
    (after (.drainTimerExpiry 3) (logged 255 1 (withStation 3 draining))).log.records.length = 256 ∧
    ((after (.drainTimerExpiry 3) (logged 255 1 (withStation 3 draining))).st 3).state = .idle ∧
    ((after (.drainTimerExpiry 3) (logged 255 1 (withStation 3 draining))).st 3).slot = .free ∧
    draining.passage = none ∧ draining.job = none ∧ draining.inPath ≠ [] ∧
    (∀ e ∈ draining.inPath, atOrBefore e.number (1#16 : BitVec 16).toNat = true) ∧
    ((after (.exited 3 1#16) (logged 255 1 (withStation 3 draining))).st 3).state = .idle ∧
    (∃ e ∈ draining.inPath, atOrBefore e.number (0#16 : BitVec 16).toNat = false) ∧
    ((after (.exited 3 0#16) (logged 255 1 (withStation 3 draining))).st 3).state = .closing ∧
    ((after (.jam 3 9#8 1#8) (logged 255 1 (withStation 3 draining))).st 3).state = .jammedFree ∧
    ((after (.announce 3 1#16 1#8 8#8) (logged 255 1 (withStation 3 draining))).st 3).state = .idle := by
  decide +kernel

/-! ### Tariffs -/

/-- The staged sections of the worked tariff, all loaded. -/
def staged : TariffStore :=
  { header := some (workedTariff .session).header, pricing := Vector.replicate 4 (some (workedPricing .session)) }

/-- The payload of a HEADER section and of a pricing section, from their fields. -/
def headerBytes (selector stamp duplex minimum discount : Nat) : List Byte :=
  be1 selector ++ be2 stamp ++ be1 duplex ++ be2 minimum ++ (List.replicate 8 discount).flatMap be1
def pricingBytes (selector tiers basis : Nat) : List Byte :=
  be1 selector ++ be1 tiers ++ [20, 100, 65535].flatMap be2 ++ [65535, 80, 60, 0].flatMap be2 ++ be1 basis

/-- The part after STAGE-TARIFF with a payload. -/
def staging (p : List Byte) (s : State) : State := after .stageTariff (asked 0x0D#8 p s)

theorem test_met_StageTariffResult :
    (headerBytes 4 1 80 50 0).length = 14 ∧ (pricingBytes 0 1 0).length = 17 ∧
    Asks (asked 0x0D#8 (headerBytes 4 1 80 50 0) { State.reset with tariffs := { check := some (1#16, .now) } }) 0x0D#8
      (headerBytes 4 1 80 50 0) ∧
    lastReply (staging (headerBytes 4 1 80 50 0) { State.reset with tariffs := { check := some (1#16, .now) } }) =
      some (.busy, []) ∧
    (∀ p ∈ [headerBytes 5 1 80 50 0, pricingBytes 4 1 0, headerBytes 3 1 80 50 0, pricingBytes 0 0 0,
        pricingBytes 3 5 0, pricingBytes 3 1 2],
      Asks (asked 0x0D#8 p State.reset) 0x0D#8 p ∧ lastReply (staging p State.reset) = some (.badParameter, [])) ∧
    State.reset.tariffs.check = none ∧
    (staging (headerBytes 4 65535 255 65535 255) State.reset).tariffs.header =
      some { stamp := 65535, duplex := 255, minimum := 65535, discounts := Vector.replicate 8 255 } ∧
    (staging (pricingBytes 3 4 1) State.reset).tariffs.pricing[3] = some
      { tiers := 4, breaks := #v[20, 100, 65535], prices := #v[65535, 80, 60, 0], basis := .period } := by
  decide +kernel

theorem test_met_TariffApplyAndCompletion :
    Asks (asked 0x0E#8 (be2 8 ++ [1#8]) { State.reset with tariffs := staged }) 0x0E#8
      (be2 (8#16 : Mask).toNat ++ [1#8]) ∧
    lastReply (after .tariffApply (asked 0x0E#8 (be2 8 ++ [1#8])
      { State.reset with tariffs := { check := some (1#16, .now) } })) = some (.busy, []) ∧
    lastReply (after .tariffApply (asked 0x0E#8 (be2 8 ++ [2#8]) State.reset)) = some (.badParameter, []) ∧
    lastReply (after .tariffApply (asked 0x0E#8 (be2 0 ++ [0#8]) State.reset)) = some (.badParameter, []) ∧
    (after .tariffApply (asked 0x0E#8 (be2 8 ++ [1#8]) { State.reset with tariffs := staged })).tariffs.check =
      some (8#16, .now) ∧
    ({ State.reset with tariffs := { staged with check := some (8#16, .now) } } : State).tariffs.check =
      some (8#16, .now) ∧
    (∀ n, (State.reset.st n).passage = none) ∧
    (judgeStaged staged).toOption.map Tariff.ceiling = some 100 ∧
    (match judgeStaged {} with | .error r => decide (r = .sectionEmpty .header) | .ok _ => false) = true := by
  decide +kernel

/-- The staged tariff with one section or header replaced. -/
def restaged (header : Header) (last : Pricing) : TariffStore :=
  { staged with header := some header, pricing := staged.pricing.set 3 (some last) }

/-- The worked header and pricing at the ends of the checker's ranges, and one beyond each in the tests' order. -/
theorem test_met_TariffApplyAndCompletion_tests :
    let h := (workedTariff .session).header
    let q := workedPricing .session
    let judged (ts : TariffStore) : Option CheckResult :=
      match judgeStaged ts with
      | .error r => some r
      | .ok _ => none
    judged { staged with pricing := staged.pricing.set 3 none } = some (.sectionEmpty (.pricing 3)) ∧
    judged (restaged { h with stamp := 0 } q) = some .badStamp ∧
    judged (restaged { h with duplex := 101 } q) = some .badDuplex ∧
    judged (restaged { h with minimum := 2001 } q) = some .badMinimum ∧
    judged (restaged { h with discounts := h.discounts.set 7 51 } q) = some .badDiscount ∧
    judged (restaged h { q with breaks := #v[0, 100, 0] }) = some (.badBreakpoints 3) ∧
    judged (restaged h { q with breaks := #v[100, 100, 0] }) = some (.badBreakpoints 3) ∧
    judged (restaged h { q with prices := #v[100, 80, 81, 0] }) = some (.badPrices 3) ∧
    judged { staged with pricing := Vector.replicate 4 (some { q with prices := #v[0, 0, 0, 0] }) } = some .noPrice ∧
    judged (restaged { h with duplex := 100, minimum := 2000 } { q with tiers := 1, prices := #v[65535, 65535, 0, 0] }) =
      none := by decide +kernel

theorem test_met_TariffApplyAndCompletion_classes :
    ({ workedPricing .session with breaks := #v[0, 100, 0] } : Pricing).BadBreaks ∧
    ({ workedPricing .session with prices := #v[100, 80, 81, 0] } : Pricing).BadPrices ∧
    ¬ (workedPricing .session).BadBreaks ∧ ¬ (workedPricing .session).BadPrices := by
  unfold Pricing.BadBreaks Pricing.BadPrices
  decide +kernel

theorem test_met_TariffQueryResults :
    Asks (asked 0x0F#8 [0#8, 0#8] State.reset) 0x0F#8 [0x00#8, 0#8] ∧
    Asks (asked 0x0F#8 [1#8, 0#8] State.reset) 0x0F#8 [0x01#8, 0#8] ∧
    Asks (asked 0x0F#8 [2#8, 15#8] State.reset) 0x0F#8 [0x02#8, 15#8] ∧
    Asks (asked 0x0F#8 [3#8, 15#8] State.reset) 0x0F#8 [0x03#8, 15#8] ∧
    lastReply (after .tariffQueryActive (asked 0x0F#8 [2#8, 16#8] State.reset)) = some (.badParameter, []) ∧
    lastReply (after .tariffQueryNext (asked 0x0F#8 [3#8, 16#8] State.reset)) = some (.badParameter, []) ∧
    Asks (asked 0x0F#8 [4#8, 0#8] State.reset) 0x0F#8 [4#8, 0#8] ∧
    lastReply (after .tariffQueryStatus (asked 0x0F#8 [4#8, 0#8] State.reset)) = some (.badParameter, []) ∧
    (lastReply (after .tariffQueryStaged (asked 0x0F#8 [1#8, 0#8] { State.reset with tariffs := staged }))).map Prod.fst =
      some .ok := by decide +kernel

theorem test_met_CommitResult :
    (State.reset.st 3).state = .disabled ∧ (State.reset.st 3).tariff.next = none ∧
    ((withStation 3 { tariff := { next := some (workedTariff .session), status := .pending } }).st 3).tariff.next =
      some (workedTariff .session) ∧
    ((after (.commit 3) (withStation 3 { tariff := { next := some (workedTariff .session), status := .pending } })).st
      3).tariff = { active := some (workedTariff .session), status := .applied } := by decide +kernel

/-! ### Cards -/

/-- A rule at its limits: it asks for 19 digits and compares the last. -/
def lastRule : Rule := { enabled := true, length := 19, offset := 18, pattern := [.digit 9], action := .free, discountClass := 7 }

/-- A rule's payload from its fields, with a pattern of bytes. -/
def ruleBytes (number enabled length offset count action cls : Nat) (pattern : List Byte) : List Byte :=
  be1 number ++ be1 enabled ++ be1 length ++ be1 offset ++ be1 count ++ (pattern ++ List.replicate 8 0#8).take 8 ++
    be1 action ++ be1 cls

theorem test_met_CardRuleCommandResults :
    Asks (asked 0x10#8 (beRule 31 lastRule) State.reset) 0x10#8 (beRule (31 : Fin 32).val lastRule) ∧
    (8 ≤ lastRule.length ∧ lastRule.length ≤ 19) ∧ lastRule.offset ≤ 18 ∧ 1 ≤ lastRule.pattern.length ∧
    lastRule.discountClass ≤ 7 ∧ lastRule.offset + lastRule.pattern.length ≤ 19 ∧
    lastRule.offset + lastRule.pattern.length ≤ lastRule.length ∧
    (after .ruleWrite (asked 0x10#8 (beRule 31 lastRule) State.reset)).rules[31] = lastRule ∧
    (∀ p ∈ [ruleBytes 32 1 0 0 1 0 0 [1#8], ruleBytes 0 2 0 0 1 0 0 [1#8], ruleBytes 0 1 7 0 1 0 0 [1#8],
        ruleBytes 0 1 20 0 1 0 0 [1#8], ruleBytes 0 1 0 19 1 0 0 [1#8], ruleBytes 0 1 0 0 0 0 0 [1#8],
        ruleBytes 0 1 0 0 9 0 0 [1#8], ruleBytes 0 1 0 0 1 4 0 [1#8], ruleBytes 0 1 0 0 1 0 8 [1#8],
        ruleBytes 0 1 0 18 2 0 0 [1#8], ruleBytes 0 1 8 8 1 0 0 [1#8], ruleBytes 0 1 0 0 1 0 0 [10#8],
        ruleBytes 0 1 0 0 2 0 0 [1#8, 14#8]],
      p.length = 15 ∧ Asks (asked 0x10#8 p State.reset) 0x10#8 p ∧
        lastReply (after .ruleWrite (asked 0x10#8 p State.reset)) = some (.badParameter, [])) ∧
    Asks (asked 0x11#8 (be1 31) State.reset) 0x11#8 (be1 (31 : Fin 32).val) ∧ 31 < (32#8 : Byte).toNat ∧
    lastReply (after .ruleRead (asked 0x11#8 [32#8] State.reset)) = some (.badParameter, []) ∧
    lastReply (after .defaultAction (asked 0x12#8 [4#8, 0#8] State.reset)) = some (.badParameter, []) ∧
    lastReply (after .defaultAction (asked 0x12#8 [0#8, 8#8] State.reset)) = some (.badParameter, []) ∧
    Asks (asked 0x12#8 (be1 3 ++ be1 7) State.reset) 0x12#8
      (be1 (⟨.free, 7⟩ : CardOutcome).action.code ++ be1 (⟨.free, 7⟩ : CardOutcome).discountClass) ∧
    (after .defaultAction (asked 0x12#8 (be1 3 ++ be1 7) State.reset)).defaultAction = ⟨.free, 7⟩ := by
  decide +kernel

/-- The pattern of that rule holds decimal digits. -/
theorem test_met_CardRuleCommandResults_pattern : ∀ d, PatternDigit.digit d ∈ lastRule.pattern → d ≤ 9 := by
  intro d h
  simp only [lastRule, List.mem_singleton, PatternDigit.digit.injEq] at h
  omega

/-- The part with its tables ready and bindings of three cards. -/
def bound : State :=
  { ready with bindings := [⟨card8, 77, false⟩, ⟨card9, 77, true⟩, ⟨card19, 2047, false⟩] }

/-- A binding table that is full: 4,096 times one card. -/
def full : State := { ready with bindings := List.replicate 4096 ⟨card8, 77, false⟩ }

theorem test_met_BindingCommandResults :
    CardId.wf card9 = true ∧ CardId.wf card8 = true ∧ CardId.wf card19 = true ∧ ready.tablesReady = true ∧
    Asks (asked 0x13#8 (beCardId card9 ++ be2 2047) ready) 0x13#8 (beCardId card9 ++ be2 (2047 : AccountId).val) ∧
    (after .bindCard (asked 0x13#8 (beCardId card9 ++ be2 2047) ready)).bindings = [⟨card9, 2047, false⟩] ∧
    (∃ b ∈ bound.bindings, b.card = card9) ∧
    lastReply (after .bindCard (asked 0x13#8 (beCardId card9 ++ be2 0) bound)) = some (.duplicate, []) ∧
    Asks (asked 0x14#8 (beCardId card8) bound) 0x14#8 (beCardId card8) ∧
    (after .unbindCard (asked 0x14#8 (beCardId card8) bound)).bindings = bound.bindings.tail ∧
    (∀ b ∈ ready.bindings, b.card ≠ card8) ∧
    lastReply (after .unbindCard (asked 0x14#8 (beCardId card8) ready)) = some (.notFound, []) ∧
    (List.replicate 11 (7#8 : Byte)).length = 11 ∧ cardIdOf (List.replicate 11 7#8) = none ∧ 2047 < natOf (be2 2048) ∧
    lastReply (after .bindCard (asked 0x13#8 (beCardId card8 ++ be2 2048) ready)) = some (.badParameter, []) ∧
    lastReply (after .unbindCard (asked 0x14#8 (List.replicate 11 7#8) ready)) = some (.badParameter, []) ∧
    lastReply (after .bindingQueryByCard (asked 0x16#8 (be1 0 ++ List.replicate 11 7#8) ready)) =
      some (.badParameter, []) ∧
    Asks (asked 0x16#8 (be1 0 ++ beCardId card19) bound) 0x16#8 (be1 0 ++ beCardId card19) ∧
    bound.bindings = [⟨card8, 77, false⟩, ⟨card9, 77, true⟩] ++ ⟨card19, 2047, false⟩ :: [] ∧
    lastReply (after .bindingQueryByCard (asked 0x16#8 (be1 0 ++ beCardId card19) bound)) =
      some (.ok, be2 3 ++ beBinding ⟨card19, 2047, false⟩ ++ be2 2) ∧
    lastReply (after .bindingQueryByCard (asked 0x16#8 (be1 0 ++ beCardId card8) ready)) = some (.notFound, be2 0) ∧
    Asks (asked 0x16#8 (be1 1 ++ be2 4095 ++ be1 8) bound) 0x16#8 (be1 1 ++ be2 4095 ++ be1 8) ∧
    lastReply (after .bindingQueryByPosition (asked 0x16#8 (be1 1 ++ be2 4095 ++ be1 8) bound)) =
      some (.ok, be2 3 ++ be1 0) := by and_intros <;> decide +kernel

/-- BINDING-QUERY BY_POSITION past the ends of its ranges. -/
theorem test_met_BindingCommandResults_ranges :
    (∀ q ∈ [(4096, 8), (4095, 0), (4095, 9)], (4095 < q.1 ∨ q.2 = 0 ∨ 8 < q.2) ∧
      Asks (asked 0x16#8 (be1 1 ++ be2 q.1 ++ be1 q.2) bound) 0x16#8 (be1 1 ++ be2 q.1 ++ be1 q.2) ∧
      lastReply (after .bindingQueryByPosition (asked 0x16#8 (be1 1 ++ be2 q.1 ++ be1 q.2) bound)) =
        some (.badParameter, [])) := by decide +kernel

/-- The full table holds 4,096 bindings, none of them another card's. -/
theorem test_met_BindingCommandResults_full : 4096 ≤ full.bindings.length ∧ ∀ b ∈ full.bindings, b.card ≠ card9 := by
  refine ⟨Nat.le_of_eq (List.length_replicate (n := 4096)).symm, fun b h => ?_⟩
  rw [List.eq_of_mem_replicate h]
  decide

theorem test_met_MarkLostResult :
    CardId.wf card9 = true ∧ bound.tablesReady = true ∧
    Asks (asked 0x15#8 (beCardId card9) (bound.modSt 3 (fun _ => feeding .running))) 0x15#8 (beCardId card9) ∧
    lastReply (after .markLost (asked 0x15#8 (beCardId card9) ready)) = some (.notFound, []) ∧
    (∃ b ∈ (bound.modSt 3 (fun _ => feeding .running)).bindings, b.card = card9) ∧
    ((bound.modSt 3 (fun _ => feeding .running)).st 3).session.map Session.card = some card9 ∧
    ((bound.modSt 3 (fun _ => feeding .running)).st 3).mayClose ∧
    ((bound.modSt 3 (fun _ => feeding .running)).st 5).session.map Session.card ≠ some card9 ∧
    (open_ .opened .free none).closesAtOnce (session .free none) ∧ (session .free none).card = card9 ∧
    (logged 255 1 (bound.modSt 3 (fun _ => open_ .opened .free none))).log.records.length +
      openSessions (logged 255 1 (bound.modSt 3 (fun _ => open_ .opened .free none))) ≤ 256 := by
  decide +kernel

theorem test_met_CardRouterAnswers :
    (∀ k : Fin 32, State.reset.rules[k].matchesCard card9 = false) ∧
    ({ State.reset with rules := workedRules } : State).rules[(2 : Fin 32)].matchesCard
      [5, 2, 9, 8, 7, 6, 5, 4, 3, 2, 1, 0, 9, 8, 7, 6] = true ∧
    State.reset.tablesReady = false ∧ bound.tablesReady = true ∧
    (after (.bindingLookup card19) bound).answer = some (.binding (some ⟨card19, 2047, false⟩)) := by
  decide +kernel

/-- A station in IDLE with the worked tariff. -/
def idle : Station := { state := .idle, silence := 0, tariff := { active := some (workedTariff .session) } }

/-- An admission in passage whose card is to be classified, and one whose binding is to be looked up. The answers stand with
them. -/
theorem test_met_CardRouterAnswers_passage :
    (({ idle with passage := some { card := card9, hold := none } } : Station).tariff.active.isSome = true) ∧
    ((after (.classification card9 (some 3)) (withStation 3 { idle with passage := some { card := card9, hold := none } })).st
      3).passage = some { card := card9, outcome := some ⟨.refuse, 0⟩, hold := none } ∧
    ((after (.bindingLookup card9 (some 3)) (bound.modSt 3 (fun _ => { idle with
      passage := some { card := card9, outcome := some ⟨.account, 0⟩, hold := none } }))).st 3).passage =
        some { card := card9, outcome := some ⟨.account, 0⟩, found := some (some ⟨card9, 77, true⟩), hold := none } ∧
    ((after (.classification card8 (some 3)) (withStation 3 { idle with passage := some { card := card9, hold := none } })).st
      3).passage = some { card := card9, hold := none } := by decide +kernel

/-- That station under a default action, with a log. -/
def receiving (action : CardAction) (records reservations : Nat) : State :=
  { logged records reservations (withStation 3 idle) with defaultAction := ⟨action, 0⟩ }

theorem test_met_CardAdmissionResult :
    CardId.wf card9 = true ∧ idle.state = .idle ∧ idle.passage = none ∧ idle.session = none ∧
    idle.settings.auditLock = false ∧ idle.slot = .free ∧ idle.tariff.active.isSome = true ∧
    (receiving .free 250 6).log.unreserved = 0 ∧ 1 ≤ (receiving .free 250 5).log.unreserved ∧
    (classify (receiving .free 250 5) card9).action = .free ∧ (classify (receiving .bank 250 5) card9).action = .bank ∧
    (classify (receiving .refuse 250 5) card9).action = .refuse ∧
    ((after (.card 3 (beCardId card9)) (receiving .free 250 6)).st 3).sendList = [.panel true 0 (some .logFull)] ∧
    ((after (.card 3 (beCardId card9)) ((receiving .free 250 5).modSt 3 (fun x => { x with tariff := {} }))).st
      3).sendList = [.panel true 0 (some .noTariff)] ∧
    ((after (.card 3 (beCardId card9)) (receiving .refuse 250 5)).st 3).sendList = [.panel true 0 (some .refused)] ∧
    ((after (.card 3 (beCardId card9)) (receiving .free 250 5)).st 3).state = .opened ∧
    ((after (.card 3 (beCardId card9)) (receiving .bank 250 5)).st 3).state = .authorizing ∧
    (after (.card 3 (beCardId card9)) (receiving .bank 250 5)).fetchOrder = [3] := by decide +kernel

/-- That station for an ACCOUNT card whose binding names an account. -/
def billing (lost : Bool) (a : Account) : State :=
  { withAccount 77 a (receiving .account 250 5) with bindings := [⟨card9, 77, lost⟩] }

/-- What the copier is told of the card there, and the state the station is in. -/
def admitted (s : State) : StationState × List OutRecord :=
  (((after (.card 3 (beCardId card9)) s).st 3).state, ((after (.card 3 (beCardId card9)) s).st 3).sendList)

/-- The floor of the worked tariff is 50 cents: 50 are admitted and 49 are not. -/
theorem test_met_AccountCardAdmission :
    (billing false (account [])).tablesReady = true ∧ AccountTable.wf (billing false (account [])).accounts ∧
    1 ≤ (billing false (account [])).log.unreserved ∧
    ((billing false (account [])).st 3).tariff.active = some (workedTariff .session) ∧
    (classify (billing false (account [])) card9).action = .account ∧
    lookupBinding (billing false (account [])) card9 = some ⟨card9, 77, false⟩ ∧
    admitted { billing false (account []) with bindings := [] } = (.idle, [.panel true 0 (some .unknownCard)]) ∧
    admitted (billing true (account [])) = (.idle, [.panel true 0 (some .lostCard)]) ∧
    admitted (billing false { account [] with state := .blocked }) = (.idle, [.panel true 0 (some .refused)]) ∧
    admitted (billing false (account [⟨5, 0⟩, ⟨6, 0⟩])) = (.idle, [.panel true 0 (some .inUse)]) ∧
    admitted (billing false { account [] with balance := 49 }) = (.idle, [.panel true 0 (some .noFunds)]) ∧
    admitted (billing false { account [⟨5, 0⟩] with balance := 50 }) = (.opened, [.panel false 50 none]) ∧
    ((after (.card 3 (beCardId card9)) (billing false (account []))).account 77).funded = [⟨3, 500⟩] := by
  decide +kernel

theorem test_met_CardTapResult :
    (feeding .running).passage = none ∧ (feeding .running).session = some (session .free none) ∧
    CardId.wf (session .free none).card = true ∧ (feeding .running).mayClose ∧
    ((after (.card 3 (beCardId card9)) (withStation 3 (feeding .running))).st 3).state = .closing ∧
    CardId.wf card8 = true ∧ card8 ≠ (session .free none).card ∧
    ((after (.card 3 (beCardId card8)) (withStation 3 (feeding .running))).st 3).state = .running ∧
    cardIdOf (List.replicate 11 0#8) = none ∧
    ((after (.card 3 (List.replicate 11 0#8)) (withStation 3 (feeding .running))).st 3).serviceDue = true ∧
    (open_ .jammedSession .free none).closesAtOnce (session .free none) ∧
    ((after (.card 3 (beCardId card9)) (logged 255 1 (withStation 3 (open_ .jammedSession .free none)))).st 3).state =
      .jammedFree ∧
    ((after (.card 3 (beCardId card8)) (withStation 3 (open_ .jammedSession .free none))).st 3).sendList = [] := by
  decide +kernel

/-! ### Accounts -/

/-- The payload of ACCOUNT-WRITE for one record. -/
def recordBytes (i : Nat) (w : AccountFields) : List Byte :=
  be2 i ++ be1 1 ++ (be1 w.state.code ++ be1 w.kind.code ++ beSigned4 w.balance ++ be4 w.creditLimit ++ be1 w.cap ++
    be1 w.discountClass)

/-- Records at the ends of the fields' ranges, and one below the available funds a write may leave. -/
def highest : AccountFields := ⟨.active, .credit, 99999999, 99999999, 4, 7⟩
def lowest : AccountFields := ⟨.free, .credit, -99999999, 99999999, 1, 0⟩
def short : AccountFields := ⟨.active, .credit, -101, 100, 1, 0⟩

theorem test_met_AccountWriteAndReadResults :
    (∀ w ∈ [highest, lowest, short], Asks (asked 0x17#8 (recordBytes 2047 w) ready) 0x17#8
        (recordBytes (2047 : AccountId).val w) ∧ -99999999 ≤ w.balance ∧ w.balance ≤ 99999999 ∧
        w.creditLimit ≤ 99999999 ∧ 1 ≤ w.cap ∧ w.cap ≤ 4 ∧ w.discountClass ≤ 7) ∧
    ready.tablesReady = true ∧ AccountTable.wf ready.accounts ∧ (ready.account 2047).funded = [] ∧
    ((after (.accountWriteRecords none) (asked 0x17#8 (recordBytes 2047 highest) ready)).account 2047).balance = 99999999 ∧
    ((after (.accountWriteRecords none) (asked 0x17#8 (recordBytes 2047 lowest) ready)).account 2047).creditLimit = 99999999 ∧
    short.balance + (if short.kind = .credit then (short.creditLimit : Int) else 0) < 0 ∧
    lastReply (after (.accountWriteRecords none) (asked 0x17#8 (recordBytes 2047 short) ready)) =
      some (.badParameter, be1 0) ∧
    ((withAccount 2047 (account [⟨3, 1⟩]) State.reset).account 2047).funded ≠ [] ∧
    lastReply (after (.accountWriteRecords none) (asked 0x17#8 (recordBytes 2047 highest)
      (withAccount 2047 (account [⟨3, 1⟩]) State.reset))) = some (.busy, be1 0) ∧
    Asks (asked 0x18#8 (be4 50000) ready) 0x18#8 (be4 50000) ∧
    (after .accountWriteQuantum (asked 0x18#8 (be4 50000) ready)).quantum = 50000 ∧
    (after .accountWriteQuantum (asked 0x18#8 (be4 100) ready)).quantum = 100 ∧
    lastReply (after .accountWriteQuantum (asked 0x18#8 (be4 99) ready)) = some (.badParameter, []) ∧
    lastReply (after .accountWriteQuantum (asked 0x18#8 (be4 50001) ready)) = some (.badParameter, []) ∧
    Asks (asked 0x19#8 (be2 2040 ++ be1 8) ready) 0x19#8 (be2 2040 ++ be1 8) ∧
    (lastReply (after (.accountRead none) (asked 0x19#8 (be2 2040 ++ be1 8) ready))).map Prod.fst = some .ok := by
  decide +kernel

/-- A run of two records from index 2046, and the run after its first. -/
def pair : Frame := ⟨0x17#8, 0x2C#8, be2 2046 ++ be1 2 ++ (highest.bytes ++ highest.bytes)⟩
def paused (r : Run) (f : Frame) (s : State) : State := { s with host := { queue := [f], run := some r } }

theorem test_met_AccountWriteAndReadResults_runs :
    (∀ w ∈ [highest, lowest, short], recordBytes 2047 w = be2 2047 ++ be1 1 ++ w.bytes) ∧
    (2047 : AccountId).val = (2046 : AccountId).val + 1 ∧
    0 ≤ highest.balance + (if highest.kind = .credit then (highest.creditLimit : Int) else 0) ∧
    Executing (asked 0x17#8 pair.payload ready) pair [] ∧
    (after (.accountWriteRecords (some 1)) (asked 0x17#8 pair.payload ready)).host.run = some { taken := 1 } ∧
    Running (paused { taken := 1 } pair ready) { taken := 1 } pair [] ∧
    lastReply (after (.accountWriteRecords none) (paused { taken := 1 } pair ready)) = some (.ok, be1 2) ∧
    lastReply (after (.accountWriteRecords none) (paused { taken := 1 } pair
      (withAccount 2047 (account [⟨3, 1⟩]) State.reset))) = some (.busy, be1 1) ∧
    (after (.accountRead (some 7)) (asked 0x19#8 (be2 2040 ++ be1 8) ready)).host.run =
      some { taken := 7, read := List.replicate 7 {} } ∧
    Running (paused { taken := 1, read := [account []] } ⟨0x19#8, 0x2C#8, be2 2046 ++ be1 2⟩ ready)
      { taken := 1, read := [account []] } ⟨0x19#8, 0x2C#8, be2 2046 ++ be1 2⟩ [] ∧
    lastReply (after (.accountRead none)
      (paused { taken := 1, read := [account []] } ⟨0x19#8, 0x2C#8, be2 2046 ++ be1 2⟩ ready)) =
        some (.ok, be1 2 ++ beAccount (account []) ++ beAccount {} ++ be4 2000) := by decide +kernel

/-- Runs, counts and a record's fields past the ends of their ranges, each field at the first value beyond. -/
theorem test_met_AccountWriteAndReadResults_bad :
    (∀ q ∈ [(2048, 1, 1), (0, 0, 1), (0, 9, 8), (2047, 2, 2), (5, 2, 1)],
      let p := be2 q.1 ++ be1 q.2.1 ++ List.replicate (12 * q.2.2) (1#8 : Byte)
      Asks (asked 0x17#8 p ready) 0x17#8 p ∧ sizeAllowed 0x17#8 p.length = true ∧
      lastReply (after (.accountWriteRecords none) (asked 0x17#8 p ready)) = some (.badParameter, be1 0)) ∧
    (∀ r ∈ [be1 3 ++ be1 1 ++ beSigned4 0 ++ be4 0 ++ be1 1 ++ be1 0, be1 1 ++ be1 2 ++ beSigned4 0 ++ be4 0 ++ be1 1 ++ be1 0,
        be1 1 ++ be1 1 ++ beSigned4 (-100000000) ++ be4 0 ++ be1 1 ++ be1 0,
        be1 1 ++ be1 1 ++ beSigned4 100000000 ++ be4 0 ++ be1 1 ++ be1 0,
        be1 1 ++ be1 1 ++ beSigned4 0 ++ beSigned4 (-1) ++ be1 1 ++ be1 0,
        be1 1 ++ be1 1 ++ beSigned4 0 ++ be4 100000000 ++ be1 1 ++ be1 0,
        be1 1 ++ be1 1 ++ beSigned4 0 ++ be4 0 ++ be1 0 ++ be1 0, be1 1 ++ be1 1 ++ beSigned4 0 ++ be4 0 ++ be1 5 ++ be1 0,
        be1 1 ++ be1 1 ++ beSigned4 0 ++ be4 0 ++ be1 1 ++ be1 8],
      r.length = 12 ∧
      lastReply (after (.accountWriteRecords none) (asked 0x17#8 (be2 2047 ++ be1 1 ++ r) ready)) =
        some (.badParameter, be1 0)) ∧
    (∀ q ∈ [(2048, 1), (0, 0), (0, 9), (2041, 8)], lastReply (after (.accountRead none)
      (asked 0x19#8 (be2 q.1 ++ be1 q.2) ready)) = some (.badParameter, [])) := by decide +kernel

/-- The records of those runs lie in their ranges. -/
theorem test_met_AccountWriteAndReadResults_ranges : highest.InRange ∧ lowest.InRange ∧ short.InRange := by
  unfold AccountFields.InRange
  decide

/-- ACCOUNT-ADJUST by an amount of an account at index 88. -/
def adjusted (amount : Int) (a : Account) : State :=
  after .accountAdjust (asked 0x1A#8 (be2 88 ++ beSigned4 amount) (withAccount 88 a State.reset))

theorem test_met_AccountAdjustAndBlockResults :
    Asks (asked 0x1A#8 (be2 88 ++ beSigned4 (-99999999)) (withAccount 88 (account []) State.reset)) 0x1A#8
      (be2 (88 : AccountId).val ++ beSigned4 (-99999999)) ∧
    AccountTable.wf (withAccount 88 (account []) State.reset).accounts ∧
    (lastReply (adjusted 99999999 { balance := 1 })).map Prod.fst = some .wrongState ∧
    (lastReply (adjusted 99999999 { account [] with balance := 1 })).map Prod.fst = some .badParameter ∧
    (lastReply (adjusted (-1) { account [] with balance := -99999999 })).map Prod.fst = some .badParameter ∧
    (lastReply (adjusted (-501) (account []))).map Prod.fst = some .insufficient ∧
    ((adjusted (-500) (account [])).account 88).balance = 0 ∧
    ((adjusted 1 (account [⟨3, 500⟩])).account 88).walk = some ⟨3, false, false⟩ ∧
    Asks (asked 0x1B#8 (be2 88) ready) 0x1B#8 (be2 (88 : AccountId).val) ∧
    lastReply (after .accountBlock (asked 0x1B#8 (be2 88) ready)) = some (.wrongState, []) ∧
    ((after .accountBlock (asked 0x1B#8 (be2 88) (withAccount 88 (account []) State.reset))).account 88).state =
      .blocked ∧
    Asks (asked 0x1C#8 (be2 88) ready) 0x1C#8 (be2 (88 : AccountId).val) ∧
    lastReply (after .accountUnblock (asked 0x1C#8 (be2 88) ready)) = some (.wrongState, []) ∧
    lastReply (after .accountUnblock (asked 0x1C#8 (be2 88) (withAccount 88 (account []) State.reset))) =
      some (.ok, []) ∧
    ((after .accountUnblock (asked 0x1C#8 (be2 88)
      (withAccount 88 { account [⟨3, 1⟩] with state := .blocked } State.reset))).account 88).walk =
        some ⟨3, false, false⟩ := by decide +kernel

/-- The amounts and indices at the ends of their ranges and past them (R123 to R125). -/
theorem test_met_AccountAdjustAndBlockResults_ranges :
    ((adjusted 99999999 { account [] with balance := 0 }).account 88).balance = 99999999 ∧
    (∀ amount ∈ [(100000000 : Int), -100000000],
      Asks (asked 0x1A#8 (be2 88 ++ beSigned4 amount) (withAccount 88 (account []) State.reset)) 0x1A#8
        (be2 (88 : AccountId).val ++ beSigned4 amount) ∧
      lastReply (adjusted amount (account [])) = some (.badParameter, beSigned4 500 ++ beSigned4 500) ∧
      lastReply (adjusted amount {}) = some (.badParameter, beSigned4 0 ++ beSigned4 0)) ∧
    Asks (asked 0x1A#8 (be2 2048 ++ beSigned4 1) ready) 0x1A#8 (be2 2048 ++ beSigned4 1) ∧
    lastReply (after .accountAdjust (asked 0x1A#8 (be2 2048 ++ beSigned4 1) ready)) = some (.badParameter, []) ∧
    (lastReply (after .accountAdjust (asked 0x1A#8 (be2 2047 ++ beSigned4 1) ready))).map Prod.fst = some .wrongState ∧
    lastReply (after .accountBlock (asked 0x1B#8 (be2 2048) ready)) = some (.badParameter, []) ∧
    lastReply (after .accountBlock (asked 0x1B#8 (be2 2047) ready)) = some (.wrongState, []) ∧
    lastReply (after .accountUnblock (asked 0x1C#8 (be2 2048) ready)) = some (.badParameter, []) ∧
    lastReply (after .accountUnblock (asked 0x1C#8 (be2 2047) ready)) = some (.wrongState, []) := by decide +kernel

/-- CLOSE-PERIOD of account 88 with a log. -/
def periodClosed (a : Account) (records reservations : Nat) : State :=
  after .closePeriod (asked 0x1D#8 (be2 88) (logged records reservations (withAccount 88 a State.reset)))

theorem test_met_ClosePeriodResult :
    (logged 250 5 (withAccount 88 (account []) State.reset)).tablesReady = true ∧
    AccountTable.wf (logged 250 5 (withAccount 88 (account []) State.reset)).accounts ∧
    Asks (asked 0x1D#8 (be2 88) (logged 250 5 (withAccount 88 (account []) State.reset))) 0x1D#8
      (be2 (88 : AccountId).val) ∧
    (logged 250 5 State.reset).log.unreserved = 1 ∧ (logged 250 6 State.reset).log.unreserved = 0 ∧
    Asks (asked 0x1D#8 (be2 2048) ready) 0x1D#8 (be2 2048) ∧
    lastReply (after .closePeriod (asked 0x1D#8 (be2 2048) ready)) = some (.badParameter, []) ∧
    lastReply (periodClosed (account [⟨3, 1⟩]) 250 5) = some (.busy, []) ∧
    lastReply (periodClosed (account []) 250 6) = some (.logFull, []) ∧
    lastReply (periodClosed { account [] with jobs := 9 } 250 5) = some (.ok, be4 2) ∧
    ((periodClosed { account [] with jobs := 9 } 250 5).account 88).jobs = 0 := by decide +kernel

/-- The station of a card in passage, with an account at index 77. -/
def passing (a : Account) : State :=
  withAccount 77 a (withStation 3 { idle with passage := some { card := card9, hold := none } })

/-- A station that runs an ACCOUNT session of index 77. -/
def drawing (a : Account) : State := withAccount 77 a (withStation 3 (open_ .running (.account 77) (some 500)))

theorem test_met_AdmissionAndExtensionResults :
    AccountTable.wf (passing (account [])).accounts ∧ ((passing (account [])).st 3).passage = some { card := card9, hold := none } ∧
    ((passing (account [])).st 3).tariff.active = some (workedTariff .session) ∧
    (after (.admission 3 77) (passing { account [] with state := .blocked })).answer =
      some (.admission .refusedState) ∧
    (after (.admission 3 77) (passing (account [⟨5, 0⟩, ⟨6, 0⟩]))).answer = some (.admission .refusedCap) ∧
    (after (.admission 3 77) (passing { account [] with balance := 49 })).answer = some (.admission .refusedFloor) ∧
    ((passing (account [])).st 3).state = .idle ∧
    (({ card := card9, hold := none } : Passage).hold = none ∧ ({ card := card9, hold := none } : Passage).refused = none) ∧
    ((after (.admission 3 77) (passing { account [] with balance := 49 })).st 3).passage =
      some { card := card9, refused := some .noFunds, hold := none } ∧
    (let s := withAccount 77 (account []) (after (.admission 3 77) (passing { account [] with balance := 49 }))
     ((after (.status 3) s).st 3).sendList = [.panel true 0 (some .noFunds)] ∧
     ((after (.status 3) s).st 3).state = .idle ∧ (after (.handover 3) s).answer = s.answer) ∧
    (after (.admission 3 77) (passing { account [⟨5, 0⟩] with balance := 50 })).answer =
      some (.admission (.admitted 50 0)) ∧
    AccountTable.wf (drawing (account [⟨3, 500⟩])).accounts ∧
    ((drawing (account [⟨3, 500⟩])).st 3).session = some (session (.account 77) (some 500)) ∧
    (session (.account 77) (some 500)).funding = .account 77 ∧
    (after (.holdExtension 3) (drawing (account [⟨3, 500⟩]))).answer = some (.extension none) ∧
    (after (.holdExtension 3) (drawing { account [⟨3, 499⟩] with state := .blocked })).answer = some (.extension none) ∧
    (after (.holdExtension 3) (drawing (account [⟨3, 499⟩]))).answer = some (.extension (some 1)) ∧
    ((after (.holdExtension 3) (drawing (account [⟨3, 499⟩]))).account 77).funded = [⟨3, 500⟩] := by
  decide +kernel

theorem test_met_PeriodCountersAndPosting :
    AccountTable.wf (drawing (account [⟨5, 10⟩, ⟨3, 400⟩, ⟨6, 20⟩])).accounts ∧
    ((drawing (account [⟨5, 10⟩, ⟨3, 400⟩, ⟨6, 20⟩])).account 77).funded =
      [⟨5, 10⟩] ++ ({ station := 3, hold := 400 } : Funded) :: [⟨6, 20⟩] ∧
    (∀ e ∈ ([⟨5, 10⟩] : List Funded) ++ [⟨6, 20⟩], e.station ≠ 3) ∧
    ((after (.posting 77 3 400) (drawing (account [⟨5, 10⟩, ⟨3, 400⟩, ⟨6, 20⟩]))).account 77).walk = none ∧
    ((after (.posting 77 3 399) (drawing (account [⟨5, 10⟩, ⟨3, 400⟩, ⟨6, 20⟩]))).account 77).walk =
      some ⟨5, false, false⟩ ∧
    ((after (.posting 77 3 399) (drawing (account [⟨5, 10⟩, ⟨3, 400⟩, ⟨6, 20⟩]))).account 77).balance = 101 ∧
    (after (.sideAdvance 77 3 (some 3)) (drawing { account [] with sides := #v[0, 0, 0, 16777215] })).answer =
      some (.count 16777215) ∧
    ((after (.sideReturn 77 3 16) (drawing { account [] with sides := #v[0, 0, 0, 15] })).account 77).sides[3] = 0 ∧
    ((after (.jobCount 77) (drawing { account [] with jobs := 4294967295 })).account 77).jobs = 4294967295 ∧
    ((drawing (account [])).st 3).session.map Session.funding = some (.account 77) ∧
    ((after (.sideAdvance 77 3 (some 3)) (drawing { account [] with sides := #v[0, 0, 0, 16777215] })).st 3).advances =
      [(3, 16777215)] ∧
    ((after (.sideAdvance 77 3 (some 5)) (drawing (account []))).st 5).advances = [] := by
  decide +kernel

/-- An account that funds stations 3 and 5, with a wake walk in progress. -/
def walking (w : Walk) : Account := { account [⟨5, 10⟩, ⟨3, 400⟩] with walk := some w }

/-- The account's walk after one command. -/
def walkAfter (c : Instr) (a : Account) : Option Walk := ((after c (drawing a)).account 77).walk

/-- The wake of the station a walk starts at, then of the next; the walk's end, and its start anew. -/
theorem test_met_WakeVisitsNextStation :
    ((drawing (account [])).account 77).walk = none ∧ AccountTable.wf (drawing (walking ⟨3, false, false⟩)).accounts ∧
    ((drawing (walking ⟨3, false, false⟩)).account 77).walk = some ⟨3, false, false⟩ ∧
    Walk.VisitsNext ⟨3, false, false⟩ (walking ⟨3, false, false⟩).funded 3 ∧
    ((drawing (walking ⟨3, false, false⟩)).st 3).state ≠ .starved ∧
    walkAfter (.wake 77) (walking ⟨3, false, false⟩) = some ⟨3, true, false⟩ ∧
    Walk.VisitsNext ⟨3, true, false⟩ (walking ⟨3, true, false⟩).funded 5 ∧
    walkAfter (.wake 77) (walking ⟨3, true, false⟩) = none ∧
    walkAfter (.wake 77) (walking ⟨3, true, true⟩) = some ⟨3, false, false⟩ := by
  refine ⟨?_, ?_, ?_, ⟨?_, ?_, ?_⟩, ?_, ?_, ⟨?_, ?_, ?_⟩, ?_, ?_⟩ <;> decide +kernel

/-- A walk that has started at station 5, where station 3 has joined the list before the wake: station 3 is not visited
(R115). A walk whose stations from its position up have left the list visits none. -/
theorem test_met_WakeVisitsNextStation_below :
    Walk.VisitsNext ⟨5, false, false⟩ (walking ⟨5, false, false⟩).funded 5 ∧
    walkAfter (.wake 77) (walking ⟨5, false, false⟩) = none ∧
    (∀ n, ¬ Walk.VisitsNext ⟨5, true, false⟩ (walking ⟨5, true, false⟩).funded n) ∧
    walkAfter (.wake 77) (walking ⟨5, true, false⟩) = none ∧
    walkAfter (.wake 77) (walking ⟨5, true, true⟩) = some ⟨3, false, false⟩ ∧
    walkAfter (.posting 77 5 10) (walking ⟨5, false, false⟩) = some ⟨5, true, false⟩ ∧
    walkAfter (.posting 77 5 9) (walking ⟨3, true, false⟩) = some ⟨3, true, true⟩ := by
  refine ⟨⟨?_, ?_, ?_⟩, ?_, fun n h => ?_, ?_, ?_, ?_, ?_⟩
  case refine_5 =>
    obtain ⟨⟨e, he, rfl⟩, ha, -⟩ := h
    revert e
    decide
  all_goals decide +kernel

/-- The wake of a STARVED station, which retries its grant. -/
theorem test_met_WakeVisitsNextStation_starved :
    let s := (drawing (walking ⟨3, false, false⟩)).modSt 3 (fun x => { x with state := .starved, job := some (job 0) })
    (s.st 3).state = .starved ∧ (s.account 77).walk = some ⟨3, false, false⟩ ∧
    ((after (.wake 77) s).account 77).walk = some ⟨3, true, false⟩ ∧
    ((after (.wake 77) s).st 3).state = .running ∧
    ((after (.wake 77) s).st 3).job.map Job.released = some 8 := by decide +kernel

/-- The worked tariff is sound. -/
theorem workedTariff_sound : (workedTariff .session).Sound where
  duplex := by decide
  prices := fun c count => by
    have h (k : Nat) : [100, 80, 60, 0].getD k 0 ≤ 400 := by
      match k with
      | 0 => decide
      | 1 => decide
      | 2 => decide
      | 3 => decide
      | k + 4 => simp
    revert c
    intro c
    fin_cases c <;> exact h _

/-- The part with an ACCOUNT session whose job has sides released, its account's funds held to the last cent. -/
def solvent : State :=
  (drawing (account [⟨3, 500⟩])).modSt 3 (fun x => { x with job := some (job 12) })

/-- Its exposure is 180 + 12 × 400 = 4,980 mills against 5,000. -/
theorem test_met_AvailableFundsStayNonNegative : solvent.Solvent where
  tables := by decide +kernel
  agrees := agrees_of (by decide +kernel)
  owned := by decide +kernel
  once := by decide +kernel
  funds := by decide +kernel
  limits := fun n ses h =>
    (by decide +kernel : ∀ n, ∀ ses ∈ (solvent.st n).session, (ses.funding = .free ↔ ses.limit = none)) n ses h
  exposure := fun n ses l h k =>
    (by decide +kernel : ∀ n, ∀ ses ∈ (solvent.st n).session, ∀ l ∈ ses.limit,
      ses.gross + (solvent.st n).released * (solvent.st n).ceiling ≤ 10 * l) n ses h l k
  jobs := by decide +kernel
  topups := fun n card dc req h => by
    have free : ∀ n, (solvent.st n).slot = .free := by decide +kernel
    rw [free n] at h
    cases h
  tariffs := fun n tf h => by
    have none : ∀ n, (solvent.st n).tariff.next = .none := by decide +kernel
    have held : ∀ n, ∀ tf ∈ (solvent.st n).tariff.active, tf = workedTariff .session := by decide +kernel
    rcases h with h | h
    · exact held n tf h ▸ workedTariff_sound
    · rw [none n] at h
      cases h

/-- One cent of available funds makes one extension, and the fifth ceiling of room one more side. -/
theorem test_solvent_steps :
    ((after (.holdExtension 3) (drawing (account [⟨3, 499⟩]))).account 77).available = 0 ∧
    (stepped { solvent with pending := [] }).tenths = 1 := by decide +kernel

/-! ### The bank exchange -/

/-- A station whose slot has a first request outstanding. -/
def awaiting (state : StationState) : Station :=
  { state := state, silence := 0, slot := .requested card9 2 request, tariff := { active := some (workedTariff .session) } }

/-- The part with that station at 3, its request in the fetch order and its reservation counted. -/
def banking (x : Station) : State := { logged 255 1 (withStation 3 x) with fetchOrder := [3] }

/-- AUTH-RESULT for tag 7. -/
def result (amount : Nat) (s : State) : State := after .authResult (asked 0x1F#8 (be2 7 ++ be4 amount) s)

theorem test_met_AuthFetchResults :
    Asks (asked 0x1E#8 [] (banking (awaiting .authorizing))) 0x1E#8 [] ∧
    (banking (awaiting .authorizing)).fetchOrder.Nodup ∧
    ((after .authFetchNew (asked 0x1E#8 [] (banking (awaiting .authorizing)))).st 3).slot =
      .requested card9 2 { request with fetched := true } ∧
    Asks (asked 0x1E#8 [15#8] (banking (awaiting .authorizing))) 0x1E#8 [15#8] ∧
    lastReply (after .authFetchOutstanding (asked 0x1E#8 [15#8] (banking (awaiting .authorizing)))) =
      some (.ok, [1#8, 0#8]) ∧
    lastReply (after .authFetchOutstanding (asked 0x1E#8 [16#8] State.reset)) = some (.badParameter, []) := by
  decide +kernel

/-- The floor of the worked tariff is 50 cents. -/
theorem test_met_AuthResultOfFirstRequest :
    Asks (asked 0x1F#8 (be2 7 ++ be4 50) (banking (awaiting .authorizing))) 0x1F#8 (be2 request.tag ++ be4 50) ∧
    ((banking (awaiting .authorizing)).st 3).slot = .requested card9 2 request ∧ 1 ≤ request.tag ∧
    request.tag ≤ 65535 ∧
    (∀ m, ((banking (awaiting .authorizing)).st m).slot.request.map Request.tag = some request.tag → m = 3) ∧
    ((banking (awaiting .authorizing)).st 3).tariff.active = some (workedTariff .session) ∧
    (banking (awaiting .authorizing)).log.records.length < 256 ∧
    max (workedTariff .session).header.minimum (((workedTariff .session).ceiling + 9) / 10) = 50 ∧
    ((result 50 (banking (awaiting .authorizing))).st 3).session.map (fun x => (x.limit, x.discount)) =
      some (some 50, 10) ∧
    ((result 99999999 (banking (awaiting .authorizing))).st 3).session.map Session.limit = some (some 2000) ∧
    (result 49 (banking (awaiting .authorizing))).log.records.length = 256 ∧
    ((result 49 (banking (awaiting .authorizing))).st 3).state = .idle ∧
    ((result 50 (banking (awaiting .down))).st 3).slot = .free ∧
    (result 0 (banking (awaiting .authorizing))).log.reservations = 0 ∧
    ((result 0 (banking (awaiting .authorizing))).st 3).state = .idle := by decide +kernel

/-- A station of a BANK session whose slot has a top-up outstanding. -/
def toppingUp (state : StationState) : Station :=
  { open_ state (.bank [6] [] 1) (some 2000) with slot := .topup card9 2 request, job := some (job 0) }

theorem test_met_AuthResultOfTopup :
    Asks (asked 0x1F#8 (be2 7 ++ be4 1) (banking (toppingUp .opened))) 0x1F#8 (be2 request.tag ++ be4 1) ∧
    ((banking (toppingUp .opened)).st 3).slot = .topup card9 2 request ∧
    (∀ m, ((banking (toppingUp .opened)).st m).slot.request.map Request.tag = some request.tag → m = 3) ∧
    (toppingUp .opened).session = some (session (.bank [6] [] 1) (some 2000)) ∧
    ((result 1 (banking (toppingUp .opened))).st 3).session =
      some { session (.bank [6] [] 1) (some 2000) with limit := some 2001, funding := .bank [6, 7] [] 1 } ∧
    ((result 99999999 (banking (toppingUp .starved))).st 3).session.map Session.limit = some (some 4000) ∧
    ((result 99999999 (banking (toppingUp .starved))).st 3).state = .running ∧
    ((result 0 (banking (toppingUp .opened))).st 3).slot = .active card9 2 ∧
    Asks (asked 0x1F#8 (be2 65535 ++ be4 0) State.reset) 0x1F#8 (be2 65535 ++ be4 0) ∧
    (∀ m, (State.reset.st m).slot.request.map Request.tag ≠ some 65535) ∧
    lastReply (result 5 State.reset) = some (.tooLate, []) ∧
    (toppingUp .starved).job = some (job 0) ∧
    ((result 99999999 (banking (toppingUp .starved))).st 3).job.map Job.released = some 8 ∧
    ((result 99999999 (banking (toppingUp .starved))).st 3).session.map Session.funding = some (.bank [6, 7] [] 1) ∧
    ((result 1 (banking { toppingUp .starved with session := some { session (.bank [6] [] 1) (some 2000) with
      gross := 20000 } })).st 3).session.map Session.funding = some (.bank [6, 7] [] 2) := by decide +kernel

/-- A tag or an amount out of range (R133). -/
theorem test_met_AuthResultOfTopup_ranges :
    (∀ q ∈ [((0 : Nat), (1 : Int)), (7, -1), (7, 100000000)],
      Asks (asked 0x1F#8 (be2 q.1 ++ beSigned4 q.2) (banking (toppingUp .opened))) 0x1F#8 (be2 q.1 ++ beSigned4 q.2) ∧
      lastReply (after .authResult (asked 0x1F#8 (be2 q.1 ++ beSigned4 q.2) (banking (toppingUp .opened)))) =
        some (.badParameter, [])) := by decide +kernel

/-! ### The log and the audit -/

theorem test_met_LogReadAndDropResults :
    Asks (asked 0x20#8 [4#8] (logged 2 3 State.reset)) 0x20#8 [4#8] ∧
    (lastReply (after .logRead (asked 0x20#8 [4#8] (logged 2 3 State.reset)))).map (fun x => (x.1, x.2.length)) =
      some (.ok, 41) ∧
    lastReply (after .logRead (asked 0x20#8 [5#8] (logged 2 3 State.reset))) = some (.badParameter, []) ∧
    Asks (asked 0x21#8 (be2 256 ++ be4 1) (logged 256 0 State.reset)) 0x21#8 (be2 256 ++ be4 1) ∧
    (logged 256 0 State.reset).log.records.head?.map LogRecord.number = some 1 ∧
    256 ≤ (logged 256 0 State.reset).log.records.length ∧
    (after .logDrop (asked 0x21#8 (be2 256 ++ be4 1) (logged 256 0 State.reset))).log.records = [] ∧
    (lastReply (after .logDrop (asked 0x21#8 (be2 257 ++ be4 1) (logged 256 0 State.reset)))).map Prod.fst =
      some .badParameter ∧
    (lastReply (after .logDrop (asked 0x21#8 (be2 0 ++ be4 1) (logged 1 0 State.reset)))).map Prod.fst =
      some .badParameter ∧
    (lastReply (after .logDrop (asked 0x21#8 (be2 1 ++ be4 2) (logged 1 0 State.reset)))).map Prod.fst =
      some .badParameter ∧
    (lastReply (after .logDrop (asked 0x21#8 (be2 2 ++ be4 1) (logged 1 0 State.reset)))).map Prod.fst =
      some .badParameter := by decide +kernel

/-- A station whose audit is in a state, with the baseline of the worked drift of chapter 10 and its threshold. -/
def audited (state : AuditState) (accounted : PerClass Accounted) : Station :=
  { idle with
    settings := { auditThreshold := 2, probeMinutes := 1, auditLock := true }
    audit := { state := state, baseline := some #v[81200, 4010, 0, 0], latest := some #v[81200, 4010, 0, 0]
               accounted := accounted, readings := 1 } }

theorem test_met_AuditCommandResults :
    (0x8008#16 : Mask) ≠ 0#16 ∧ Asks (asked 0x22#8 (be2 0x8008 ++ [0#8]) State.reset) 0x22#8
      (be2 (0x8008#16 : Mask).toNat ++ [0x00#8]) ∧
    Asks (asked 0x22#8 (be2 0x8008 ++ [1#8]) State.reset) 0x22#8 (be2 (0x8008#16 : Mask).toNat ++ [0x01#8]) ∧
    Asks (asked 0x22#8 (be2 0x8008 ++ [2#8]) State.reset) 0x22#8 (be2 (0x8008#16 : Mask).toNat ++ [0x02#8]) ∧
    ((after .auditControlStart (asked 0x22#8 (be2 8 ++ [0#8]) (withStation 3 idle))).st 3).sendList = [.probe] ∧
    ((after .auditControlStop (asked 0x22#8 (be2 8 ++ [1#8])
      (withStation 3 (audited .tracking (Vector.replicate 4 {}))))).st 3).audit.state = .off ∧
    ((after .auditControlClear (asked 0x22#8 (be2 8 ++ [2#8])
      (withStation 3 (audited .tracking #v[{ billed := 5 }, {}, {}, {}])))).st 3).audit.accounted =
        Vector.replicate 4 {} ∧
    Asks (asked 0x23#8 [15#8] State.reset) 0x23#8 [15#8] ∧
    lastReply (after .auditQuery (asked 0x23#8 [16#8] State.reset)) = some (.badParameter, []) ∧
    lastReply (after (rowOf ⟨0x22#8, 0#8, be2 8 ++ [3#8]⟩) (asked 0x22#8 (be2 8 ++ [3#8]) State.reset)) =
      some (.badParameter, []) ∧
    lastReply (after (rowOf ⟨0x22#8, 0#8, be2 0 ++ [1#8]⟩) (asked 0x22#8 (be2 0 ++ [1#8]) State.reset)) =
      some (.badParameter, []) := by
  decide +kernel

/-- The rows METER of the worked drift, and the worked meter that goes backwards. -/
theorem test_met_MeterRecordResult :
    (audited .off (Vector.replicate 4 {})).passage = none ∧
    (audited .off (Vector.replicate 4 {})).state = .idle ∧
    ((after (.meter 3 5#32 0#32 0#32 0#32) (withStation 3 (audited .off (Vector.replicate 4 {})))).st 3).audit =
      (audited .off (Vector.replicate 4 {})).audit ∧
    ((after (.meter 3 81242#32 4024#32 0#32 0#32)
      (withStation 3 (audited .baseline (Vector.replicate 4 {})))).st 3).audit.baseline = some #v[81242, 4024, 0, 0] ∧
    (∀ c : Fin 4, (#v[81200, 4010, 0, 0] : PerClass Nat)[c] ≤ (#v[81230, 4017, 0, 0] : PerClass Nat)[c]) ∧
    ((after (.meter 3 81230#32 4017#32 0#32 0#32)
      (withStation 3 (audited .tracking #v[{ billed := 30 }, { billed := 6 }, {}, {}]))).st 3).audit.discrepancy =
        #v[0, 1, 0, 0] ∧
    ((after (.meter 3 81230#32 4017#32 0#32 0#32)
      (withStation 3 (audited .tracking #v[{ billed := 30 }, { billed := 6 }, {}, {}]))).st 3).audit.state = .tracking ∧
    ((after (.meter 3 81242#32 4024#32 0#32 0#32)
      (withStation 3 (audited .tracking #v[{ billed := 42 }, { billed := 10 }, {}, {}]))).st 3).audit.state =
        .outOfStep ∧
    ((after (.meter 3 81242#32 4024#32 0#32 0#32)
      (withStation 3 (audited .tracking #v[{ billed := 42 }, { billed := 10 }, {}, {}]))).st 3).state = .service ∧
    (∃ c : Fin 4, 2147483648 ≤ ((#v[990, 500, 0, 0] : PerClass Nat)[c] + 4294967296 -
      (#v[1000, 500, 0, 0] : PerClass Nat)[c]) % 4294967296) ∧
    (let x := audited .outOfStep (Vector.replicate 4 {})
     ((after (.meter 3 990#32 500#32 0#32 0#32) (withStation 3 { x with
      audit := { x.audit with baseline := some #v[1000, 500, 0, 0] } })).st 3).audit.rebaselines) = 1 ∧
    (let x := audited .outOfStep #v[{ billed := 30 }, { billed := 6 }, {}, {}]
     let t := after (.meter 3 81230#32 4017#32 0#32 0#32) (withStation 3 x)
     (t.st 3).audit.state = .tracking ∧ (t.source .audit).pending = true) ∧
    (∀ c : Fin 4, (#v[3000000000, 0, 0, 0] : PerClass Nat)[c] < 4294967296) ∧
    (∀ c : Fin 4, ((#v[0, 0, 0, 0] : PerClass Nat)[c] + 4294967296 - (#v[3000000000, 0, 0, 0] : PerClass Nat)[c]) %
      4294967296 < 2147483648) ∧
    (let x := audited .tracking (Vector.replicate 4 {})
     ((after (.meter 3 0#32 0#32 0#32 0#32) (withStation 3 { x with
      audit := { x.audit with baseline := some #v[3000000000, 0, 0, 0] } })).st 3).audit.discrepancy[0]) =
        1294967296 := by
  decide +kernel

/-! ### The station links -/

/-- The part with a receiver in a frame. -/
def receivingFrame (bytes : List Byte) : State := withStation 3 { rx := .inFrame bytes }

theorem test_met_StationLinkCarriesRecords :
    ((withStation 3 idle).st 3).rx = .hunting ∧ (beCardId card9).length = 11 ∧
    ((after (.stationFrameError 3 (CopierRecord.frame (.jam 9#8 2#8))) (withStation 3 idle)).st 3).state = .jammedFree ∧
    (List.replicate 32 (0#8 : Byte)).length ≤ 32 ∧ recordOf 0x0C (List.replicate 32 0#8) = none ∧
    (0#8 : Byte) ≠ crc8 (be1 0 ++ [0x0A#8] ++ []) ∧
    ((after (.stationFrameError 3 [0x5A#8, 0#8, 0x0A#8, 0#8]) State.reset).st 3).counters.frameErrors = 1 ∧
    32 < (33#8 : Byte).toNat ∧
    ((after (.stationFrameError 3 [0x5A#8, 33#8]) State.reset).st 3).counters.frameErrors = 1 ∧
    ((receivingFrame [4#8]).st 3).rx = .inFrame [4#8] ∧
    ((after (.stationFrameGapTimeout 3) (receivingFrame [4#8])).st 3).counters.frameErrors = 1 ∧
    (withStation 3 { sendList := [.grant 16, .halt] }).st 3 = { sendList := .grant 16 :: [.halt] } ∧
    ((after (.stationSendRecord 3) (withStation 3 { sendList := [.grant 16, .halt] })).st 3).line.take 4 =
      [0x5A#8, 1#8, 0x81#8, 16#8] ∧
    ((after (.stationSendRecord 3) (withStation 3 { sendList := [.panel false 258 none] })).st 3).line.take 9 =
      [0x5A#8, 6#8, 0x83#8, 1#8, 0#8, 0#8, 1#8, 2#8, 0xFF#8] ∧
    ((after (.stationSendRecord 3) (withStation 3 { sendList := [.probe], audit := { meterRequest := true } })).st
      3).audit.meterRequest = false := by decide +kernel

theorem test_met_AnnounceAndStatusResults :
    idle.passage = none ∧ idle.state ≠ .down ∧ idle.state ≠ .suspended ∧ idle.inPath = [] ∧
    ((after (.status 3) (withStation 3 { idle with silence := 99 })).st 3).silence = 0 ∧
    ((after (.status 3) (withStation 3 { idle with state := .down, silence := 100 })).st 3).state = .idle ∧
    ({ feeding .suspended with prior := some .starved } : Station).prior = some .starved ∧
    ((after (.status 3) (withStation 3 { feeding .suspended with prior := some .starved })).st 3).state = .starved ∧
    ((after (.announce 3 0x0203#16 5#8 8#8) (withStation 3 idle)).st 3).identity =
      { model := some 0x0203, classes := 5#4, capacity := some 8 } ∧
    (feeding .running).session = some (session .free none) ∧ (feeding .running).inPath ≠ [] ∧
    ((after (.announce 3 0#16 15#8 8#8) (withStation 3 (feeding .running))).st 3).session.map Session.gross = some 0 := by
  decide +kernel

theorem test_met_StartRecordResult :
    (open_ .opened .free none).passage = none ∧ (open_ .opened .free none).session.isSome = true ∧
    ({ open_ .opened .free none with settings := { startMode := .attended } } : Station).settings.startMode = .attended ∧
    ((after (.start 3 2#8 999#16 9999#16 1#8) (withStation 3 { open_ .opened .free none with
      settings := { startMode := .attended } })).st 3).state = .confirming ∧
    ((after (.start 3 1#8 0#16 1#16 0#8) (withStation 3 (open_ .opened .free none))).st 3).job.map Job.released = some 8 ∧
    ((after (.start 3 3#8 0#16 1#16 0#8) (withStation 3 (open_ .opened .free none))).st 3).counters.protocolFaults = 1 ∧
    ((after (.start 3 0#8 1000#16 1#16 0#8) (withStation 3 (open_ .opened .free none))).st 3).counters.protocolFaults = 1 ∧
    ((after (.start 3 0#8 0#16 0#16 0#8) (withStation 3 (open_ .opened .free none))).st 3).counters.protocolFaults = 1 ∧
    ((after (.start 3 0#8 0#16 10000#16 0#8) (withStation 3 (open_ .opened .free none))).st 3).counters.protocolFaults = 1 ∧
    ((after (.start 3 0#8 0#16 1#16 0#8) (withStation 3 (feeding .running))).st 3).serviceDue = true ∧
    ((after (.start 3 0#8 0#16 1#16 0#8) (withStation 3 { state := .jammedFree })).st 3).counters.protocolFaults = 1 ∧
    ({ mode := .run, originals := 0, copies := 1, duplex := false } : Descriptor).mode.code = (1#8 : Byte).toNat ∧
    ({ mode := .run, originals := 0, copies := 1, duplex := false } : Descriptor).startRequest 8 = 8 ∧
    ((after (.start 3 0#8 0#16 1#16 1#8) (withStation 3 (open_ .opened .free none))).st 3).job.map Job.released = some 2 := by
  decide +kernel

/-- A station that runs, its last sheet 65,535 and two sides released, in a session of a kind. -/
def printing (funding : Funding) : Station :=
  { open_ .running funding (match funding with | .free => none | _ => some 2000) with
    job := some (job 2), lastSeq := 65535, seqKnown := true, inPath := (List.range 7).map sheet }

/-- The account of the PERIOD case, its count at 19 so that a duplex sheet crosses the breakpoint at 20 (3.6). -/
def counted : State :=
  withAccount 77 { account [⟨3, 2000⟩] with balance := 2000, sides := #v[19, 0, 0, 0] } (withStation 3
    { printing (.account 77) with tariff := { active := some (workedTariff .period) } })

theorem test_met_ImagedSheetIsPriced :
    ((withStation 3 (printing .free)).st 3).passage = none ∧ (printing .free).state = .running ∧
    (printing .free).session = some (session .free none) ∧ (printing .free).job = some (job 2) ∧
    (printing .free).tariff.active = some (workedTariff .session) ∧ (0#8 : Byte).toNat = (0 : ClassId).val ∧
    (printing .free).identity.classes.getLsbD 0 = true ∧ (2#8 : Byte).toNat ≤ (job 2).released ∧
    (printing .free).inPath.length < 8 ∧ (printing .free).seqKnown = true ∧ (printing .free).lastSeq < 65536 ∧
    (0#16 : BitVec 16).toNat = ((printing .free).lastSeq + 1) % 65536 ∧
    (session .free none).sideCounts[(0 : ClassId)] + 2 ≤ 16777215 ∧
    ((after (.imaged 3 0#16 0#8 2#8) (withStation 3 (printing .free))).st 3).session.map Session.gross = some 360 ∧
    AccountTable.wf counted.accounts ∧ (counted.st 3).session = some (session (.account 77) (some 2000)) ∧
    (session (.account 77) (some 2000)).funding = .account 77 ∧
    (counted.account 77).sides[(0 : ClassId)] + 2 ≤ 16777215 ∧
    ((after (.imaged 3 0#16 0#8 2#8) counted).st 3).session.map Session.gross = some (180 + 164) ∧
    ((after (.imaged 3 0#16 0#8 2#8) counted).account 77).sides[0] = 21 ∧
    (counted.st 3).advances = [] ∧ (counted.st 3).job = some (job 2) ∧ (job 2).laterRequest 8 0 = 8 ∧
    ((after (.imaged 3 0#16 0#8 2#8) counted).st 3).job.map Job.released = some 8 ∧
    (let s := after (.sideAdvance 77 0 (some 3)) counted
     let t := after (.imaged 3 0#16 0#8 2#8) (after (.sideAdvance 77 0 (some 5)) s)
     (s.st 3).advances = [(0, 19)] ∧ (t.account 77).sides[0] = 22 ∧
     (t.st 3).session.map Session.gross = some (180 + 164)) := by decide +kernel

/-- The session of the FREE case draws on no account. -/
theorem test_met_ImagedSheetIsPriced_free : ∀ i, (session .free none).funding ≠ .account i := by
  intro i
  simp [session]

theorem test_met_ImagedWithoutReleasedSides :
    idle.passage = none ∧ idle.session = none ∧ idle.seqKnown = false ∧ idle.inPath = [] ∧
    ((after (.imaged 3 7#16 0#8 0#8) (withStation 3 idle)).st 3).counters.protocolFaults = 1 ∧
    ((after (.imaged 3 7#16 0#8 3#8) (withStation 3 idle)).st 3).counters.protocolFaults = 1 ∧
    ((after (.imaged 3 7#16 0#8 2#8) (withStation 3 idle)).st 3).counters.unattributed = 2 ∧
    (open_ .opened .free none).session.isSome = true ∧ (open_ .opened .free none).job = none ∧
    (open_ .opened .free none).session.bind Session.endReason = none ∧
    ((after (.imaged 3 7#16 0#8 1#8) (withStation 3 (open_ .opened .free none))).st 3).state = .closing ∧
    (printing .free).seqKnown = true ∧ (printing .free).lastSeq = (65535#16 : BitVec 16).toNat ∧
    ((after (.imaged 3 65535#16 0#8 1#8) (withStation 3 (printing .free))).st 3).counters.protocolFaults = 1 ∧
    (let x := { open_ .opened .free none with idleTimer := some 5, inPath := [sheet 7] }
     x.seqKnown = false ∧ (∃ e ∈ x.inPath, e.number = (7#16 : BitVec 16).toNat) ∧
     ((after (.imaged 3 7#16 0#8 1#8) { withStation 3 x with clock := 99 }).st 3).idleTimer = some 120 ∧
     ((after (.imaged 3 7#16 0#8 1#8) { withStation 3 x with clock := 99 }).st 3).session = x.session ∧
     ((after (.imaged 3 8#16 0#8 0#8) { withStation 3 x with clock := 99 }).st 3).session = x.session) := by
  decide +kernel

/-- That station with so many sides released and sheets in its path. -/
def releasing (state : StationState) (released path : Nat) (x : Station) : Station :=
  { x with state := state, job := some (job released), inPath := (List.range path).map sheet }

/-- A duplex sheet with one side released: its first side at 100 mills, its second overrun; a sheet of a
class the copier does not support; both after a gap of 3 (R39, R40, R41, R44). -/
theorem test_met_ImagedWithoutReleasedSides_overrun :
    let x := releasing .running 1 7 (printing .free)
    let y := { x with identity := { classes := 1#4 } }
    let t := after (.imaged 3 3#16 0#8 2#8) (withStation 3 x)
    let u := after (.imaged 3 3#16 1#8 1#8) (withStation 3 y)
    x.inSequence (3#16 : BitVec 16).toNat 3 ∧ x.supports 0#8 0 ∧ x.released < (2#8 : Byte).toNat ∧
    CountsFit (withStation 3 x) (session .free none) ∧ (∀ c, ¬ y.supports 1#8 c) ∧ x.advances = [] ∧
    (t.st 3).state = .closing ∧ (t.st 3).counters.sequenceGaps = 3 ∧
    (t.st 3).session.map (fun z => (z.gross, z.overrunSides, z.endReason)) = some (280, 1, some .overrun) ∧
    (t.st 3).inPath.getLast? = some ⟨3, 0, 2, 1, 100, .session, true⟩ ∧
    (u.st 3).session.map (fun z => (z.gross, z.overrunSides, z.endReason)) = some (180, 1, some .overrun) ∧
    (u.st 3).inPath.getLast? = some (uncharged 3 1 1) := by decide +kernel

/-- A sheet on a full path (R43), and a sheet imaged as the jam came (R153). -/
theorem test_met_ImagedWithoutReleasedSides_full :
    let x := releasing .running 2 8 (printing .free)
    let y := { releasing .jammedSession 1 0 (printing .free) with lastJam := some ⟨9, 1, 0, false, 0, 0, 0⟩ }
    let t := after (.imaged 3 0#16 0#8 2#8) (withStation 3 x)
    let u := after (.imaged 3 0#16 0#8 2#8) (withStation 3 y)
    x.inSequence (0#16 : BitVec 16).toNat 0 ∧ x.inPath.length = 8 ∧ x.inPath.head?.map Sheet.number = some 0 ∧
    (t.st 3).inPath.map Sheet.number = [1, 2, 3, 4, 5, 6, 7, 0] ∧ (t.st 3).serviceDue = true ∧
    (t.st 3).session.map Session.sheetsExited = some 1 ∧ (t.st 3).counters.protocolFaults = 1 ∧
    y.inSequence (0#16 : BitVec 16).toNat 0 ∧ y.supports 0#8 0 ∧ (u.st 3).state = .jammedSession ∧
    (u.st 3).session.map (fun z => (z.gross, z.credited, z.overrunSides, z.endReason)) = some (180, 100, 1, none) ∧
    (u.st 3).job.map Job.reprint = some 1 ∧ (u.st 3).lastJam = some ⟨9, 1, 0, false, 1, 1, 100⟩ := by
  decide +kernel

theorem test_met_ExitedAndJobEndResults :
    (printing .free).passage = none ∧ (printing .free).session = some (session .free none) ∧
    ((after (.exited 3 5#16) (withStation 3 (printing .free))).st 3).inPath = [sheet 6] ∧
    ((after (.exited 3 65535#16) (withStation 3 (printing .free))).st 3).inPath.length = 7 ∧
    ((after (.jobEnd 3 0#8) (withStation 3 (printing .free))).st 3).state = .opened ∧
    ((after (.jobEnd 3 0#8) (withStation 3 (open_ .opened .free none))).st 3).counters.protocolFaults = 1 ∧
    (feeding .jammedSession).job.isSome = true ∧
    ((after (.jobEnd 3 0#8) (withStation 3 (feeding .jammedSession))).st 3).job = none ∧
    (let x : Station := { feeding .running with job := some { job 0 with mode := .single, lastSheet := some 1 } }
     x.inPath = sheet 1 :: [] ∧ x.job.bind Job.lastSheet = some (sheet 1).number ∧
     atOrBefore (sheet 1).number (1#16 : BitVec 16).toNat = true ∧
     ((after (.exited 3 1#16) (withStation 3 x)).st 3).state = .opened ∧
     ((after (.exited 3 1#16) (withStation 3 x)).st 3).job = none) := by
  decide +kernel

/-- The last sheet of that job is not known. -/
theorem test_met_ExitedAndJobEndResults_last : ∀ j, (printing .free).job = some j → j.lastSheet = none := by
  intro j h
  exact (Option.some.inj h) ▸ rfl

theorem test_met_JamAndClearedResults :
    (printing .free).session = some (session .free none) ∧ (session .free none).endReason = none ∧
    ({ printing .free with settings := { jamLimit := 2 } } : Station).settings.jamLimit ≤ 9 ∧
    (session .free none).jamCount + 1 < 2 ∧
    ((after (.jam 3 9#8 7#8) (withStation 3 { printing .free with settings := { jamLimit := 2 } })).st 3).state =
      .jammedSession ∧
    ((after (.jam 3 9#8 7#8) (withStation 3 { printing .free with settings := { jamLimit := 2 } })).st 3).job.map
      Job.reprint = some 14 ∧
    1 ≤ (session .free none).jamCount + 1 ∧ (logged 255 1 State.reset).log.records.length < 256 ∧
    ((after (.jam 3 9#8 7#8) (logged 255 1 (withStation 3 { printing .free with settings := { jamLimit := 1 } }))).st
      3).state = .jammedFree ∧
    ((after (.jam 3 9#8 0#8) (withStation 3 idle)).st 3).state = .jammedFree ∧
    ((after (.jam 3 9#8 0#8) State.reset).st 3).counters.jams = 0 ∧
    ((after (.cleared 3) (withStation 3 { idle with state := .jammedFree })).st 3).state = .idle ∧
    ((after (.cleared 3) (withStation 3 (open_ .jammedSession .free none))).st 3).state = .opened ∧
    ((after (.cleared 3) (withStation 3 { feeding .jammedSession with job := some { job 0 with reprint := 16 } })).st
      3).job.map Job.reprint = some 0 ∧
    (feeding .jammedSession).session = some (session .free none) ∧ (feeding .jammedSession).job = some (job 4) ∧
    ((after (.cleared 3) (withStation 3 { feeding .jammedSession with job := some { job 0 with reprint := 3 } })).st
      3).job.map (fun j => (j.released, j.unmet)) = some (8, 0) := by decide +kernel

theorem test_met_ProbesAndSilenceResults :
    ((after .probeTick (withStation 3 idle)).st 3).sendList = [.probe] ∧
    (after .probeTick State.reset) = State.reset ∧ idle.passage = none ∧
    ((after (.linkSilence 3) (withStation 3 { idle with silence := 99 })).st 3).state = .down ∧
    ((after (.linkSilence 3) (withStation 3 confirming)).st 3).state = .suspended ∧
    ((after (.linkSilence 3) (withStation 3 confirming)).st 3).prior = some .opened ∧
    ((after (.linkSilence 3) (withStation 3 (open_ .closing .free none))).st 3).state = .closing := by
  decide +kernel

/-! ### Timers -/

/-- A session that waits for recovery, its timer at the last second. -/
def recovering (state : StationState) : State :=
  logged 255 1 (withStation 3 { open_ state .free none with recoveryTimer := some 1, silence := 100 })

theorem test_met_TimerExpiryResults :
    confirming.state = .confirming ∧ confirming.confirmTimer.isSome = true ∧
    ((after (.confirmTimerExpiry 3) (withStation 3 confirming)).st 3).state = .opened ∧
    ((banking (awaiting .authorizing)).st 3).slot = .requested card9 2 request ∧
    (after (.requestTimerExpiry 3) (banking (awaiting .authorizing))).log.records.length = 256 ∧
    ((after (.requestTimerExpiry 3) (banking (awaiting .authorizing))).st 3).state = .idle ∧
    ((after (.requestTimerExpiry 3) (banking (toppingUp .starved))).st 3).session.map Session.funding =
      some (.bank [6] [7] 1) ∧
    ((recovering .jammedSession).st 3).recoveryTimer.isSome = true ∧
    ((after (.recoveryTimerExpiry 3) (recovering .jammedSession)).st 3).state = .jammedFree ∧
    ((after (.recoveryTimerExpiry 3) (recovering .suspended)).st 3).state = .down ∧
    ((withStation 3 { idle with audit := { intervalTimer := some 1 } }).st 3).audit.intervalTimer.isSome = true ∧
    ((after (.intervalTimerExpiry 3) (withStation 3 { idle with audit := { intervalTimer := some 1 } })).st
      3).audit.intervalTimer = some 300 := by decide +kernel

/-! ### The log's requests, the rating engine, the shared counters -/

/-- "Reservations near the threshold" (chapter 9) gives the rows at 17 and at 16 entries of unreserved space. -/
theorem test_met_LogRequestResults :
    (logged 250 6 (withStation 3 idle)).log.unreserved = 0 ∧ idle.state = .idle ∧ idle.passage = none ∧
    (after (.admissionReservation 3 card9) (logged 250 6 (withStation 3 idle))).answer = some (.reserved false) ∧
    1 ≤ (logged 229 10 (withStation 3 idle)).log.unreserved ∧
    ((after (.admissionReservation 3 card9) (logged 229 10 (withStation 3 idle))).source .logLow).pending = true ∧
    (after (.admissionReservation 3 card9) (logged 229 10 (withStation 3 idle))).log.armed = false ∧
    ((withStation 3 { idle with passage := some { card := card9, hold := none } }).st 3).passage = some { card := card9, hold := none } ∧
    (after (.reservationReturn 3) (logged 231 9 (withStation 3 { idle with passage := some { card := card9, hold := none } }))).log.armed =
      true ∧
    ((after (.handover 3) (withStation 3 { idle with passage := some { card := card9, hold := some (77, 500, 2) } })).st 3).session.map
      Session.limit = some (some 500) ∧
    1 ≤ (logged 255 1 State.reset).log.reservations ∧ (logged 255 1 State.reset).log.records.length < 256 ∧
    (after (.recordOffer (.void workedVoid)) (logged 255 1 State.reset)).answer = some (.recordNumber (some 2)) ∧
    (after (.recordOffer (.statement workedStatement)) (logged 255 1 State.reset)).answer =
      some (.recordNumber none) ∧
    ((after (.handover 3) (withStation 3 { idle with
      passage := some { card := card9, outcome := some ⟨.free, 0⟩, hold := none } })).st 3).state = .opened ∧
    (classify (receiving .bank 250 5) card9) = ⟨.bank, 0⟩ ∧
    ((after (.handover 3) ((receiving .bank 250 5).modSt 3 (fun x => { x with
      passage := some { card := card9, hold := none } }))).st 3).state = .authorizing ∧
    (after (.recordOffer (.session workedRecord)) (logged 255 1 State.reset)).answer = some (.recordNumber (some 2)) ∧
    (logged 0 0 State.reset).log.reservations = 0 ∧
    (after (.recordOffer (.session workedRecord)) (logged 0 0 State.reset)).answer = some (.recordNumber none) ∧
    1 ≤ (logged 255 0 State.reset).log.unreserved ∧
    (after (.recordOffer (.statement workedStatement)) (logged 255 0 State.reset)).log.records.length = 256 := by decide +kernel

theorem test_met_RatingEngineAnswers :
    ((withStation 3 idle).st 3).tariff.active = some (workedTariff .session) ∧
    (after (.sidePrice 3 0 .second 20 100) (withStation 3 idle)).answer = some (.mills 64) ∧
    (after (.openingFigures 3 7) (withStation 3 idle)).answer = some (.opening 50 50) ∧
    (after (.settlementCharge 3 .free 4680 10 2000 60) (withStation 3 idle)).answer = some (.charge 0 false) ∧
    FundingKind.account ≠ .free ∧
    (after (.settlementCharge 3 .account 4680 10 2000 60) (withStation 3 idle)).answer = some (.charge 421 false) := by
  decide +kernel

/-- The counter at its end and its value taken by an outstanding request: the next free tag is 1. -/
theorem test_met_SharedCountersAreTaken :
    (1 ≤ State.reset.tagCounter ∧ State.reset.tagCounter ≤ 65535) ∧
    (after .tagTake { State.reset with tagCounter := 65535 }).tagCounter = 1 ∧
    (after .tagTake { withStation 3 { slot := .topup card9 0 { request with tag := 65535 } } with
      tagCounter := 65535 }).answer = some (.tag 1) ∧
    (after .sessionNumberTake { State.reset with sessionCounter := 4294967295 }).sessionCounter = 1 := by
  decide +kernel

/-! ### The invariants -/

/-- A log of two records whose numbers pass from the largest to 1, full with its reservations. -/
def wrapping : Log :=
  { records := [⟨4294967295, .void workedVoid⟩, ⟨1, .statement workedStatement⟩], reservations := 254, counter := 2 }

theorem test_met_EveryCommandKeepsTheLogSound :
    ({ State.reset with log := wrapping } : State).log.sound ∧
    exec .identify { State.reset with log := wrapping } = .next { State.reset with log := wrapping } :=
  ⟨⟨Nat.le_refl 256, rfl, rfl⟩, rfl⟩

theorem test_met_EveryCommandKeepsTheTablesSound :
    AccountTable.wf { bound with accounts := [(0, account []), (2047, account [])] }.accounts ∧
    bindingsSound bound.bindings := by
  refine ⟨by decide +kernel, by decide +kernel, by decide +kernel, by decide +kernel⟩

theorem test_met_EveryCommandKeepsTheRanges : (asked 0x26#8 [] State.reset).InRange where
  queue := by decide
  replies := by decide
  run := by decide
  rate := by decide
  settings := fun n => ⟨by revert n; decide, by revert n; decide, by revert n; decide, by revert n; decide,
    by revert n; decide, by revert n; decide, by revert n; decide⟩
  quantum := by decide
  clock := by decide
  tag := by decide
  session := by decide
  record := by decide
  mask := by decide
  logLow := by decide
  levels := fun src => by cases src <;> decide

/-- A suspended session with a sheet in its path, and a card in passage at a station in IDLE. -/
theorem test_met_EveryCommandKeepsTheStationsInAgreement :
    ({ feeding .suspended with prior := some .running } : Station).Agrees ∧
    ({ idle with passage := some { card := card9, hold := none } } : Station).Agrees :=
  ⟨⟨by decide, by decide, by decide, fun p h => by
    have : p = .running := (Option.some.inj h).symm
    exact Or.inr (Or.inl this)⟩,
   ⟨by decide, by decide, by decide, fun p h => by cases h⟩⟩

theorem test_met_EveryCommandLeavesTheQueue :
    exec .shopClockTick { State.reset with pending := [.identify] } =
      .next { State.reset with pending := [.identify], clock := 1 } := rfl

theorem test_met_OnlyTheirCommandsChangeClockAndSettings :
    exec .probeTick State.reset = .next (after .probeTick State.reset) ∧
    (∀ a b d, Instr.probeTick ≠ .coldReset a b d) := ⟨rfl, by decide⟩

end Sys2Proof.Tests
end

