-- ==== Sys2Proof/Proofs/StationEnable.lean ====
section
/-! PROOF. STATION-ENABLE (R5): the result of a host command that completes, the mask of an operand and its stations, the
turns of several stations each at its own station, and what the command makes of one station. -/

namespace Sys2Proof.Machine

/-! ## Completion -/

/-- A completed command's state is the answered one: the queue after the command still has the frame at its head. -/
theorem complete_eq_answered {f : Frame} {rest : List Frame} {t : State} (hq : t.host.queue = f :: rest)
    (status : Status) (data : List Byte) :
    complete (f.type + 0x80#8) f.tag (status, data, t) = answered t rest f status data := by
  simp [complete, answered, State.modHost, hq]

/-! ## Masks -/

/-- The two bytes of a mask read back as the mask (R204). -/
theorem maskAt_be2 (m : Mask) : maskAt (be2 m.toNat) 0 = m := by
  have hm : m.toNat < 65536 := m.isLt
  have hf : fieldAt (be2 m.toNat) 0 2 = m.toNat := by
    simp [fieldAt, natOf, be2, be1]
    omega
  rw [maskAt, hf, BitVec.ofNat_toNat, BitVec.setWidth_eq]

/-- The stations of a mask are those in it. -/
@[simp] theorem mem_stationsOf {m : Mask} {n : StationId} : n ∈ stationsOf m ↔ inMask m n = true := by
  simp [stationsOf]

/-- A mask names no station twice. -/
theorem nodup_stationsOf (m : Mask) : (stationsOf m).Nodup := (List.nodup_finRange 16).filter _

/-! ## Turns of several stations -/

section AtEach
variable {f : StationId → State → State} (hf : ∀ n s, AtStation n s (f n s))
include hf

/-- Turns that change one station each, and the notices, change nothing but the stations and the notices. -/
theorem atEach_rest (l : List StationId) (s : State) :
    atEach l f s = { s with stations := (atEach l f s).stations, notices := (atEach l f s).notices } := by
  refine atEach_keeps (P := fun t => t = { s with stations := t.stations, notices := t.notices }) ?_ l s rfl
  intro n t ht
  have h := (hf n t).rest
  rw [ht] at h ⊢
  exact h

/-- A station that has no turn is as it was. -/
theorem atEach_st_of_notMem {n : StationId} :
    ∀ {l : List StationId} (s : State), n ∉ l → (atEach l f s).st n = s.st n := by
  intro l
  induction l with
  | nil => exact fun _ _ => rfl
  | cons m l ih =>
    intro s hn
    obtain ⟨hne, hl⟩ := not_or.mp (mt List.mem_cons.mpr hn)
    exact (ih (f m s) hl).trans ((hf m s).others n hne)

/-- A station that has one turn takes it in a state in which it is still as it was. -/
theorem atEach_st_of_mem {n : StationId} :
    ∀ {l : List StationId} (s : State), l.Nodup → n ∈ l →
      ∃ u : State, u.st n = s.st n ∧ (atEach l f s).st n = (f n u).st n := by
  intro l
  induction l with
  | nil => exact fun _ _ hn => absurd hn List.not_mem_nil
  | cons m l ih =>
    intro s hd hn
    obtain ⟨hm, hl⟩ := List.nodup_cons.mp hd
    by_cases he : n = m
    · subst he
      exact ⟨s, rfl, atEach_st_of_notMem hf (f n s) hm⟩
    · obtain ⟨u, hu, ht⟩ := ih (f m s) hl ((List.mem_cons.mp hn).resolve_left he)
      exact ⟨u, hu.trans ((hf m s).others n he), ht⟩

end AtEach

/-! ## Entries and the service-due flag -/

/-- An entry leaves the service-due flag. -/
theorem enter_serviceDue (q : Bool) (new : StationState) (n : StationId) (s : State) :
    ((enter q new n s).st n).serviceDue = (s.st n).serviceDue := by
  by_cases h : (s.st n).state = new
  · simp [enter, h]
  · obtain ⟨l, tf, e⟩ := enter_station q new n s h
    rw [e]
    rfl

/-- After the entry to IDLE the service-due flag is clear (R6). -/
theorem enterIdle_serviceDue (q : Bool) (n : StationId) (s : State) :
    ((enterIdle q n s).st n).serviceDue = false := by
  unfold enterIdle
  split
  · simp [enterService, enter_serviceDue, raiseFor]
  · next hd =>
    have hc : (s.st n).serviceDue = false := Bool.eq_false_of_not_eq_true hd
    split
    · simp [enterService, enter_serviceDue, raiseFor, hc]
    · split <;> simp [enter_serviceDue, hc]

/-- The state after the entry to IDLE is the one that R6's checks name. -/
theorem enterIdle_idleEntry (q : Bool) (n : StationId) (s : State) :
    ((enterIdle q n s).st n).state = (s.st n).idleEntry := by
  rw [enterIdle_state, Station.idleEntry, ite_or]
  simp [Station.lockedOut]

/-! ## STATION-ENABLE -/

/-- A station out of service: in DISABLED or in SERVICE (R5). -/
abbrev Station.outOfService (x : Station) : Prop := x.state = .disabled ∨ x.state = .service

/-- STATION-ENABLE at a station changes that station and the notices alone. -/
theorem atStation_enableStation (n : StationId) (s : State) : AtStation n s (enableStation n s) := by
  unfold enableStation
  split
  · dsimp only
    split
    · exact (atStation_modSt _ _ _).trans (atStation_enterIdle _ _ _)
    · exact (atStation_modSt _ _ _).trans (atStation_enter _ _ _ _)
  · exact AtStation.refl n s

/-- STATION-ENABLE leaves a station in any other state. -/
theorem enableStation_of_inService {n : StationId} {s : State} (h : ¬ (s.st n).outOfService) :
    enableStation n s = s := if_neg h

/-- STATION-ENABLE clears the service-due flag of a station out of service, whose link decides what it enters (R5). -/
theorem enableStation_of_outOfService {n : StationId} {s : State} (h : (s.st n).outOfService) :
    ((enableStation n s).st n).serviceDue = false ∧
    ((enableStation n s).st n).state = (if 100 ≤ (s.st n).silence then .down
      else ({ s.st n with serviceDue := false } : Station).idleEntry) := by
  rw [enableStation, if_pos h]
  dsimp only
  by_cases hl : 100 ≤ (s.st n).silence
  · have ha : ¬ (s.st n).alive = true := by simpa [Station.alive] using hl
    rw [if_neg ha, if_pos hl, enter_serviceDue, enter_state, st_modSt_self]
    exact ⟨rfl, rfl⟩
  · have ha : (s.st n).alive = true := by simpa [Station.alive] using hl
    rw [if_pos ha, if_neg hl, enterIdle_idleEntry, st_modSt_self]
    exact ⟨enterIdle_serviceDue _ _ _, rfl⟩

/-- The row of STATION-ENABLE at the head of the queue enables the stations of its mask in turn, and answers OK. -/
theorem exec_stationEnable {s : State} {tag : Byte} {rest : List Frame} {mask : Mask}
    (h : Executing s ⟨0x05#8, tag, be2 mask.toNat⟩ rest) :
    exec .stationEnable s = .next
      (answered (atEach (stationsOf mask) enableStation s) rest ⟨0x05#8, tag, be2 mask.toNat⟩ .ok []) := by
  have hrun : exec .stationEnable s = .next (runCommand (ofCode 0x05) ruleStationEnable s) := rfl
  have hjudge : judge ruleStationEnable ⟨0x05#8, tag, be2 mask.toNat⟩ s =
      done (atEach (stationsOf mask) enableStation s) := by
    rw [judge_rule rfl (fun ht => absurd ht (by simp [touchesTables])), ruleStationEnable, maskAt_be2]
  have hqueue : (atEach (stationsOf mask) enableStation s).host.queue = ⟨0x05#8, tag, be2 mask.toNat⟩ :: rest := by
    obtain ⟨_, _, _, hq⟩ := h
    rw [atEach_rest atStation_enableStation]
    exact hq
  rw [hrun, runCommand_head _ (headCommand_eq h) rfl, hjudge]
  exact congrArg _ (complete_eq_answered hqueue .ok [])

/-- Settles O13: the stations of the mask have one turn each, which finds its station as it was before the command. -/
theorem stationEnableResult : Obligations.StationEnableResult := by
  intro s tag rest mask h
  refine ⟨_, exec_stationEnable h, atEach_rest atStation_enableStation _ s, fun n => ?_⟩
  by_cases hm : inMask mask n = true
  · obtain ⟨u, hu, ht⟩ := atEach_st_of_mem atStation_enableStation s (nodup_stationsOf mask) (mem_stationsOf.mpr hm)
    rw [ht, ← hu]
    by_cases ho : (u.st n).outOfService
    · rw [if_pos ⟨hm, ho⟩]
      exact enableStation_of_outOfService ho
    · rw [if_neg (fun hc => ho hc.2), enableStation_of_inService ho]
  · rw [if_neg (fun hc => hm hc.1)]
    exact atEach_st_of_notMem atStation_enableStation s (mt mem_stationsOf.mp hm)

end Sys2Proof.Machine
end

