-- ==== Sys2Proof/Proofs/StageTariff.lean ====
section
/-! PROOF. STAGE-TARIFF (R76, R208): the reply of a command whose rule leaves the host link, the fields of a payload read
back as they were written, the two forms of a section's payload, and the rule's answer case by case. -/

namespace Sys2Proof.Machine

/-! ## The reply of a command -/

/-- A command at the head of the queue that its own rule takes is answered with what the rule gives, when the rule leaves
the host link (R192). -/
theorem runCommand_answers {s t : State} {f : Frame} {rest : List Frame} {mine : Frame → Bool}
    {rule : List Byte → State → Handled} {status : Status} {data : List Byte} (h : Executing s f rest)
    (hm : mine f = true) (hs : sizeAllowed f.type f.payload.length = true)
    (ht : touchesTables f.type = true → s.tablesReady = true) (hr : rule f.payload s = (status, data, t))
    (hh : t.host = s.host) : runCommand mine rule s = answered t rest f status data := by
  have hq : t.host.queue = f :: rest := by
    obtain ⟨_, _, _, hq⟩ := h
    rw [hh, hq]
  rw [runCommand_head rule (headCommand_eq h) hm, judge_rule hs ht, hr]
  exact complete_eq_answered hq status data

/-! ## Fields of a payload -/

@[simp] theorem length_be1 (n : Nat) : (be1 n).length = 1 := by simp [be1]
@[simp] theorem length_be2 (n : Nat) : (be2 n).length = 2 := by simp [be2]

/-- A byte reads back as the number it was written from (R204). -/
theorem natOf_be1 {n : Nat} (h : n < 256) : natOf (be1 n) = n := by
  simp [natOf, be1]
  omega

/-- Two bytes read back as the number they were written from (R204). -/
theorem natOf_be2 {n : Nat} (h : n < 65536) : natOf (be2 n) = n := by
  simp [natOf, be2, be1]
  omega

/-- A field beyond the first bytes of a payload is a field of the others. -/
theorem fieldAt_append {x : List Byte} {off : Nat} (h : x.length ≤ off) (y : List Byte) (len : Nat) :
    fieldAt (x ++ y) off len = fieldAt y (off - x.length) len := by
  simp [fieldAt, List.drop_append, List.drop_eq_nil_of_le h]

/-- The fields that follow the first `k` bytes of a payload. -/
theorem fieldAt_beyond {x : List Byte} {k : Nat} (h : x.length = k) (y : List Byte) (off len : Nat) :
    fieldAt (x ++ y) (k + off) len = fieldAt y off len := by
  rw [fieldAt_append (h ▸ Nat.le_add_right k off), h, Nat.add_sub_cancel_left]

/-- The first bytes of a payload are its first field. -/
theorem fieldAt_head {x : List Byte} {len : Nat} (h : x.length = len) (y : List Byte) :
    fieldAt (x ++ y) 0 len = natOf x := by
  simp [fieldAt, ← h]

/-- The first byte of a payload. -/
theorem fieldAt_be1 {n : Nat} (h : n < 256) (y : List Byte) : fieldAt (be1 n ++ y) 0 1 = n :=
  (fieldAt_head (length_be1 n) y).trans (natOf_be1 h)

/-- The first two bytes of a payload. -/
theorem fieldAt_be2 {n : Nat} (h : n < 65536) (y : List Byte) : fieldAt (be2 n ++ y) 0 2 = n :=
  (fieldAt_head (length_be2 n) y).trans (natOf_be2 h)

/-- A table written entry by entry, each in `w` bytes that read back, holds its entry `i` at offset `i * w`. -/
theorem fieldAt_flatMap {enc : Nat → List Byte} {w : Nat} (hw : ∀ k, (enc k).length = w) (y : List Byte) :
    ∀ {l : List Nat} (_ : ∀ k ∈ l, natOf (enc k) = k) {i : Nat} (hi : i < l.length),
      fieldAt (l.flatMap enc ++ y) (i * w) w = l[i] := by
  intro l hl
  induction l with
  | nil => exact fun hi => absurd hi (Nat.not_lt_zero _)
  | cons k l ih =>
    obtain ⟨hk, hl⟩ := List.forall_mem_cons.mp hl
    intro i hi
    rw [List.flatMap_cons, List.append_assoc]
    cases i with
    | zero =>
      rw [Nat.zero_mul, fieldAt_head (hw k)]
      exact hk
    | succ i =>
      rw [Nat.succ_mul, Nat.add_comm, fieldAt_beyond (hw k)]
      exact ih hl (Nat.lt_of_succ_lt_succ hi)

/-- A table of `n` entries of `w` bytes has `n * w` bytes. -/
theorem length_flatMap_of_width {enc : Nat → List Byte} {w n : Nat} (hw : ∀ k, (enc k).length = w)
    (v : Vector Nat n) : (v.toList.flatMap enc).length = n * w := by
  simp [List.length_flatMap, hw]

/-- A table that starts at offset `off` of a payload, its entries `w` bytes each, is read back entry by entry. -/
theorem ofFn_fieldAt_table {enc : Nat → List Byte} {w n off : Nat} (hw : ∀ k, (enc k).length = w) {v : Vector Nat n}
    (hv : ∀ k ∈ v.toList, natOf (enc k) = k) {x : List Byte} (hx : x.length = off) (y : List Byte) :
    Vector.ofFn (fun i : Fin n => fieldAt (x ++ (v.toList.flatMap enc ++ y)) (off + i.val * w) w) = v := by
  apply Vector.ext
  intro i hi
  rw [Vector.getElem_ofFn, fieldAt_beyond hx, fieldAt_flatMap hw y hv (by simpa using hi), Vector.getElem_toList]

/-! ## The codes in a payload -/

/-- A class number's code is the class. -/
@[simp] theorem classOf_val (c : ClassId) : classOf c.val = some c := dif_pos c.isLt

/-- No number above 3 is a class. -/
theorem classOf_eq_none {n : Nat} (h : 4 ≤ n) : classOf n = none := dif_neg (Nat.not_lt.mpr h)

/-- The code of a tier basis is read back as the basis. -/
@[simp] theorem tierBasisOf_code (b : TierBasis) : tierBasisOf b.code = some b := by cases b <;> rfl

/-- No number above 1 is a tier basis. -/
theorem tierBasisOf_eq_none {n : Nat} (h : 1 < n) : tierBasisOf n = none := by
  match n, h with
  | _ + 2, _ => rfl

/-- The code of a tier basis is 0 or 1. -/
theorem TierBasis.code_lt (b : TierBasis) : b.code < 2 := by cases b <;> decide

/-! ## The sections of a STAGE-TARIFF payload -/

/-- The payload that carries a header section (R208). -/
def headerPayload (h : Header) : List Byte :=
  be1 4 ++ be2 h.stamp ++ be1 h.duplex ++ be2 h.minimum ++ h.discounts.toList.flatMap be1

/-- The payload that carries the pricing section of a class (R208). -/
def pricingPayload (c : ClassId) (q : Pricing) : List Byte :=
  be1 c.val ++ be1 q.tiers ++ q.breaks.toList.flatMap be2 ++ q.prices.toList.flatMap be2 ++ be1 q.basis.code

theorem length_headerPayload (h : Header) : (headerPayload h).length = 14 := by
  simp [headerPayload, length_flatMap_of_width length_be1]

theorem length_pricingPayload (c : ClassId) (q : Pricing) : (pricingPayload c q).length = 17 := by
  simp [pricingPayload, length_flatMap_of_width length_be2]

/-- A header payload's selector is HEADER. -/
theorem selector_headerPayload (h : Header) : fieldAt (headerPayload h) 0 1 = 4 := by
  simp only [headerPayload, List.append_assoc]
  exact fieldAt_be1 (by decide) _

/-- A pricing payload's selector is its class. -/
theorem selector_pricingPayload (c : ClassId) (q : Pricing) : fieldAt (pricingPayload c q) 0 1 = c.val := by
  simp only [pricingPayload, List.append_assoc]
  exact fieldAt_be1 (Nat.lt_trans c.isLt (by decide)) _

/-- The header section of a header's payload is the header, when its fields fit theirs. -/
theorem headerOf_headerPayload {h : Header} (hs : h.stamp < 65536) (hd : h.duplex < 256) (hm : h.minimum < 65536)
    (ht : ∀ d ∈ h.discounts.toList, d < 256) : headerOf (headerPayload h) = h := by
  have hdiscounts : Vector.ofFn (fun i : Fin 8 => fieldAt (headerPayload h) (6 + i.val) 1) = h.discounts := by
    simpa [headerPayload] using ofFn_fieldAt_table length_be1 (fun d hd => natOf_be1 (ht d hd))
      (x := be1 4 ++ be2 h.stamp ++ be1 h.duplex ++ be2 h.minimum) (off := 6) (by simp) []
  have hstamp : fieldAt (headerPayload h) 1 2 = h.stamp := by simp [headerPayload, fieldAt_append, fieldAt_be2 hs]
  have hduplex : fieldAt (headerPayload h) 3 1 = h.duplex := by simp [headerPayload, fieldAt_append, fieldAt_be1 hd]
  have hminimum : fieldAt (headerPayload h) 4 2 = h.minimum := by
    simp [headerPayload, fieldAt_append, fieldAt_be2 hm]
  rw [headerOf, hdiscounts, hstamp, hduplex, hminimum]

/-- A payload whose tier count or tier basis is out of range carries no pricing section (R76). -/
theorem pricingOf_eq_none {p : List Byte} (h : fieldAt p 1 1 = 0 ∨ 4 < fieldAt p 1 1 ∨ 1 < fieldAt p 16 1) :
    pricingOf p = none := by
  unfold pricingOf
  split
  · rfl
  · next basis hb =>
    refine if_neg fun ⟨hlow, hhigh⟩ => ?_
    have hbasis : ¬ 1 < fieldAt p 16 1 := fun hc => by simp [tierBasisOf_eq_none hc] at hb
    omega

/-- A payload whose tier count and tier basis are in range carries the section of its fields, the breakpoints and prices
read as tables of two-byte numbers (R76, R208). -/
theorem pricingOf_eq_some {p : List Byte} {basis : TierBasis} (hb : tierBasisOf (fieldAt p 16 1) = some basis)
    (ht : 1 ≤ fieldAt p 1 1 ∧ fieldAt p 1 1 ≤ 4) :
    pricingOf p = some { tiers := fieldAt p 1 1
                         breaks := Vector.ofFn (fun i : Fin 3 => fieldAt p (2 + i.val * 2) 2)
                         prices := Vector.ofFn (fun i : Fin 4 => fieldAt p (8 + i.val * 2) 2)
                         basis := basis } := by
  rw [pricingOf, hb]
  exact if_pos ht

/-- The pricing section of a pricing's payload is the pricing, when its tier count is in range and its fields fit
theirs. -/
theorem pricingOf_pricingPayload {c : ClassId} {q : Pricing} (hlow : 1 ≤ q.tiers) (hhigh : q.tiers ≤ 4)
    (hb : ∀ b ∈ q.breaks.toList, b < 65536) (hx : ∀ x ∈ q.prices.toList, x < 65536) :
    pricingOf (pricingPayload c q) = some q := by
  have hbreaks : Vector.ofFn (fun i : Fin 3 => fieldAt (pricingPayload c q) (2 + i.val * 2) 2) = q.breaks := by
    simpa [pricingPayload] using ofFn_fieldAt_table length_be2 (fun b h => natOf_be2 (hb b h))
      (x := be1 c.val ++ be1 q.tiers) (off := 2) (by simp) (q.prices.toList.flatMap be2 ++ be1 q.basis.code)
  have hprices : Vector.ofFn (fun i : Fin 4 => fieldAt (pricingPayload c q) (8 + i.val * 2) 2) = q.prices := by
    simpa [pricingPayload] using ofFn_fieldAt_table length_be2 (fun x h => natOf_be2 (hx x h))
      (x := be1 c.val ++ be1 q.tiers ++ q.breaks.toList.flatMap be2) (off := 8)
      (by simp [length_flatMap_of_width length_be2]) (be1 q.basis.code)
  have htiers : fieldAt (pricingPayload c q) 1 1 = q.tiers := by
    simp [pricingPayload, fieldAt_append, fieldAt_be1 (Nat.lt_of_le_of_lt hhigh (by decide : 4 < 256))]
  have hbasis : fieldAt (pricingPayload c q) 16 1 = q.basis.code := by
    have hcode : q.basis.code < 256 := Nat.lt_trans q.basis.code_lt (by decide)
    have hlast := fieldAt_be1 hcode []
    rw [List.append_nil] at hlast
    rw [pricingPayload, fieldAt_append] <;> simp [length_flatMap_of_width length_be2, hlast]
  have hrange : 1 ≤ fieldAt (pricingPayload c q) 1 1 ∧ fieldAt (pricingPayload c q) 1 1 ≤ 4 := htiers ▸ ⟨hlow, hhigh⟩
  have hcode : tierBasisOf (fieldAt (pricingPayload c q) 16 1) = some q.basis := by rw [hbasis, tierBasisOf_code]
  rw [pricingOf_eq_some hcode hrange, htiers, hbreaks, hprices]

/-! ## STAGE-TARIFF -/

/-- While the checker runs nothing is staged (R76). -/
theorem ruleStageTariff_busy {p : List Byte} {s : State} (h : s.tariffs.check.isSome = true) :
    ruleStageTariff p s = refuse .busy s := if_pos h

/-- A header section replaces the staged header (R76). -/
theorem ruleStageTariff_header {s : State} {h : Header} (hc : s.tariffs.check = none) (hs : h.stamp < 65536)
    (hd : h.duplex < 256) (hm : h.minimum < 65536) (ht : ∀ d ∈ h.discounts.toList, d < 256) :
    ruleStageTariff (headerPayload h) s = done { s with tariffs := { s.tariffs with header := some h } } := by
  simp [ruleStageTariff, hc, selector_headerPayload, length_headerPayload, headerOf_headerPayload hs hd hm ht]

/-- A pricing section replaces the staged section of its class (R76). -/
theorem ruleStageTariff_pricing {s : State} {c : ClassId} {q : Pricing} (hc : s.tariffs.check = none)
    (hlow : 1 ≤ q.tiers) (hhigh : q.tiers ≤ 4) (hb : ∀ b ∈ q.breaks.toList, b < 65536)
    (hx : ∀ x ∈ q.prices.toList, x < 65536) :
    ruleStageTariff (pricingPayload c q) s =
      done { s with tariffs := { s.tariffs with pricing := s.tariffs.pricing.set c.val (some q) } } := by
  have hclass : ¬ c.val = 4 := Nat.ne_of_lt c.isLt
  simp [ruleStageTariff, hc, selector_pricingPayload, hclass, length_pricingPayload,
    pricingOf_pricingPayload hlow hhigh hb hx]

/-- A payload that names no section, does not match the section it names, or holds a tier count or tier basis out of
range (R76). -/
abbrev NotStageable (p : List Byte) : Prop :=
  4 < fieldAt p 0 1 ∨ (fieldAt p 0 1 = 4 ∧ p.length = 17) ∨
    (fieldAt p 0 1 < 4 ∧ (p.length = 14 ∨ fieldAt p 1 1 = 0 ∨ 4 < fieldAt p 1 1 ∨ 1 < fieldAt p 16 1))

/-- Such a payload is refused (R76). -/
theorem ruleStageTariff_refused {p : List Byte} {s : State} (hc : s.tariffs.check = none) (h : NotStageable p) :
    ruleStageTariff p s = refuse .badParameter s := by
  have hfree : ¬ s.tariffs.check.isSome = true := by simp [hc]
  rw [ruleStageTariff, if_neg hfree]
  obtain hsel | ⟨hsel, hlen⟩ | ⟨hsel, hbad⟩ := h
  · rw [if_neg (Nat.ne_of_gt hsel), classOf_eq_none (Nat.le_of_lt hsel)]
  · simp [hsel, hlen]
  · rw [if_neg (Nat.ne_of_lt hsel), classOf, dif_pos hsel]
    obtain hlen | hrange := hbad
    · simp [hlen]
    · simp [pricingOf_eq_none hrange]

/-- The row of STAGE-TARIFF at the head of the queue answers what its rule gives. -/
theorem exec_stageTariff {s t : State} {tag : Byte} {rest : List Frame} {p : List Byte} {status : Status}
    {data : List Byte} (h : Executing s ⟨0x0D#8, tag, p⟩ rest) (hlen : p.length = 14 ∨ p.length = 17)
    (hr : ruleStageTariff p s = (status, data, t)) (hh : t.host = s.host) :
    exec .stageTariff s = .next (answered t rest ⟨0x0D#8, tag, p⟩ status data) := by
  have hrun : exec .stageTariff s = .next (runCommand (ofCode 0x0D) ruleStageTariff s) := rfl
  rw [hrun, runCommand_answers h rfl (by simpa [sizeAllowed] using hlen)
    (fun ht => absurd ht (by simp [touchesTables])) hr hh]

/-- Settles O19: each clause is one case of the rule. -/
theorem stageTariffResult : Obligations.StageTariffResult := by
  refine ⟨fun s tag rest p h hlen => ⟨fun hc => ?_, fun hc hbad => ?_⟩, fun s tag rest h => ?_,
    fun s tag rest c q => ?_⟩
  · exact exec_stageTariff h hlen (ruleStageTariff_busy hc) rfl
  · exact exec_stageTariff h hlen (ruleStageTariff_refused hc hbad) rfl
  · intro p he hc hs hd hm ht
    exact exec_stageTariff he (.inl (length_headerPayload h)) (ruleStageTariff_header hc hs hd hm ht) rfl
  · intro p he hc hlow hhigh hb hx
    exact exec_stageTariff he (.inr (length_pricingPayload c q)) (ruleStageTariff_pricing hc hlow hhigh hb hx) rfl

end Sys2Proof.Machine
end

