-- ==== Sys2Proof/Proofs/ClosePeriod.lean ====
section
/-! PROOF. CLOSE-PERIOD (R126): what a record that joins the log leaves of the other blocks, the notices it raises, a
STATEMENT taken or refused (R169), the account that a payload names, and the rule's answer case by case. -/

namespace Sys2Proof.Machine

/-! ## Raises -/

/-- A pending source is pending after every raise (R196). -/
theorem raiseMask_pending_mono {src x : NoticeSource} {s : State} (m : Mask) (h : (s.source x).pending = true) :
    ((raiseMask src m s).source x).pending = true := by
  by_cases he : src.index = x.index
  · simp [State.source, raiseMask, he]
  · have hne : src.index.val ≠ x.index.val := fun e => he (Fin.ext e)
    simpa [State.source, raiseMask, Vector.getElem_set_ne, hne] using h

/-- A pending source is pending after the LOG_LOW check. -/
theorem logLowCheck_pending_mono {x : NoticeSource} {s : State} (h : (s.source x).pending = true) :
    ((logLowCheck s).source x).pending = true := by
  unfold logLowCheck
  split
  · split
    · exact raiseMask_pending_mono _ h
    · exact h
  · exact h

/-! ## A record that joins the log -/

/-- A record that joins the log changes the log and the notices alone. -/
theorem joinLog_frame (body : LogBody) (r : Nat) (s : State) :
    joinLog body r s = { s with log := (joinLog body r s).log, notices := (joinLog body r s).notices } := by
  unfold joinLog
  dsimp only
  rw [logLowCheck_frame]
  split <;> rfl

@[simp] theorem joinLog_stations (body : LogBody) (r : Nat) (s : State) :
    (joinLog body r s).stations = s.stations := by rw [joinLog_frame]
@[simp] theorem joinLog_accounts (body : LogBody) (r : Nat) (s : State) :
    (joinLog body r s).accounts = s.accounts := by rw [joinLog_frame]
@[simp] theorem joinLog_host (body : LogBody) (r : Nat) (s : State) : (joinLog body r s).host = s.host := by
  rw [joinLog_frame]
@[simp] theorem joinLog_account (body : LogBody) (r : Nat) (s : State) (i : AccountId) :
    (joinLog body r s).account i = s.account i := by simp [State.account]

/-- A record that joins an empty log makes SETTLEMENT pending (R172). -/
theorem joinLog_settlement (body : LogBody) (r : Nat) {s : State} (h : s.log.records = []) :
    ((joinLog body r s).source .settlement).pending = true := by
  unfold joinLog
  refine logLowCheck_pending_mono ?_
  rw [if_pos (List.isEmpty_iff.mpr h), raise, raiseMask_source]

/-- A STATEMENT is taken against unreserved space, with the counter's value as its number (R169). -/
theorem offerStatement_taken (body : LogBody) {s : State} (h : 1 ≤ s.log.unreserved) :
    offerStatement body s = (some s.log.counter, joinLog body s.log.reservations s) := if_pos h

/-- A STATEMENT without unreserved space is refused and changes nothing (R169). -/
theorem offerStatement_refused (body : LogBody) {s : State} (h : s.log.unreserved = 0) :
    offerStatement body s = (none, s) := if_neg (by omega)

/-! ## The account a payload names -/

/-- Two bytes are a payload's field of two bytes. -/
theorem fieldAt_be2_alone {n : Nat} (h : n < 65536) : fieldAt (be2 n) 0 2 = n := by
  simpa using fieldAt_be2 h []

/-- A payload of an account's index names the account. -/
theorem onAccount_index (i : AccountId) (s : State) (k : AccountId → Handled) : onAccount (be2 i.val) s k = k i := by
  have hi : i.val < 65536 := Nat.lt_trans i.isLt (by decide)
  rw [onAccount, fieldAt_be2_alone hi, accountOf, dif_pos i.isLt]

/-- A payload of an index above 2,047 names no account. -/
theorem onAccount_beyond {index : Nat} (h : 2047 < index) (hi : index < 65536) (s : State) (k : AccountId → Handled) :
    onAccount (be2 index) s k = refuse .badParameter s := by
  rw [onAccount, fieldAt_be2_alone hi, accountOf, dif_neg (Nat.not_lt.mpr h)]

/-! ## CLOSE-PERIOD -/

/-- An account with an open session is not closed (R126). -/
theorem ruleClosePeriod_busy {s : State} {i : AccountId} (h : (s.account i).funded ≠ []) :
    ruleClosePeriod (be2 i.val) s = refuse .busy s := by
  rw [ruleClosePeriod, onAccount_index, if_pos h]

/-- An account whose STATEMENT the log refuses is not closed (R126). -/
theorem ruleClosePeriod_logFull {s : State} {i : AccountId} (h : (s.account i).funded = [])
    (hu : s.log.unreserved = 0) : ruleClosePeriod (be2 i.val) s = refuse .logFull s := by
  rw [ruleClosePeriod, onAccount_index, if_neg (not_not_intro h), offerStatement_refused _ hu]

/-- The state a closed period leaves: the STATEMENT in the log, and the account's period anew (R126). -/
def periodClosedOf (i : AccountId) (s : State) : State :=
  (joinLog (.statement (statementOf i s)) s.log.reservations s).modAccount i (Account.newPeriod s.clock s.clockSet)

/-- An account whose STATEMENT the log takes is closed, and the reply carries the record's number (R126). -/
theorem ruleClosePeriod_closed {s : State} {i : AccountId} (h : (s.account i).funded = [])
    (hu : 1 ≤ s.log.unreserved) :
    ruleClosePeriod (be2 i.val) s = report (be4 s.log.counter) (periodClosedOf i s) := by
  rw [ruleClosePeriod, onAccount_index, if_neg (not_not_intro h), offerStatement_taken _ hu, periodClosedOf]

/-- The host link takes no part in the closing of a period. -/
theorem periodClosedOf_host (i : AccountId) (s : State) : (periodClosedOf i s).host = s.host := by
  simp [periodClosedOf]

/-- The log holds the STATEMENT at its tail, and its reservations are as they were (R126, R169). -/
theorem periodClosedOf_log (i : AccountId) (s : State) :
    (periodClosedOf i s).log.records =
        s.log.records ++ [{ number := s.log.counter, body := .statement (statementOf i s) }] ∧
      (periodClosedOf i s).log.reservations = s.log.reservations := by
  obtain ⟨hrecords, -, hreservations⟩ := joinLog_log (.statement (statementOf i s)) s.log.reservations s
  exact ⟨hrecords, hreservations⟩

/-- The account of the closed period (R126). -/
theorem periodClosedOf_account {s : State} (hs : AccountTable.wf s.accounts) (i : AccountId) :
    (periodClosedOf i s).account i = (s.account i).newPeriod s.clock s.clockSet := by
  rw [periodClosedOf, account_modAccount_self ((joinLog_accounts _ _ s).symm ▸ hs), joinLog_account]

/-- Every other account is as it was. -/
theorem periodClosedOf_account_ne (s : State) {i k : AccountId} (h : k ≠ i) :
    (periodClosedOf i s).account k = s.account k := by
  rw [periodClosedOf, account_modAccount_ne _ _ h, joinLog_account]

/-- The row of CLOSE-PERIOD at the head of the queue answers what its rule gives, once the tables are ready. -/
theorem exec_closePeriod {s t : State} {tag : Byte} {rest : List Frame} {index : Nat} {status : Status}
    {data : List Byte} (h : Executing s ⟨0x1D#8, tag, be2 index⟩ rest) (ht : s.tablesReady = true)
    (hr : ruleClosePeriod (be2 index) s = (status, data, t)) (hh : t.host = s.host) :
    exec .closePeriod s = .next (answered t rest ⟨0x1D#8, tag, be2 index⟩ status data) := by
  have hrun : exec .closePeriod s = .next (runCommand (ofCode 0x1D) ruleClosePeriod s) := rfl
  rw [hrun, runCommand_answers h rfl (by simp [sizeAllowed]) (fun _ => ht) hr hh]

/-- Settles O32: the clauses are the cases of the rule, and the closed period's state is read field by field. -/
theorem closePeriodResult : Obligations.ClosePeriodResult := by
  refine ⟨fun s tag rest i ht hs h => ⟨fun hf => ?_, fun hf hu => ?_, fun hf hu => ?_⟩,
    fun s tag rest index ht hlow hhigh h => ?_⟩
  · exact exec_closePeriod h ht (ruleClosePeriod_busy hf) rfl
  · exact exec_closePeriod h ht (ruleClosePeriod_logFull hf hu) rfl
  · obtain ⟨hrecords, hreservations⟩ := periodClosedOf_log i s
    exact ⟨periodClosedOf i s, exec_closePeriod h ht (ruleClosePeriod_closed hf hu) (periodClosedOf_host i s),
      hrecords, hreservations, joinLog_stations _ _ s, joinLog_settlement _ _, fun _ => periodClosedOf_account_ne s,
      periodClosedOf_account hs i⟩
  · exact exec_closePeriod h ht (onAccount_beyond hlow hhigh s _) rfl

end Sys2Proof.Machine
end

section
/-! PROOF. What the blocks' own operations leave alone. `Internal s t` says that `t` follows from `s` by operations of the
blocks: the link to the host, the clock, the tables that the host alone sets, the settings and the levels are as they were,
and the account table's form, the log's invariant and the counters' ranges are kept. `InternalAt n s t` says besides that no
other station than `n` has changed. Every shared operation has one of the two, proved once here. -/

namespace Sys2Proof.Machine

/-! ## The settlement log's numbers -/

/-- A number that passes from its largest value to 1 stays in its range. -/
theorem nextNumber_range {n : Nat} : 1 ≤ nextNumber n ∧ nextNumber n ≤ max32 := by
  unfold nextNumber max32
  split <;> constructor <;> omega

/-- A record that joins with the counter's number keeps the numbers without a gap (R164, R165). -/
theorem numbersRun_append (body : LogBody) : ∀ {l : List LogRecord} {c : Nat}, numbersRun c l →
    numbersRun (nextNumber c) (l ++ [{ number := c, body := body }])
  | [], _, _ => rfl
  | [_], _, h => ⟨h, rfl⟩
  | _ :: q :: t, _, ⟨h, ht⟩ => ⟨h, numbersRun_append body (l := q :: t) ht⟩

/-- Records that leave from the head leave the numbers without a gap. -/
theorem numbersRun_tail {r : LogRecord} : ∀ {l : List LogRecord} {c : Nat}, numbersRun c (r :: l) → numbersRun c l
  | [], _, _ => trivial
  | _ :: _, _, h => h.2

/-- So it is for any count of records. -/
theorem numbersRun_drop {c : Nat} : ∀ (k : Nat) {l : List LogRecord}, numbersRun c l → numbersRun c (l.drop k)
  | 0, _, h => h
  | _ + 1, [], h => h
  | k + 1, _ :: _, h => numbersRun_drop k (numbersRun_tail h)

/-! ## The two relations -/

/-- The counters stand in their ranges (R2, R129, R165). -/
structure State.Counting (s : State) : Prop where
  tag : 1 ≤ s.tagCounter ∧ s.tagCounter ≤ 65535
  session : 1 ≤ s.sessionCounter ∧ s.sessionCounter ≤ max32
  record : 1 ≤ s.log.counter ∧ s.log.counter ≤ max32

/-- `t` follows from `s` by operations of the blocks. -/
structure Internal (s t : State) : Prop where
  rest : t = { s with
    stations := t.stations, accounts := t.accounts, log := t.log, notices := t.notices, tagCounter := t.tagCounter
    fetchOrder := t.fetchOrder, sessionCounter := t.sessionCounter, draws := t.draws, answer := t.answer }
  settings : ∀ m, (t.st m).settings = (s.st m).settings
  maskLevel : t.notices.maskLevel = s.notices.maskLevel
  levels : ∀ src, (t.source src).level = (s.source src).level
  tables : AccountTable.wf s.accounts → AccountTable.wf t.accounts
  log : s.log.sound → t.log.sound
  counting : s.Counting → t.Counting

/-- `t` follows from `s` by operations of the blocks on behalf of station `n`: no other station has changed. -/
structure InternalAt (n : StationId) (s t : State) : Prop extends Internal s t where
  others : ∀ m, m ≠ n → t.st m = s.st m

theorem Internal.refl (s : State) : Internal s s :=
  ⟨rfl, fun _ => rfl, rfl, fun _ => rfl, id, id, id⟩

theorem Internal.trans {s t u : State} (h : Internal s t) (k : Internal t u) : Internal s u where
  rest := by
    have hr := k.rest
    rw [h.rest] at hr
    exact hr
  settings m := (k.settings m).trans (h.settings m)
  maskLevel := k.maskLevel.trans h.maskLevel
  levels src := (k.levels src).trans (h.levels src)
  tables := k.tables ∘ h.tables
  log := k.log ∘ h.log
  counting := k.counting ∘ h.counting

theorem InternalAt.refl (n : StationId) (s : State) : InternalAt n s s := ⟨.refl s, fun _ _ => rfl⟩

theorem InternalAt.trans {n : StationId} {s t u : State} (h : InternalAt n s t) (k : InternalAt n t u) :
    InternalAt n s u :=
  ⟨h.toInternal.trans k.toInternal, fun m hm => (k.others m hm).trans (h.others m hm)⟩

/-- The relation holds of a choice when it holds of both sides. -/
theorem InternalAt.ite {n : StationId} {s t u : State} {c : Prop} [Decidable c] (h : InternalAt n s t)
    (k : InternalAt n s u) : InternalAt n s (if c then t else u) := by
  split
  · exact h
  · exact k

namespace Internal
variable {s t : State} (h : Internal s t)
include h

theorem host : t.host = s.host := by rw [h.rest]
theorem clock : t.clock = s.clock := by rw [h.rest]
theorem clockSet : t.clockSet = s.clockSet := by rw [h.rest]
theorem quantum : t.quantum = s.quantum := by rw [h.rest]
theorem tablesReady : t.tablesReady = s.tablesReady := by rw [h.rest]
theorem rules : t.rules = s.rules := by rw [h.rest]
theorem defaultAction : t.defaultAction = s.defaultAction := by rw [h.rest]
theorem bindings : t.bindings = s.bindings := by rw [h.rest]
theorem tariffs : t.tariffs = s.tariffs := by rw [h.rest]
theorem pending : t.pending = s.pending := by rw [h.rest]
theorem tenths : t.tenths = s.tenths := by rw [h.rest]

end Internal

/-! ## The basic updates -/

/-- A change of a station's items that leaves its settings. -/
theorem internal_modSt (s : State) (n : StationId) (f : Station → Station)
    (hf : (f (s.st n)).settings = (s.st n).settings) : InternalAt n s (s.modSt n f) where
  rest := rfl
  settings m := by
    by_cases h : m = n
    · subst h; rw [st_modSt_self, hf]
    · rw [st_modSt_ne s f h]
  maskLevel := rfl
  levels _ := rfl
  tables := id
  log := id
  counting h := ⟨h.tag, h.session, h.record⟩
  others _ h := st_modSt_ne s f h

/-- A change of an account. -/
theorem internal_modAccount (n : StationId) (s : State) (i : AccountId) (f : Account → Account) :
    InternalAt n s (s.modAccount i f) :=
  ⟨⟨rfl, fun _ => rfl, rfl, fun _ => rfl, fun h => modAccount_wf h i f, id, fun h => ⟨h.tag, h.session, h.record⟩⟩,
    fun _ _ => rfl⟩

/-- A raise (R196). -/
theorem internal_raiseMask (n : StationId) (src : NoticeSource) (m : Mask) (s : State) :
    InternalAt n s (raiseMask src m s) :=
  ⟨⟨rfl, fun _ => rfl, rfl, raiseMask_level src m s, id, id, fun h => ⟨h.tag, h.session, h.record⟩⟩, fun _ _ => rfl⟩

theorem internal_raiseFor (n : StationId) (src : NoticeSource) (m : StationId) (s : State) :
    InternalAt n s (raiseFor src m s) := internal_raiseMask n src _ s

/-- A change of the log that keeps its invariant and its counter's range. -/
theorem internal_log (n : StationId) (s : State) (l : Log) (hs : s.log.sound → l.sound)
    (hc : 1 ≤ s.log.counter ∧ s.log.counter ≤ max32 → 1 ≤ l.counter ∧ l.counter ≤ max32) :
    InternalAt n s { s with log := l } :=
  ⟨⟨rfl, fun _ => rfl, rfl, fun _ => rfl, id, hs, fun h => ⟨h.tag, h.session, hc h.record⟩⟩, fun _ _ => rfl⟩

/-- A change of the fetch order. -/
theorem internal_fetchOrder (n : StationId) (s : State) (l : List StationId) :
    InternalAt n s { s with fetchOrder := l } :=
  ⟨⟨rfl, fun _ => rfl, rfl, fun _ => rfl, id, id, fun h => ⟨h.tag, h.session, h.record⟩⟩, fun _ _ => rfl⟩

/-- An answer (log entry 3). -/
theorem internal_answerWith (n : StationId) (a : Answer) (s : State) : InternalAt n s (answerWith a s) :=
  ⟨⟨rfl, fun _ => rfl, rfl, fun _ => rfl, id, id, fun h => ⟨h.tag, h.session, h.record⟩⟩, fun _ _ => rfl⟩

/-- A draw of the stations' order (log entry 4). -/
theorem internal_takeOrder (n : StationId) (s : State) : InternalAt n s (takeOrder s).2 :=
  ⟨⟨rfl, fun _ => rfl, rfl, fun _ => rfl, id, id, fun h => ⟨h.tag, h.session, h.record⟩⟩, fun _ _ => rfl⟩

/-- Turns of several stations. -/
theorem internal_atEach {f : StationId → State → State} (hf : ∀ n s, Internal s (f n s)) (l : List StationId)
    (s : State) : Internal s (atEach l f s) :=
  atEach_keeps (P := Internal s) (fun n _ h => h.trans (hf n _)) l s (.refl s)

/-! ## The settlement log -/

theorem internal_logLowCheck (n : StationId) (s : State) : InternalAt n s (logLowCheck s) := by
  unfold logLowCheck
  split
  · split
    · exact (internal_log n s { s.log with armed := false } id id).trans (internal_raiseMask n _ _ _)
    · exact .refl n s
  · exact internal_log n s { s.log with armed := true } id id

theorem internal_reserve (n : StationId) (s : State) : InternalAt n s (reserve s).2 := by
  unfold reserve
  split
  · next hu =>
    refine (internal_log n s { s.log with reservations := s.log.reservations + 1 } (fun h => ⟨?_, h.2⟩) id).trans
      (internal_logLowCheck n _)
    unfold Log.unreserved at hu
    show s.log.records.length + (s.log.reservations + 1) ≤ 256
    omega
  · exact .refl n s

theorem internal_returnReservation (n : StationId) (s : State) : InternalAt n s (returnReservation s) := by
  refine (internal_log n s { s.log with reservations := s.log.reservations - 1 } (fun h => ⟨?_, h.2⟩) id).trans
    (internal_logLowCheck n _)
  have h1 : s.log.records.length + s.log.reservations ≤ 256 := h.1
  show s.log.records.length + (s.log.reservations - 1) ≤ 256
  omega

/-- A record that joins where its reservations leave room. -/
theorem internal_joinLog (n : StationId) (body : LogBody) (r : Nat) (s : State)
    (hr : s.log.within → s.log.records.length + 1 + r ≤ 256) : InternalAt n s (joinLog body r s) := by
  have hlog := internal_log n s
    { s.log with
      records := s.log.records ++ [{ number := s.log.counter, body := body }]
      counter := nextNumber s.log.counter
      reservations := r }
    (fun h => ⟨by simpa [Log.within] using hr h.1, numbersRun_append body h.2⟩) (fun _ => nextNumber_range)
  unfold joinLog
  exact (InternalAt.ite (hlog.trans (internal_raiseMask _ _ _ _)) hlog).trans (internal_logLowCheck _ _)

theorem internal_offerReserved (n : StationId) (body : LogBody) (s : State) :
    InternalAt n s (offerReserved body s) := by
  unfold offerReserved
  split
  · refine internal_joinLog n body _ s fun h => ?_
    have h1 : s.log.records.length + s.log.reservations ≤ 256 := h
    omega
  · exact .refl n s

theorem internal_offerStatement (n : StationId) (body : LogBody) (s : State) :
    InternalAt n s (offerStatement body s).2 := by
  unfold offerStatement
  split
  · next hu =>
    refine internal_joinLog n body _ s fun _ => ?_
    unfold Log.unreserved at hu
    omega
  · exact .refl n s

/-! ## Panels, entries, faults -/

theorem internal_sendPanel (n : StationId) (l : Bool) (a : Nat) (c : Option PanelCode) (s : State) :
    InternalAt n s (sendPanel n l a c s) := internal_modSt _ _ _ rfl

theorem internal_statePanel (n : StationId) (s : State) : InternalAt n s (statePanel n s) := by
  unfold statePanel
  split
  · exact .refl n s
  · exact internal_sendPanel _ _ _ _ _

theorem internal_commitTariff (q : Bool) (n : StationId) (s : State) : InternalAt n s (commitTariff q n s) := by
  unfold commitTariff
  split
  · exact .refl n s
  · exact .ite (internal_modSt _ _ _ rfl) ((internal_modSt _ _ _ rfl).trans (internal_raiseFor _ _ _ _))

theorem internal_raiseEntry (new : StationState) (n : StationId) (s : State) :
    InternalAt n s (raiseEntry new n s) := by
  unfold raiseEntry
  split
  · exact .refl n s
  · exact internal_raiseFor _ _ _ _

theorem internal_enter (q : Bool) (new : StationState) (n : StationId) (s : State) :
    InternalAt n s (enter q new n s) := by
  have h := (internal_modSt s n (Station.entering new) rfl).trans
    ((internal_raiseEntry new n _).trans (internal_statePanel n _))
  unfold enter
  exact .ite (.refl n s) (.ite (h.trans (internal_commitTariff q n _)) h)

theorem internal_enterService (q : Bool) (n : StationId) (s : State) : InternalAt n s (enterService q n s) :=
  (internal_raiseFor _ _ _ _).trans (internal_enter _ _ _ _)

theorem internal_enterIdle (q : Bool) (n : StationId) (s : State) : InternalAt n s (enterIdle q n s) := by
  unfold enterIdle
  exact .ite ((internal_modSt s n _ rfl).trans (internal_enterService _ _ _))
    (.ite (internal_enterService _ _ _) (.ite (internal_enter _ _ _ _) (internal_enter _ _ _ _)))

theorem internal_protocolFault (n : StationId) (s : State) : InternalAt n s (protocolFault n s) :=
  (internal_modSt _ _ _ rfl).trans (internal_raiseFor _ _ _ _)

/-! ## The account table's requests -/

theorem internal_requestAdmission (i : AccountId) (n : StationId) (floor : Nat) (s : State) :
    InternalAt n s (requestAdmission i n floor s).2 := by
  unfold requestAdmission
  dsimp only
  split
  · exact .refl n s
  · split
    · exact .refl n s
    · split
      · exact .refl n s
      · dsimp only
        exact internal_modAccount n s i _

theorem internal_modSession (n : StationId) (f : Session → Session) (s : State) :
    InternalAt n s (modSession n f s) := internal_modSt _ _ _ rfl

theorem internal_modJob (n : StationId) (f : Job → Job) (s : State) : InternalAt n s (modJob n f s) :=
  internal_modSt _ _ _ rfl

theorem internal_requestExtension (i : AccountId) (n : StationId) (s : State) :
    InternalAt n s (requestExtension i n s).2 := by
  unfold requestExtension
  split
  · exact .refl n s
  · exact ((internal_modAccount n _ _ _).trans (internal_modSession _ _ _)).trans (internal_statePanel _ _)

theorem internal_startWake (n : StationId) (i : AccountId) (s : State) : InternalAt n s (startWake i s) :=
  internal_modAccount _ _ _ _

theorem internal_requestPosting (i : AccountId) (n : StationId) (charge : Nat) (s : State) :
    InternalAt n s (requestPosting i n charge s) := by
  unfold requestPosting
  split
  · exact .refl n s
  · exact .ite ((internal_modAccount _ _ _ _).trans (internal_startWake _ _ _)) (internal_modAccount _ _ _ _)

/-! ## Sessions -/

theorem internal_takeSessionNumber (n : StationId) (s : State) : InternalAt n s (takeSessionNumber s).2 :=
  ⟨⟨rfl, fun _ => rfl, rfl, fun _ => rfl, id, id, fun h => ⟨h.tag, nextNumber_range, h.record⟩⟩, fun _ _ => rfl⟩

theorem internal_openSession (funding : Funding) (card : CardId) (limit : Option Nat) (discount : Nat) (n : StationId)
    (s : State) : InternalAt n s (openSession funding card limit discount n s) :=
  ((internal_takeSessionNumber n s).trans (internal_modSt _ _ _ rfl)).trans (internal_enter _ _ _ _)

/-- A tag that is passed over stays in the tags' range. -/
theorem nextTag_range (t : Nat) : 1 ≤ nextTag t ∧ nextTag t ≤ 65535 := by
  unfold nextTag
  split <;> constructor <;> omega

theorem internal_takeTag (n : StationId) (s : State) : InternalAt n s (takeTag s).2 :=
  ⟨⟨rfl, fun _ => rfl, rfl, fun _ => rfl, id, id, fun h => ⟨nextTag_range _, h.session, h.record⟩⟩, fun _ _ => rfl⟩

theorem internal_announceRequest (n : StationId) (s : State) : InternalAt n s (announceRequest n s) :=
  (internal_fetchOrder _ _ _).trans (internal_raiseFor _ _ _ _)

theorem internal_leaveFetchOrder (n : StationId) (s : State) : InternalAt n s (leaveFetchOrder n s) :=
  internal_fetchOrder _ _ _

theorem internal_firstRequest (card : CardId) (dc : Nat) (n : StationId) (s : State) :
    InternalAt n s (firstRequest card dc n s) :=
  ((internal_takeTag n s).trans (internal_modSt _ _ _ rfl)).trans (internal_announceRequest _ _)

theorem internal_requestTopup (n : StationId) (s : State) : InternalAt n s (requestTopup n s) := by
  unfold requestTopup
  split
  · exact (((internal_takeTag n s).trans (internal_modSt _ _ _ rfl)).trans (internal_modSession _ _ _)).trans
      (internal_announceRequest _ _)
  all_goals exact .refl n s

theorem internal_voidTopup (n : StationId) (s : State) : InternalAt n s (voidTopup n s) := by
  unfold voidTopup
  split
  · exact ((internal_modSt _ _ _ rfl).trans (internal_modSession _ _ _)).trans (internal_leaveFetchOrder _ _)
  all_goals exact .refl n s

theorem internal_voidFirst (cause : VoidCause) (n : StationId) (s : State) :
    InternalAt n s (voidFirst cause n s) := by
  unfold voidFirst
  split
  · exact ((internal_modSt _ _ _ rfl).trans (internal_leaveFetchOrder _ _)).trans (internal_offerReserved _ _ _)
  all_goals exact .refl n s

theorem internal_returnSides (n : StationId) (i : AccountId) (sheets : List Sheet) (s : State) :
    InternalAt n s (returnSides i sheets s) := by
  have h : ∀ (l : List ClassId) (u : State), InternalAt n u (l.foldl (fun acc c =>
      if chargedOf sheets c = 0 then acc else requestSideReturn i c (chargedOf sheets c) acc) u) := by
    intro l
    induction l with
    | nil => exact fun u => .refl n u
    | cons c l ih => exact fun u => (InternalAt.ite (.refl n u) (internal_modAccount _ _ _ _)).trans (ih _)
  exact h _ s

theorem internal_credit (n : StationId) (s : State) : InternalAt n s (credit n s) := by
  unfold credit
  dsimp only
  split
  · exact internal_modSt _ _ _ rfl
  · split
    · exact (internal_modSt _ _ _ rfl).trans (internal_returnSides _ _ _ _)
    all_goals exact internal_modSt _ _ _ rfl

theorem internal_allowReprint (sides : Nat) (n : StationId) (s : State) :
    InternalAt n s (allowReprint sides n s) := internal_modJob _ _ _

theorem internal_postCharge (n : StationId) (ses : Session) (charge : Nat) (s : State) :
    InternalAt n s (postCharge n ses charge s) := by
  unfold postCharge
  split
  · exact internal_requestPosting _ _ _ _
  all_goals exact .refl n s

theorem internal_settleRecord (n : StationId) (s : State) : InternalAt n s (settleRecord n s) := by
  unfold settleRecord
  split
  · exact .refl n s
  · exact ((internal_postCharge _ _ _ _).trans (internal_offerReserved _ _ _)).trans (internal_modSt _ _ _ rfl)

theorem internal_settle (n : StationId) (s : State) : InternalAt n s (settle n s) := by
  have hr := internal_settleRecord n s
  unfold settle
  split
  · exact .refl n s
  · exact .ite ((hr.trans (internal_modSt _ _ _ rfl)).trans (internal_enter _ _ _ _))
      (.ite ((hr.trans (internal_modSt _ _ _ rfl)).trans (internal_enter _ _ _ _))
        (.ite (hr.trans (internal_enter _ _ _ _))
          (.ite (hr.trans (internal_enter _ _ _ _)) (hr.trans (internal_enterIdle _ _ _)))))

theorem internal_dropJob (n : StationId) (s : State) : InternalAt n s (dropJob n s) := internal_modSt _ _ _ rfl

theorem internal_sendHalt (n : StationId) (s : State) : InternalAt n s (sendHalt n s) := internal_modSt _ _ _ rfl

theorem internal_setEndReason (reason : EndReason) (n : StationId) (s : State) :
    InternalAt n s (setEndReason reason n s) := internal_modSession _ _ _

theorem internal_startClosing (reason : EndReason) (n : StationId) (s : State) :
    InternalAt n s (startClosing reason n s) := by
  unfold startClosing
  split
  · exact .refl n s
  · have h1 := (internal_modSt s n (fun x => { x with
      jamDuringClose := x.jamDuringClose || decide (x.state = .jammedSession) }) rfl).trans (internal_voidTopup n _)
    have h2 := (h1.trans (internal_modSt _ n Station.stopForClose rfl)).trans
      ((internal_sendHalt n _).trans (internal_dropJob n _))
    have h3 := h2.trans ((internal_setEndReason reason n _).trans (internal_enter false .closing n _))
    exact .ite (h3.trans (internal_settle _ _)) (h3.trans (internal_modSt _ _ _ rfl))

theorem internal_closeAtOnce (reason : EndReason) (n : StationId) (s : State) :
    InternalAt n s (closeAtOnce reason n s) :=
  ((internal_voidTopup n s).trans (internal_modSt _ n Station.stopForClose rfl)).trans
    ((internal_sendHalt n _).trans ((internal_dropJob n _).trans
      ((internal_credit n _).trans (internal_setEndReason reason n _))))

theorem internal_settleNow (reason : EndReason) (n : StationId) (s : State) :
    InternalAt n s (settleNow reason n s) := (internal_closeAtOnce _ _ _).trans (internal_settle _ _)

/-! ## Grants -/

theorem internal_askExtensions (i : AccountId) (n : StationId) (request : Nat) :
    ∀ (tries : Nat) (s : State), InternalAt n s (askExtensions i n request tries s)
  | 0, s => .refl n s
  | tries + 1, s => by
    unfold askExtensions
    refine .ite (.refl n s) ?_
    have h := internal_requestExtension i n s
    split
    · next heq => rw [heq] at h; exact h
    · next heq => rw [heq] at h; exact h.trans (internal_askExtensions i n request tries _)

theorem internal_askFunder (n : StationId) (request : Nat) (s : State) :
    InternalAt n s (askFunder n request s) := by
  unfold askFunder
  refine .ite (.refl n s) ?_
  split
  · exact .refl n s
  · split
    · exact internal_askExtensions _ _ _ _ _
    · exact .ite (internal_requestTopup _ _) (.refl n s)
    · exact .refl n s

theorem internal_sendGrant (n : StationId) (sides : Nat) (s : State) : InternalAt n s (sendGrant n sides s) :=
  internal_modSt _ _ _ rfl

theorem internal_giveGrant (n : StationId) (request g : Nat) (oneSet : Bool) (s : State) :
    InternalAt n s (giveGrant n request g oneSet s) :=
  .ite ((internal_modJob _ _ _).trans (internal_sendGrant _ _ _)) (internal_modJob _ _ _)

theorem internal_grantOutcome (n : StationId) (request g : Nat) (s : State) :
    InternalAt n s (grantOutcome n request g s) :=
  .ite (internal_enter _ _ _ _) (.ite (internal_enter _ _ _ _) (.refl n s))

theorem internal_consult (atStart : Bool) (n : StationId) (s : State) : InternalAt n s (consult atStart n s) := by
  unfold consult
  split
  · exact .refl n s
  · exact ((internal_askFunder _ _ _).trans (internal_giveGrant _ _ _ _ _)).trans (internal_grantOutcome _ _ _ _)

theorem internal_retry (n : StationId) (s : State) : InternalAt n s (retry n s) :=
  .ite (internal_consult _ _ _) (.refl n s)

theorem internal_startGrant (n : StationId) (s : State) : InternalAt n s (startGrant n s) := by
  unfold startGrant
  split
  · exact .refl n s
  · refine InternalAt.trans ?_ ((internal_enter false .running n _).trans (internal_consult true n _))
    split
    · exact internal_modSt _ _ _ rfl
    · split
      · exact (internal_modSt _ _ _ rfl).trans (internal_modAccount _ _ _ _)
      all_goals exact internal_modSt _ _ _ rfl

theorem internal_endJob (n : StationId) (s : State) : InternalAt n s (endJob n s) :=
  .ite ((internal_modSt _ _ _ rfl).trans (internal_enter _ _ _ _)) (internal_modSt _ _ _ rfl)

theorem internal_dropStart (n : StationId) (s : State) : InternalAt n s (dropStart n s) := internal_modSt _ _ _ rfl

theorem internal_denyStart (n : StationId) (s : State) : InternalAt n s (denyStart n s) :=
  ((internal_dropStart n s).trans (internal_enter _ _ _ _)).trans (internal_sendPanel _ _ _ _ _)

theorem internal_reprintGrant (n : StationId) (s : State) : InternalAt n s (reprintGrant n s) := by
  unfold reprintGrant
  split
  · exact .refl n s
  · exact ((internal_askFunder _ _ _).trans (internal_giveGrant _ _ _ _ _)).trans (internal_modJob _ _ _)

/-! ## Cards -/

theorem internal_endPassage (n : StationId) (s : State) : InternalAt n s (endPassage n s) := internal_modSt _ _ _ rfl

theorem internal_refuseAdmission (code : PanelCode) (n : StationId) (s : State) :
    InternalAt n s (refuseAdmission code n s) :=
  ((internal_endPassage n s).trans (internal_returnReservation n _)).trans (internal_sendPanel _ _ _ _ _)

theorem internal_openAccountSession (i : AccountId) (card : CardId) (limit dc : Nat) (n : StationId) (s : State) :
    InternalAt n s (openAccountSession i card limit dc n s) :=
  (internal_endPassage n s).trans (internal_openSession _ _ _ _ _ _)

theorem internal_admitAccount (p : Passage) (n : StationId) (s : State) : InternalAt n s (admitAccount p n s) := by
  unfold admitAccount
  split
  · exact internal_refuseAdmission _ _ _
  · next b _ =>
    refine .ite ((internal_raiseFor _ _ _ _).trans (internal_refuseAdmission _ _ _)) ?_
    have h := internal_requestAdmission b.account n (s.st n).floor s
    split
    case h_1 heq => rw [heq] at h; exact h.trans (internal_openAccountSession _ _ _ _ _ _)
    all_goals
      next heq =>
      rw [heq] at h
      exact h.trans (internal_refuseAdmission _ _ _)

theorem internal_admitOutcome (o : CardOutcome) (p : Passage) (n : StationId) (s : State) :
    InternalAt n s (admitOutcome o p n s) := by
  unfold admitOutcome
  split
  · exact internal_refuseAdmission _ _ _
  · exact (internal_endPassage n s).trans (internal_openSession _ _ _ _ _ _)
  · exact ((internal_endPassage n s).trans (internal_firstRequest _ _ _ _)).trans (internal_enter _ _ _ _)
  · exact internal_admitAccount _ _ _

theorem internal_finishPassage (n : StationId) (s : State) : InternalAt n s (finishPassage n s) := by
  unfold finishPassage
  split
  · exact .refl n s
  · split
    · exact internal_openAccountSession _ _ _ _ _ _
    · split
      · exact internal_refuseAdmission _ _ _
      · split
        · exact internal_admitOutcome _ _ _ _
        · exact .ite (((internal_endPassage n s).trans (internal_enterService _ _ _)).trans
            (internal_returnReservation n _))
            (.ite (internal_refuseAdmission _ _ _) (internal_admitOutcome _ _ _ _))

theorem internal_presentCard (card : CardId) (n : StationId) (s : State) : InternalAt n s (presentCard card n s) := by
  have h := internal_reserve n s
  unfold presentCard
  split
  · next heq => rw [heq] at h; exact h.trans (internal_sendPanel _ _ _ _ _)
  · next heq => rw [heq] at h; exact (h.trans (internal_modSt _ _ _ rfl)).trans (internal_finishPassage _ _)

theorem internal_tapCard (card : CardId) (n : StationId) (s : State) : InternalAt n s (tapCard card n s) := by
  unfold tapCard
  split
  · exact .refl n s
  · refine .ite (internal_startClosing _ _ _) (.ite (.refl n s) ?_)
    split
    · exact .refl n s
    · exact internal_sendPanel _ _ _ _ _

/-! ## Sheets -/

theorem internal_passSeq (sheet gap : Nat) (n : StationId) (s : State) : InternalAt n s (passSeq sheet gap n s) :=
  internal_modSt _ _ _ rfl

theorem internal_takeAdvance (i : AccountId) (c : ClassId) (n : StationId) (s : State) :
    InternalAt n s (takeAdvance i c n s).2 := by
  unfold takeAdvance
  split
  · dsimp only
    exact internal_modSt s n _ rfl
  · exact internal_modAccount n s i (fun a => { a with sides := modClass a.sides c (fun k => satAdd maxSides k 1) })

theorem internal_priceSide (c : ClassId) (kind : SideKind) (n : StationId) (s : State) :
    InternalAt n s (priceSide c kind n s).2 := by
  unfold priceSide
  split
  · split
    · exact (internal_takeAdvance _ _ _ _).trans (internal_modSession _ _ _)
    all_goals exact internal_modSession _ _ _
  all_goals exact .refl n s

theorem internal_priceSides (c : ClassId) (sides charged : Nat) (n : StationId) (s : State) :
    InternalAt n s (priceSides c sides charged n s).2 := by
  unfold priceSides
  split
  · exact .refl n s
  · exact internal_priceSide _ _ _ _
  · exact (internal_priceSide _ _ _ _).trans (internal_priceSide _ _ _ _)

theorem internal_countSheet (cls charged overrun : Nat) (n : StationId) (s : State) :
    InternalAt n s (countSheet cls charged overrun n s) := internal_modSt _ _ _ rfl

theorem internal_reportSides (cls : Nat) (cat : SideCategory) (sides : Nat) (n : StationId) (s : State) :
    InternalAt n s (reportSides cls cat sides n s) := internal_modSt _ _ _ rfl

theorem internal_meterSheet (sheet cls sides : Nat) (n : StationId) (s : State) :
    InternalAt n s (meterSheet sheet cls sides n s).2 := by
  unfold meterSheet
  refine InternalAt.trans (InternalAt.trans ?_ (internal_modSt _ n _ rfl))
    ((internal_reportSides _ _ _ n _).trans (internal_reportSides _ _ _ n _))
  split
  · exact internal_countSheet _ _ _ _ _
  · exact (internal_countSheet _ _ _ _ _).trans (internal_priceSides _ _ _ _ _)

theorem internal_exitHead (n : StationId) (s : State) : InternalAt n s (exitHead n s) := by
  unfold exitHead
  split
  · exact .refl n s
  · split
    · exact internal_modSt _ _ _ rfl
    · exact .ite ((internal_modSt _ _ _ rfl).trans (internal_endJob _ _)) (internal_modSt _ _ _ rfl)

theorem internal_exitUpTo (sheet : Nat) (n : StationId) :
    ∀ (k : Nat) (s : State), InternalAt n s (exitUpTo sheet n k s)
  | 0, s => .refl n s
  | k + 1, s => by
    unfold exitUpTo
    split
    · exact .refl n s
    · exact .ite ((internal_exitHead _ _).trans (internal_exitUpTo sheet n k _)) (.refl n s)

theorem internal_takeExited (sheet : Nat) (n : StationId) (s : State) : InternalAt n s (takeExited sheet n s) :=
  .ite ((internal_exitUpTo _ _ _ _).trans (internal_settle _ _)) (internal_exitUpTo _ _ _ _)

theorem internal_joinPath (e : Sheet) (n : StationId) (s : State) : InternalAt n s (joinPath e n s) :=
  (InternalAt.ite ((internal_exitHead _ _).trans (internal_protocolFault _ _)) (.refl n s)).trans
    (internal_modSt _ n (fun x => { x with inPath := x.inPath ++ [e] }) rfl)

theorem internal_restartIdle (n : StationId) (s : State) : InternalAt n s (restartIdle n s) := internal_modSt _ _ _ rfl

theorem internal_touchSession (n : StationId) (s : State) : InternalAt n s (touchSession n s) :=
  internal_modSession _ _ _

theorem internal_completeImaged (e : Sheet) (n : StationId) (s : State) : InternalAt n s (completeImaged e n s) := by
  have h := (internal_restartIdle n s).trans ((internal_touchSession n _).trans ((internal_statePanel n _).trans
    (internal_modJob n (fun j => { j with
      lastSheet := if j.mode = .single ∧ j.released = 0 ∧ j.unmet = 0 then some e.number else j.lastSheet }) _)))
  unfold completeImaged
  exact .ite (h.trans (internal_startClosing _ _ _)) (.ite (h.trans (internal_consult _ _ _)) h)

theorem internal_meterImaged (sheet cls sides : Nat) (n : StationId) (s : State) :
    InternalAt n s (meterImaged sheet cls sides n s) := by
  unfold meterImaged
  split
  · exact internal_protocolFault _ _
  · next gap _ =>
    exact ((internal_passSeq sheet gap n s).trans (internal_meterSheet sheet cls sides n _)).trans
      ((internal_joinPath _ n _).trans (internal_completeImaged _ n _))

theorem internal_unattributedImaged (sheet cls sides : Nat) (n : StationId) (s : State) :
    InternalAt n s (unattributedImaged sheet cls sides n s) := by
  unfold unattributedImaged
  split
  · exact internal_protocolFault _ _
  · exact ((internal_passSeq _ _ _ _).trans (internal_modSt _ _ _ rfl)).trans (internal_reportSides _ _ _ _ _)

/-- What becomes of a sheet metered in JAMMED (R153): it joins the path, which is credited into the reprint allowance and
the last jam report. -/
def creditMetered (e : Sheet) (n : StationId) (s : State) : State :=
  let s2 := s.modSt n (fun x => { x with inPath := x.inPath ++ [e] })
  let sheets := (s2.st n).inPath
  let s3 := allowReprint (chargedSum sheets) n (credit n s2)
  statePanel n (touchSession n (s3.modSt n (fun x => { x with lastJam := x.lastJam.map (JamReport.add sheets) })))

/-- A sheet that passes the sequence check in JAMMED is metered and credited. -/
theorem jammedImaged_passes {sheet cls sides gap : Nat} {n : StationId} {s : State}
    (h : (s.st n).seqVerdict sheet = some gap) :
    jammedImaged sheet cls sides n s =
      creditMetered (meterSheet sheet cls sides n (passSeq sheet gap n s)).1 n
        (meterSheet sheet cls sides n (passSeq sheet gap n s)).2 := by
  rw [jammedImaged, h]
  rfl

theorem internal_creditMetered (e : Sheet) (n : StationId) (s : State) : InternalAt n s (creditMetered e n s) := by
  unfold creditMetered
  dsimp only
  exact (internal_modSt s n _ rfl).trans ((internal_credit n _).trans ((internal_allowReprint _ n _).trans
    ((internal_modSt _ n _ rfl).trans ((internal_touchSession n _).trans (internal_statePanel n _)))))

theorem internal_jammedImaged (sheet cls sides : Nat) (n : StationId) (s : State) :
    InternalAt n s (jammedImaged sheet cls sides n s) := by
  cases h : (s.st n).seqVerdict sheet with
  | none => rw [jammedImaged, h]; exact internal_protocolFault n s
  | some gap =>
    rw [jammedImaged_passes h]
    exact ((internal_passSeq sheet gap n s).trans (internal_meterSheet sheet cls sides n _)).trans
      (internal_creditMetered _ n _)

theorem internal_takeImaged (sheet cls sides : Nat) (n : StationId) (s : State) :
    InternalAt n s (takeImaged sheet cls sides n s) := by
  unfold takeImaged
  refine .ite (.refl n s) (.ite (internal_protocolFault _ _) ?_)
  split
  case h_1 | h_2 | h_3 | h_4 | h_5 => exact internal_meterImaged _ _ _ _ _
  case h_6 => exact internal_jammedImaged _ _ _ _ _
  case h_7 | h_8 | h_9 | h_10 => exact internal_unattributedImaged _ _ _ _ _
  all_goals exact .refl n s

/-! ## Recovery -/

theorem internal_suspend (n : StationId) (s : State) : InternalAt n s (suspend n s) :=
  ((InternalAt.ite (internal_dropStart _ _) (.refl n s)).trans (internal_modSt _ _ _ rfl)).trans
    (internal_enter _ _ _ _)

theorem internal_resume (n : StationId) (s : State) : InternalAt n s (resume n s) := by
  unfold resume
  split
  · exact .refl n s
  · exact (internal_modSt _ _ _ rfl).trans (internal_statePanel _ _)

theorem internal_arrive (n : StationId) (s : State) : InternalAt n s (arrive n s) := by
  have h := (internal_modSt s n (fun x => { x with silence := 0 }) rfl).trans (internal_finishPassage n _)
  unfold arrive
  exact .ite (h.trans (internal_enterIdle _ _ _)) (.ite (h.trans (internal_resume _ _)) h)

theorem internal_activity (n : StationId) (s : State) : InternalAt n s (activity n s) :=
  (internal_restartIdle _ _).trans (internal_touchSession _ _)

theorem internal_linkSilent (n : StationId) (s : State) : InternalAt n s (linkSilent n s) := by
  have h := (internal_modSt s n (fun x => { x with silence := 100 }) rfl).trans (internal_finishPassage n _)
  unfold linkSilent
  generalize finishPassage n (s.modSt n (fun x => { x with silence := 100 })) = t at h ⊢
  dsimp only
  split
  case h_1 | h_2 | h_3 => exact h.trans (internal_enter _ _ _ _)
  case h_4 | h_5 | h_6 | h_7 | h_8 => exact h.trans (internal_suspend _ _)
  all_goals exact h

theorem internal_reportJam (location sheets : Nat) (n : StationId) (s : State) :
    InternalAt n s (reportJam location sheets n s) := internal_modSt _ _ _ rfl

theorem internal_creditJam (n : StationId) (s : State) : InternalAt n s (creditJam n s) :=
  ((internal_modSession n _ s).trans (internal_credit n _)).trans
    (internal_modSt _ n (fun x => { x with lastJam := x.lastJam.map (JamReport.add (s.st n).inPath) }) rfl)

theorem internal_jamLimit (n : StationId) (s : State) : InternalAt n s (jamLimit n s) := by
  unfold jamLimit
  split
  · exact .refl n s
  · exact .ite (internal_settleNow _ _ _) (.refl n s)

theorem internal_jamInSession (n : StationId) (s : State) : InternalAt n s (jamInSession n s) :=
  ((internal_creditJam n s).trans (internal_allowReprint _ _ _)).trans ((internal_modSt _ _ _ rfl).trans
    ((internal_enter _ _ _ _).trans ((internal_raiseFor _ _ _ _).trans (internal_jamLimit _ _))))

theorem internal_takeJam (location sheets : Nat) (n : StationId) (s : State) :
    InternalAt n s (takeJam location sheets n s) := by
  have hr := internal_reportJam location sheets n s
  have hj := hr.trans (internal_creditJam n _)
  unfold takeJam
  split
  case h_1 | h_2 | h_3 => exact hr.trans (internal_jamInSession _ _)
  case h_4 => exact hr.trans ((internal_dropStart _ _).trans (internal_jamInSession _ _))
  case h_5 => exact hj.trans ((internal_raiseFor _ _ _ _).trans (internal_jamLimit _ _))
  case h_6 =>
    exact hj.trans ((internal_modSt _ _ _ rfl).trans ((internal_raiseFor _ _ _ _).trans (internal_settle _ _)))
  case h_7 => exact hr.trans ((internal_enter _ _ _ _).trans (internal_raiseFor _ _ _ _))
  case h_8 | h_9 | h_10 => exact hr.trans (internal_raiseFor _ _ _ _)
  all_goals exact .refl n s

theorem internal_endJam (n : StationId) (s : State) : InternalAt n s (endJam n s) := by
  unfold endJam
  dsimp only
  split
  · exact (internal_modSt _ _ _ rfl).trans (internal_enter _ _ _ _)
  · exact (internal_modSt _ _ _ rfl).trans ((internal_enter _ _ _ _).trans ((internal_reprintGrant _ _).trans
      (internal_consult _ _ _)))

theorem internal_takeCleared (n : StationId) (s : State) : InternalAt n s (takeCleared n s) := by
  unfold takeCleared
  split
  · exact internal_endJam _ _
  · exact internal_enterIdle _ _ _
  all_goals exact .refl n s

theorem internal_takeAnnounce (model classes capacity : Nat) (n : StationId) (s : State) :
    InternalAt n s (takeAnnounce model classes capacity n s) := by
  have h := internal_modSt s n (fun x => { x with
    identity := { model := some model, classes := BitVec.ofNat 4 classes, capacity := some capacity }
    seqKnown := false }) rfl
  have hc := h.trans (internal_credit n _)
  unfold takeAnnounce
  exact .ite h (.ite (hc.trans ((internal_modSt _ _ _ rfl).trans (internal_settle _ _))) hc)

theorem internal_pendStart (d : Descriptor) (n : StationId) (s : State) : InternalAt n s (pendStart d n s) := by
  unfold pendStart
  dsimp only
  split
  · exact (internal_modSt _ _ _ rfl).trans (internal_startGrant _ _)
  · exact (internal_modSt _ _ _ rfl).trans ((internal_modSt _ _ _ rfl).trans (internal_enter _ _ _ _))

theorem internal_takeStart (mode originals copies : Nat) (duplex : Bool) (n : StationId) (s : State) :
    InternalAt n s (takeStart mode originals copies duplex n s) := by
  unfold takeStart
  split
  · split
    · exact internal_protocolFault _ _
    · exact internal_pendStart _ _ _
  case h_9 | h_10 | h_11 | h_12 | h_13 => exact .refl n s
  all_goals exact internal_protocolFault _ _

theorem internal_takeJobEnd (n : StationId) (s : State) : InternalAt n s (takeJobEnd n s) := by
  unfold takeJobEnd
  split
  case h_1 | h_2 => exact internal_endJob _ _
  case h_3 => exact .ite (internal_endJob _ _) (internal_protocolFault _ _)
  case h_4 | h_5 | h_6 | h_7 => exact internal_protocolFault _ _
  all_goals exact .refl n s

theorem internal_takeFinish (n : StationId) (s : State) : InternalAt n s (takeFinish n s) := by
  unfold takeFinish
  split
  case h_1 | h_2 | h_3 | h_4 | h_5 => exact internal_startClosing _ _ _
  case h_6 | h_7 => exact internal_protocolFault _ _
  all_goals exact .refl n s

theorem internal_takeExit (sheet : Nat) (n : StationId) (s : State) : InternalAt n s (takeExit sheet n s) := by
  unfold takeExit
  split
  case h_1 | h_2 | h_3 | h_4 | h_5 => exact internal_takeExited _ _ _
  all_goals exact .refl n s

theorem internal_takeCard (bytes : List Byte) (n : StationId) (s : State) : InternalAt n s (takeCard bytes n s) := by
  unfold takeCard
  split
  · split
    · exact (internal_sendPanel _ _ _ _ _).trans (internal_protocolFault _ _)
    · exact internal_presentCard _ _ _
  case h_2 | h_3 | h_4 | h_5 | h_6 =>
    split
    · exact internal_protocolFault _ _
    · exact internal_tapCard _ _ _
  all_goals exact .refl n s

/-! ## The audit unit -/

theorem internal_lockIdle (n : StationId) (s : State) : InternalAt n s (lockIdle n s) :=
  .ite (internal_enterService _ _ _) (.refl n s)

theorem internal_judgeMeter (meter : PerClass Nat) (n : StationId) (s : State) :
    InternalAt n s (judgeMeter meter n s) := by
  unfold judgeMeter
  exact .ite ((internal_modSt _ _ _ rfl).trans (internal_raiseFor _ _ _ _))
    (.ite ((internal_modSt _ _ _ rfl).trans ((internal_raiseFor _ _ _ _).trans (internal_lockIdle _ _)))
      (.ite ((internal_modSt _ _ _ rfl).trans (internal_raiseFor _ _ _ _)) (internal_modSt _ _ _ rfl)))

theorem internal_takeMeter (meter : PerClass Nat) (n : StationId) (s : State) :
    InternalAt n s (takeMeter meter n s) := by
  unfold takeMeter
  split
  · exact .refl n s
  · exact internal_modSt _ _ _ rfl
  all_goals exact internal_judgeMeter _ _ _

theorem internal_auditStart (n : StationId) (s : State) : InternalAt n s (auditStart n s) :=
  .ite (internal_modSt _ _ _ rfl) ((internal_modSt _ _ _ rfl).trans (internal_modSt _ _ _ rfl))

theorem internal_auditStop (n : StationId) (s : State) : InternalAt n s (auditStop n s) := internal_modSt _ _ _ rfl

theorem internal_auditClear (n : StationId) (s : State) : InternalAt n s (auditClear n s) := internal_modSt _ _ _ rfl

/-! ## Records and bytes of a copier -/

theorem internal_handleRecord (r : CopierRecord) (n : StationId) (s : State) :
    InternalAt n s (handleRecord r n s) := by
  have ha := internal_arrive n s
  have hb := ha.trans (internal_activity n _)
  unfold handleRecord
  cases r with
  | announce => exact ha.trans (internal_takeAnnounce _ _ _ _ _)
  | status => exact ha
  | card => exact hb.trans (internal_takeCard _ _ _)
  | start => exact hb.trans (internal_takeStart _ _ _ _ _ _)
  | imaged => exact ha.trans ((internal_restartIdle _ _).trans (internal_takeImaged _ _ _ _ _))
  | exited => exact hb.trans (internal_takeExit _ _ _)
  | jobEnd => exact hb.trans (internal_takeJobEnd _ _)
  | jam => exact hb.trans (internal_takeJam _ _ _ _)
  | cleared => exact hb.trans (internal_takeCleared _ _)
  | finish => exact hb.trans (internal_takeFinish _ _)
  | meter => exact ha.trans (internal_takeMeter _ _ _)

theorem internal_frameError (n : StationId) (s : State) : InternalAt n s (frameError n s) := internal_modSt _ _ _ rfl

theorem internal_completeStationFrame (bytes : List Byte) (n : StationId) (s : State) :
    InternalAt n s (completeStationFrame bytes n s) := by
  unfold completeStationFrame
  dsimp only
  split
  · split
    · exact (internal_modSt _ _ _ rfl).trans (internal_handleRecord _ _ _)
    · exact internal_frameError _ _
  all_goals exact internal_frameError _ _

theorem internal_stationByte (n : StationId) (s : State) (b : Byte) : InternalAt n s (stationByte n s b) := by
  unfold stationByte
  split
  · exact .ite (internal_modSt _ _ _ rfl) (.refl n s)
  · exact .ite (internal_frameError _ _) (internal_modSt _ _ _ rfl)
  · exact .ite (internal_completeStationFrame _ _ _) (internal_modSt _ _ _ rfl)

theorem internal_stationBytes (n : StationId) : ∀ (bytes : List Byte) (s : State),
    InternalAt n s (stationBytes n bytes s)
  | [], s => .refl n s
  | b :: bytes, s => (internal_stationByte n s b).trans (internal_stationBytes n bytes _)

theorem internal_sendRecord (n : StationId) (s : State) : InternalAt n s (sendRecord n s) := by
  refine internal_modSt _ _ _ ?_
  split <;> rfl

/-! ## Commands at a station -/

theorem internal_enableStation (n : StationId) (s : State) : InternalAt n s (enableStation n s) :=
  .ite (.ite ((internal_modSt _ _ _ rfl).trans (internal_enterIdle _ _ _))
    ((internal_modSt _ _ _ rfl).trans (internal_enter _ _ _ _))) (.refl n s)

theorem internal_disableByState (n : StationId) (s : State) : InternalAt n s (disableByState n s) := by
  unfold disableByState
  split
  case h_1 => exact .refl n s
  case h_2 | h_3 | h_4 | h_5 | h_6 => exact internal_enter _ _ _ _
  case h_13 => exact internal_modSt _ _ _ rfl
  all_goals exact internal_startClosing _ _ _

theorem internal_disableStation (n : StationId) (s : State) : InternalAt n s (disableStation n s) :=
  (internal_finishPassage _ _).trans (internal_disableByState _ _)

theorem internal_cancelPending (n : StationId) (s : State) : InternalAt n s (cancelPending n s) :=
  (internal_dropStart _ _).trans (internal_enter _ _ _ _)

theorem internal_loseCard (card : CardId) (n : StationId) (s : State) : InternalAt n s (loseCard card n s) := by
  unfold loseCard
  split
  · exact .refl n s
  · exact .ite (internal_startClosing _ _ _) (.refl n s)

theorem internal_setApplyStatus (status : ApplyStatus) (n : StationId) (s : State) :
    InternalAt n s (setApplyStatus status n s) := internal_modSt _ _ _ rfl

theorem internal_takeTariff (tf : Tariff) (timing : Timing) (n : StationId) (s : State) :
    InternalAt n s (takeTariff tf timing n s) := internal_modSt _ _ _ rfl

theorem internal_markFetched (n : StationId) (s : State) : InternalAt n s (markFetched n s) := internal_modSt _ _ _ rfl

theorem internal_endRequest (slot : Slot) (n : StationId) (s : State) : InternalAt n s (endRequest slot n s) :=
  (internal_modSt _ _ _ rfl).trans (internal_leaveFetchOrder _ _)

theorem internal_leaveAuthorizing (code : PanelCode) (n : StationId) (s : State) :
    InternalAt n s (leaveAuthorizing code n s) :=
  .ite ((internal_sendPanel _ _ _ _ _).trans (internal_enterIdle _ _ _)) (.refl n s)

theorem internal_approveFirst (card : CardId) (dc : Nat) (req : Request) (amount : Nat) (n : StationId) (s : State) :
    InternalAt n s (approveFirst card dc req amount n s).2.2 := by
  unfold approveFirst
  dsimp only
  split
  · exact (internal_endRequest _ _ _).trans (internal_openSession _ _ _ _ _ _)
  · exact (internal_voidFirst _ _ _).trans (internal_leaveAuthorizing _ _ _)

theorem internal_takeResult {amount : Nat} {n : StationId} {s : State} {r : AuthOutcome × Nat × State}
    (h : takeResult amount n s = some r) : InternalAt n s r.2.2 := by
  unfold takeResult at h
  split at h
  · split at h
    · cases h
      exact ((internal_endRequest _ _ _).trans (internal_returnReservation _ _)).trans (internal_leaveAuthorizing _ _ _)
    · cases h
      exact internal_approveFirst _ _ _ _ _ _
  · split at h
    · cases h
      exact internal_endRequest _ _ _
    · cases h
      exact (internal_endRequest _ _ _).trans ((internal_modSession _ _ _).trans ((internal_statePanel _ _).trans
        (internal_retry _ _)))
  all_goals cases h

theorem internal_expireRequest (n : StationId) (s : State) : InternalAt n s (expireRequest n s) := by
  unfold expireRequest
  split
  · exact (internal_voidFirst _ _ _).trans (internal_leaveAuthorizing _ _ _)
  · exact internal_voidTopup _ _
  all_goals exact .refl n s

theorem internal_modPassage (n : StationId) (f : Passage → Passage) (s : State) :
    InternalAt n s (modPassage n f s) := internal_modSt _ _ _ rfl

theorem internal_keepAdmission (i : AccountId) (n : StationId) (a : AdmissionAnswer) (s : State) :
    InternalAt n s (keepAdmission i n a s) := by
  unfold keepAdmission
  split <;> exact internal_modPassage _ _ _

theorem internal_takeAdmission (n : StationId) (i : AccountId) (s : State) : InternalAt n s (takeAdmission n i s) :=
  (internal_requestAdmission _ _ _ _).trans ((internal_keepAdmission _ _ _ _).trans (internal_answerWith _ _ _))

theorem internal_takeWake (n : StationId) (s : State) : InternalAt n s (takeWake n s) :=
  .ite (internal_retry _ _) (.refl n s)

theorem internal_visit (i : AccountId) (s : State) : Internal s (visit i s) := by
  unfold visit
  split
  · exact .refl s
  · split
    · exact (internal_modAccount 0 _ _ _).toInternal
    · next n _ =>
      exact (((internal_modAccount n _ _ _).trans (internal_takeWake n _)).trans
        (internal_modAccount n _ _ _)).toInternal

end Sys2Proof.Machine
end

section
/-! PROOF. What a step can do, said once: every row of the table is one of a few kinds of effect (`Effect`), and a host
command's effect (`Ruled`) stands behind its reply (`Answers`). The operations of the blocks come in as a relation `R` that
each of them has (`Operations R`), so that an invariant of the part is proved from the operations and the few other kinds. -/

namespace Sys2Proof.Machine

/-! ## The blocks' operations -/

/-- A relation that every operation which a row of the table asks of the blocks has, in the condition in which the row asks
it. -/
structure Operations (R : State → State → Prop) : Prop where
  refl : ∀ s, R s s
  trans : ∀ {s t u}, R s t → R t u → R s u
  draw : ∀ s, R s (takeOrder s).2
  answer : ∀ a s, R s (answerWith a s)
  enable : ∀ n s, R s (enableStation n s)
  disable : ∀ n s, R s (disableStation n s)
  grant : ∀ n s, (s.st n).state = .confirming → R s (startGrant n s)
  deny : ∀ n s, (s.st n).state = .confirming → R s (denyStart n s)
  cancel : ∀ n s, (s.st n).state = .confirming → R s (cancelPending n s)
  close : ∀ reason n s, R s (startClosing reason n s)
  write : ∀ i r s, R s (writeRecord i r s).2
  adjust : ∀ amount i s, judgeAdjust amount (s.account i) = .ok → R s (adjustBalance amount i s)
  block : ∀ i s, R s (s.modAccount i (fun a => { a with state := .blocked }))
  unblock : ∀ i s, R s (startWake i (s.modAccount i (fun a => { a with state := .active })))
  statement : ∀ i s, (s.account i).funded = [] → 1 ≤ s.log.unreserved → R s (periodClosedOf i s)
  fetched : ∀ n s, R s (markFetched n s)
  result : ∀ amount n s r, takeResult amount n s = some r → R s r.2.2
  drop : ∀ count s, R s (dropRecords count s)
  auditStart : ∀ n s, R s (auditStart n s)
  auditStop : ∀ n s, R s (auditStop n s)
  auditClear : ∀ n s, R s (auditClear n s)
  bytes : ∀ n bytes s, R s (stationBytes n bytes s)
  frameError : ∀ n s, R s (frameError n s)
  send : ∀ n s, R s (sendRecord n s)
  record : ∀ r n s, R s (handleRecord r n s)
  probe : ∀ n s, R s (probeStation n s)
  silent : ∀ n s, R s (linkSilent n s)
  drain : ∀ n s, (s.st n).state = .closing → R s (settle n (credit n s))
  recover : ∀ reason n s, (s.st n).state = .jammedSession ∨ (s.st n).state = .suspended → R s (settleNow reason n s)
  expire : ∀ n s, R s (expireRequest n s)
  interval : ∀ n s, R s (s.modSt n (fun x => { x with
    audit := { x.audit with meterRequest := true, intervalTimer := some x.settings.interval } }))
  commit : ∀ n s, (s.st n).state.commits = true → R s (commitTariff false n s)
  outcome : ∀ card o n s, R s (keepOutcome card o n s)
  found : ∀ card b n s, R s (keepBinding card b n s)
  admission : ∀ n i s, (s.st n).awaitsHold = true → R s (takeAdmission n i s)
  extension : ∀ n i s, (s.st n).accountIndex = some i → R s (requestExtension i n s).2
  advance : ∀ i c s, R s (requestSideAdvance i c s).2
  ahead : ∀ i c k n s, R s (keepAdvance i c k n s)
  sideReturn : ∀ i c k s, R s (requestSideReturn i c k s)
  jobCount : ∀ i s, R s (requestJobCount i s)
  posting : ∀ i n charge s, (s.account i).postable n charge = true → R s (requestPosting i n charge s)
  wake : ∀ i s, R s (visit i s)
  reserve : ∀ card n s, (s.st n).state = .idle → (s.st n).passage = none → R s (enterPassage card n (reserve s).2)
  finish : ∀ n s, R s (finishPassage n s)
  returned : ∀ n s, (s.st n).inPassage = true → R s (returnReservation (endPassage n s))
  offer : ∀ body s, R s (offer body s).2
  tag : ∀ s, R s (takeTag s).2
  sessionNumber : ∀ s, R s (takeSessionNumber s).2

/-- The turns of several stations have the relation when each turn has it. -/
theorem Operations.atEach {R : State → State → Prop} (ops : Operations R) {f : StationId → State → State}
    (hf : ∀ n s, R s (f n s)) (l : List StationId) (s : State) : R s (atEach l f s) :=
  atEach_keeps (P := R s) (fun n _ h => ops.trans h (hf n _)) l s (ops.refl s)

/-! ## The kinds of effect -/

/-- What the rule of a host command does before its reply. -/
inductive Ruled (R : State → State → Prop) : Instr → State → State → Prop where
  | internal {c s u} : R s u → Ruled R c s u
  | setTime {s} (p : List Byte) : Ruled R .setTime s { s with clock := fieldAt p 0 4, clockSet := true }
  | reset {s} : Ruled R .reset s (s.modHost (fun h => { h with resetPhase := .replyListed }))
  | config {s} (n : StationId) (c : Settings) : c.InRange → (s.st n).holdsSession = false →
    Ruled R .stationConfig s (s.modSt n (fun x => { x with settings := c }))
  | list {s} : Ruled R .stationList s { s with stations := s.stations.map (fun x => { x with changed := false }) }
  | stage {s} (ts : TariffStore) : Ruled R .stageTariff s { s with tariffs := ts }
  | apply {s} (m : Mask) (timing : Timing) : Ruled R .tariffApply s
    (atEach (stationsOf m) (setApplyStatus .inProgress) { s with tariffs := { s.tariffs with check := some (m, timing) } })
  | rule {s} (k : Nat) (hk : k < 32) (r : Rule) : Ruled R .ruleWrite s { s with rules := s.rules.set k r }
  | default {s} (o : CardOutcome) : Ruled R .defaultAction s { s with defaultAction := o }
  | bind {s} (b : Binding) : CardId.wf b.card = true → s.bound b.card = false → s.bindings.length < 4096 →
    Ruled R .bindCard s { s with bindings := insertBinding b s.bindings }
  | unbind {s} (card : CardId) :
    Ruled R .unbindCard s { s with bindings := s.bindings.filter (fun b => decide (b.card ≠ card)) }
  | lost {s u} (card : CardId) : R { s with
      bindings := s.bindings.map (fun b => if b.card = card then { b with lost := true } else b) } u →
    Ruled R .markLost s u
  | quantum {s} (q : Nat) : 100 ≤ q → q ≤ 50000 → Ruled R .accountWriteQuantum s { s with quantum := q }
  | levels {s} (levels : List Nat) : (∀ l ∈ levels, l ≤ 2) →
    Ruled R .noticeConfig s { s with notices := s.notices.withLevels levels }
  | mask {s} (m : Nat) : m ≤ 3 → Ruled R .noticeMask s { s with notices := { s.notices with maskLevel := m } }

/-- The interface may take a command on: one that may execute, or the run that is executing (R192). -/
abbrev State.mayAnswer (s : State) : Prop := s.host.run.isSome = true ∨ s.host.replies.length < 4

/-- What is left of a command's effect `u`: nothing more, its reply, or the run that is to go on. -/
inductive Answers (s u : State) : State → Prop where
  | unanswered : Answers s u u
  | answered (type tag : Byte) (status : Status) (data : List Byte) : s.mayAnswer →
    Answers s u (complete type tag (status, data, u))
  | paused (r : Run) : s.mayAnswer → Answers s u (u.modHost (fun h => { h with run := some r }))

/-- What a row of the table does. -/
inductive Effect (R : State → State → Prop) : Instr → State → State → Prop where
  | internal {c s t} : R s t → Effect R c s t
  | command {c s u t} : Ruled R c s u → Answers s u t → Effect R c s t
  | cold {s} (strap1 strap0 lost : Bool) :
    Effect R (.coldReset strap1 strap0 lost) s (coldState (strapRate strap1 strap0) lost s)
  | tables {s} : Effect R .tableInitializationComplete s (initializeTables s)
  | tick {s} : Effect R .shopClockTick s { s with clock := (s.clock + 1) % 4294967296 }
  | received {s} (bytes : List Byte) : Effect R (.hostFrameReceived bytes) s (s.modHost (hostBytes bytes))
  | gap {s} : Effect R .hostFrameGapTimeout s (s.modHost HostLink.gap)
  | transmit {s} : Effect R .transmitNextFrame s (transmitNext s)
  | warm {s} : Effect R .warmReset s (warmState s)
  | check {s} (m : Mask) (timing : Timing) : Effect R .tariffCheckCompletion s (finishCheck m timing s)

/-! ## Numbers read from bytes -/

/-- Bytes hold a number below the power of 256 that their count gives (R204). -/
theorem natOf_lt (bytes : List Byte) : natOf bytes < 256 ^ bytes.length := by
  have h : ∀ (l : List Byte) (acc : Nat),
      l.foldl (fun acc b => acc * 256 + b.toNat) acc < (acc + 1) * 256 ^ l.length := by
    intro l
    induction l with
    | nil => intro acc; simp
    | cons b l ih =>
      intro acc
      have hb : b.toNat < 256 := b.isLt
      calc (b :: l).foldl (fun acc b => acc * 256 + b.toNat) acc
          < (acc * 256 + b.toNat + 1) * 256 ^ l.length := ih _
        _ ≤ ((acc + 1) * 256) * 256 ^ l.length := Nat.mul_le_mul_right _ (by omega)
        _ = (acc + 1) * 256 ^ (b :: l).length := by rw [List.length_cons, pow_succ]; ring
  simpa [natOf] using h bytes 0

/-- So it is for a field of a payload. -/
theorem fieldAt_lt (p : List Byte) (off len : Nat) : fieldAt p off len < 256 ^ len :=
  (natOf_lt _).trans_le (Nat.pow_le_pow_right (by decide) (List.length_take_le _ _))

/-- A field read as a card ID is one (R204). -/
theorem cardIdOf_wf {bytes : List Byte} {card : CardId} (h : cardIdOf bytes = some card) : CardId.wf card = true := by
  unfold cardIdOf at h
  split at h
  · cases h
  · dsimp only at h
    split at h
    · next hr =>
      cases h
      obtain ⟨hlow, hhigh, hlen, hall⟩ := hr
      rw [CardId.wf, hlen]
      simp [hlow, hhigh, hall]
    · cases h

/-- Settings read from a STATION-CONFIG payload lie in their ranges (R3). -/
theorem settingsOf_inRange {p : List Byte} {cfg : Settings} (h : settingsOf p = some cfg) : cfg.InRange := by
  unfold settingsOf at h
  split at h
  · cases h
  · dsimp only at h
    split at h
    · next hr =>
      cases h
      obtain ⟨w1, w2, i1, i2, r1, r2, c1, c2, j1, j2, hprobe⟩ := hr
      exact ⟨⟨w1, w2⟩, ⟨i1, i2⟩, ⟨r1, r2⟩, ⟨c1, c2⟩, ⟨j1, j2⟩, Nat.le_of_lt_succ (fieldAt_lt p 10 1), hprobe⟩
    · cases h

/-! ## The rows of host commands -/

section Rows
variable {R : State → State → Prop} (ops : Operations R) {c : Instr} {s t : State}

/-- A command that may execute may be answered. -/
theorem mayAnswer_of_headCommand {f : Frame} (h : s.headCommand = some f) : s.mayAnswer := by
  unfold State.headCommand at h
  split at h
  · next hm =>
    simp only [State.mayExecute, Bool.and_eq_true, decide_eq_true_eq] at hm
    exact .inr hm.2
  · cases h

/-- A run that may go on may be answered. -/
theorem mayAnswer_of_headRun {p : Frame × Run} (h : s.headRun = some p) : s.mayAnswer := by
  unfold State.headRun at h
  split at h
  · cases hc : s.headCommand with
    | none => simp [hc] at h
    | some f => exact mayAnswer_of_headCommand hc
  · next hr => exact .inl (by simp [hr])

include ops

/-- A row that executes a host command has the effect of its rule behind a reply, or none. -/
theorem effect_runCommand {mine : Frame → Bool} {rule : List Byte → State → Handled}
    (hrule : ∀ p, Ruled R c s (rule p s).2.2) (h : Host.Outcome.next (runCommand mine rule s) = (.next t : Result)) :
    Effect R c s t := by
  cases h
  unfold runCommand
  split
  · exact .internal (ops.refl s)
  · next f hf =>
    split
    · have hm := mayAnswer_of_headCommand hf
      unfold judge
      split
      · exact .command (.internal (ops.refl s)) (.answered _ _ _ _ hm)
      · exact .command (hrule f.payload) (.answered _ _ _ _ hm)
    · exact .internal (ops.refl s)

/-- A rule that a station's number or an account's index selects. -/
theorem ruled_onStation {p : List Byte} {off : Nat} {k : StationId → Handled} (h : ∀ n, Ruled R c s (k n).2.2) :
    Ruled R c s (onStation p off s k).2.2 := by
  unfold onStation
  split
  · exact .internal (ops.refl s)
  · exact h _

theorem ruled_onAccount {p : List Byte} {k : AccountId → Handled} (h : ∀ i, Ruled R c s (k i).2.2) :
    Ruled R c s (onAccount p s k).2.2 := by
  unfold onAccount
  split
  · exact .internal (ops.refl s)
  · exact h _

theorem ruled_onCard {p : List Byte} {off : Nat} {k : CardId → Handled}
    (h : ∀ card, cardIdOf ((p.drop off).take 11) = some card → Ruled R c s (k card).2.2) :
    Ruled R c s (onCard p off s k).2.2 := by
  unfold onCard
  split
  · exact .internal (ops.refl s)
  · next hc => exact h _ hc

theorem ruled_stationConfig (p : List Byte) : Ruled R .stationConfig s (ruleStationConfig p s).2.2 := by
  refine ruled_onStation ops fun n => ?_
  split
  · exact .internal (ops.refl s)
  · next cfg hc =>
    split
    · exact .internal (ops.refl s)
    · next hh => exact .config n cfg (settingsOf_inRange hc) (by simpa using hh)

theorem ruled_stationDisable (p : List Byte) : Ruled R .stationDisable s (ruleStationDisable p s).2.2 :=
  .internal (ops.trans (ops.draw s) (ops.atEach ops.disable _ _))

theorem ruled_whenConfirming {act : StationId → State → State}
    (h : ∀ n s, (s.st n).state = .confirming → R s (act n s)) (p : List Byte) :
    Ruled R c s (whenConfirming p s act).2.2 := by
  refine ruled_onStation ops fun n => ?_
  split
  · next hc => exact .internal (h n s hc)
  · exact .internal (ops.refl s)

theorem ruled_endSession (p : List Byte) : Ruled R .endSession s (ruleEndSession p s).2.2 := by
  refine ruled_onStation ops fun n => ?_
  split
  · exact .internal (ops.close _ _ _)
  · exact .internal (ops.refl s)

theorem ruled_stageTariff (p : List Byte) : Ruled R .stageTariff s (ruleStageTariff p s).2.2 := by
  unfold ruleStageTariff
  split
  · exact .internal (ops.refl s)
  · split
    · split
      · exact .stage _
      · exact .internal (ops.refl s)
    · split
      · exact .internal (ops.refl s)
      · split
        · split
          · exact .internal (ops.refl s)
          · exact .stage _
        · exact .internal (ops.refl s)

theorem ruled_tariffApply (p : List Byte) : Ruled R .tariffApply s (ruleTariffApply p s).2.2 := by
  unfold ruleTariffApply
  split
  · exact .internal (ops.refl s)
  · split
    · exact .internal (ops.refl s)
    · split
      · exact .internal (ops.refl s)
      · exact .apply _ _

theorem ruled_ruleWrite (p : List Byte) : Ruled R .ruleWrite s (ruleRuleWrite p s).2.2 := by
  unfold ruleRuleWrite
  split
  · split
    · exact .internal (ops.refl s)
    · exact .rule _ _ _
  · exact .internal (ops.refl s)

theorem ruled_ruleRead (p : List Byte) : Ruled R .ruleRead s (ruleRuleRead p s).2.2 := by
  unfold ruleRuleRead
  split <;> exact .internal (ops.refl s)

theorem ruled_defaultAction (p : List Byte) : Ruled R .defaultAction s (ruleDefaultAction p s).2.2 := by
  unfold ruleDefaultAction
  split
  · exact .internal (ops.refl s)
  · split
    · exact .internal (ops.refl s)
    · exact .default _

theorem ruled_bindCard (p : List Byte) : Ruled R .bindCard s (ruleBindCard p s).2.2 := by
  refine ruled_onCard ops fun card hc => ?_
  split
  · exact .internal (ops.refl s)
  · split
    · exact .internal (ops.refl s)
    · next hb =>
      split
      · exact .internal (ops.refl s)
      · exact .bind _ (cardIdOf_wf hc) (by simpa using hb) (by omega)

theorem ruled_unbindCard (p : List Byte) : Ruled R .unbindCard s (ruleUnbindCard p s).2.2 := by
  refine ruled_onCard ops fun card _ => ?_
  split
  · exact .unbind card
  · exact .internal (ops.refl s)

theorem ruled_markLost (p : List Byte) : Ruled R .markLost s (ruleMarkLost p s).2.2 := by
  refine ruled_onCard ops fun card _ => ?_
  split
  · refine .lost card (ops.trans (ops.draw _) (ops.atEach (fun n u => ?_) _ _))
    unfold loseCard
    split
    · exact ops.refl u
    · split
      · exact ops.close _ _ _
      · exact ops.refl u
  · exact .internal (ops.refl s)

theorem ruled_bindingByCard (p : List Byte) : Ruled R .bindingQueryByCard s (ruleBindingByCard p s).2.2 := by
  unfold ruleBindingByCard
  split
  · refine ruled_onCard ops fun card _ => ?_
    split <;> exact .internal (ops.refl s)
  · exact .internal (ops.refl s)

theorem ruled_bindingByPosition (p : List Byte) :
    Ruled R .bindingQueryByPosition s (ruleBindingByPosition p s).2.2 := by
  unfold ruleBindingByPosition
  split <;> exact .internal (ops.refl s)

theorem ruled_accountWriteQuantum (p : List Byte) :
    Ruled R .accountWriteQuantum s (ruleAccountWriteQuantum p s).2.2 := by
  unfold ruleAccountWriteQuantum
  split
  · next h => exact .quantum _ h.1 h.2
  · exact .internal (ops.refl s)

theorem ruled_accountAdjust (p : List Byte) : Ruled R .accountAdjust s (ruleAccountAdjust p s).2.2 := by
  refine ruled_onAccount ops fun i => ?_
  dsimp only
  split
  · next h => exact .internal (ops.adjust _ i s h)
  · exact .internal (ops.refl s)

theorem ruled_accountBlock (p : List Byte) : Ruled R .accountBlock s (ruleAccountBlock p s).2.2 := by
  refine ruled_onAccount ops fun i => ?_
  split
  · exact .internal (ops.refl s)
  · exact .internal (ops.block i s)

theorem ruled_accountUnblock (p : List Byte) : Ruled R .accountUnblock s (ruleAccountUnblock p s).2.2 := by
  refine ruled_onAccount ops fun i => ?_
  split
  · exact .internal (ops.refl s)
  · exact .internal (ops.refl s)
  · exact .internal (ops.unblock i s)

theorem ruled_closePeriod (p : List Byte) : Ruled R .closePeriod s (ruleClosePeriod p s).2.2 := by
  refine ruled_onAccount ops fun i => ?_
  split
  · exact .internal (ops.refl s)
  · next hf =>
    by_cases hu : 1 ≤ s.log.unreserved
    · rw [offerStatement_taken _ hu]
      exact .internal (ops.statement i s (not_not.mp hf) hu)
    · rw [offerStatement_refused _ (by omega)]
      exact .internal (ops.refl s)

theorem ruled_authFetchNew (p : List Byte) : Ruled R .authFetchNew s (ruleAuthFetchNew p s).2.2 := by
  unfold ruleAuthFetchNew
  split
  · exact .internal (ops.atEach ops.fetched _ _)
  · exact .internal (ops.refl s)

theorem ruled_authFetchOutstanding (p : List Byte) :
    Ruled R .authFetchOutstanding s (ruleAuthFetchOutstanding p s).2.2 := by
  unfold ruleAuthFetchOutstanding
  split <;> exact .internal (ops.refl s)

theorem ruled_authResult (p : List Byte) : Ruled R .authResult s (ruleAuthResult p s).2.2 := by
  unfold ruleAuthResult
  split
  · exact .internal (ops.refl s)
  · split
    · exact .internal (ops.refl s)
    · split
      · exact .internal (ops.refl s)
      · next hr => exact .internal (ops.result _ _ _ _ hr)

theorem ruled_logRead (p : List Byte) : Ruled R .logRead s (ruleLogRead p s).2.2 := by
  unfold ruleLogRead
  split <;> exact .internal (ops.refl s)

theorem ruled_logDrop (p : List Byte) : Ruled R .logDrop s (ruleLogDrop p s).2.2 := by
  unfold ruleLogDrop
  split
  · exact .internal (ops.drop _ s)
  · exact .internal (ops.refl s)

theorem ruled_auditControl (action : Nat) {act : StationId → State → State} (h : ∀ n s, R s (act n s))
    (p : List Byte) : Ruled R c s (auditControl action act p s).2.2 := by
  unfold auditControl
  split
  · exact .internal (ops.refl s)
  · exact .internal (ops.atEach h _ _)

theorem ruled_noticeConfig (p : List Byte) : Ruled R .noticeConfig s (ruleNoticeConfig p s).2.2 := by
  unfold ruleNoticeConfig
  dsimp only
  split
  · exact .internal (ops.refl s)
  · next h => exact .levels _ (by simpa using h)

theorem ruled_noticeMask (p : List Byte) : Ruled R .noticeMask s (ruleNoticeMask p s).2.2 := by
  unfold ruleNoticeMask
  split
  · exact .internal (ops.refl s)
  · exact .mask _ (by omega)

theorem ruled_tariffQuery (target : Nat) {p : List Byte} {k : Handled} (h : Ruled R c s k.2.2) :
    Ruled R c s (tariffQuery target p s k).2.2 := by
  unfold tariffQuery
  split
  · exact h
  · exact .internal (ops.refl s)

theorem ruled_onStation_report {p : List Byte} {off : Nat} (data : StationId → List Byte) :
    Ruled R c s (onStation p off s (fun n => report (data n) s)).2.2 :=
  ruled_onStation ops fun _ => .internal (ops.refl s)

/-! ## Account runs -/

/-- A row that takes an account run on: it goes on to its reply or to a point within it, from a state that its rule has
led to (R192). -/
theorem effect_runAccounts {code : Nat} {rule : Run → List Byte → State → RunStep}
    (hended : ∀ r p h, rule r p s = .ended h → R s h.2.2) (hpaused : ∀ r p r' u, rule r p s = .paused r' u → R s u)
    (h : Host.Outcome.next (runAccounts code rule s) = (.next t : Result)) : Effect R c s t := by
  cases h
  unfold runAccounts
  split
  · exact .internal (ops.refl s)
  · next f r hf =>
    split
    · have hm := mayAnswer_of_headRun hf
      unfold judgeRun
      split
      · exact .command (.internal (ops.refl s)) (.answered _ _ _ _ hm)
      · cases hs : rule r f.payload s with
        | ended h => exact .command (.internal (hended _ _ _ hs)) (.answered _ _ _ _ hm)
        | paused r' u => exact .command (.internal (hpaused _ _ _ _ hs)) (.paused _ hm)
    · exact .internal (ops.refl s)

/-- The records of a run are written one by one (R120). -/
theorem internal_writeRun : ∀ (l : List (List Byte)) (index written : Nat) (s : State),
    R s (writeRun l index written s).2.2
  | [], _, _, s => ops.refl s
  | r :: rest, index, written, s => by
    unfold writeRun
    split
    · exact ops.refl s
    · next i _ =>
      have h := ops.write i r s
      split
      · next heq => rw [heq] at h; exact ops.trans h (internal_writeRun rest _ _ _)
      · next heq => rw [heq] at h; exact h

theorem effect_accountWriteRecords {pause : Option Nat} (h : exec (.accountWriteRecords pause) s = .next t) :
    Effect R (.accountWriteRecords pause) s t := by
  refine effect_runAccounts ops (fun r p u hu => ?_) (fun r p r' u hu => ?_) h
  · unfold ruleAccountWriteRecords at hu
    dsimp only at hu
    split at hu
    · split at hu
      · cases hu
      · cases hu
        exact internal_writeRun ops _ _ _ s
    · cases hu
      exact ops.refl s
  · unfold ruleAccountWriteRecords at hu
    dsimp only at hu
    split at hu
    · split at hu
      · cases hu
        exact internal_writeRun ops _ _ _ s
      · cases hu
    · cases hu

theorem effect_accountRead {pause : Option Nat} (h : exec (.accountRead pause) s = .next t) :
    Effect R (.accountRead pause) s t := by
  refine effect_runAccounts ops (fun r p u hu => ?_) (fun r p r' u hu => ?_) h
  · unfold ruleAccountRead at hu
    dsimp only at hu
    split at hu
    · split at hu
      · cases hu
      · cases hu
        exact ops.refl s
    · cases hu
      exact ops.refl s
  · unfold ruleAccountRead at hu
    dsimp only at hu
    split at hu
    · split at hu
      · cases hu
        exact ops.refl s
      · cases hu
    · cases hu

/-! ## Every row -/

/-- A row that changes nothing, or has an operation's effect where its condition holds. -/
theorem effect_ite {p : Prop} [Decidable p] {u : State} (hu : p → R s u)
    (h : (if p then Host.Outcome.next u else .next s) = (.next t : Result)) : Effect R c s t := by
  split at h
  · next hp => cases h; exact .internal (hu hp)
  · cases h; exact .internal (ops.refl s)

/-- What a row that answers for an asker leaves. -/
theorem internal_atAsker {asker : Option StationId} {keep : StationId → State → State}
    (h : ∀ n s, R s (keep n s)) (a : Answer) (s : State) : R s (answerWith a (atAsker asker keep s)) := by
  refine ops.trans ?_ (ops.answer _ _)
  unfold atAsker
  split
  · exact ops.refl s
  · exact h _ _

/-- An admission that reserves or is refused (R168). -/
theorem effect_admissionReservation {n : StationId} {card : CardId}
    (h : exec (.admissionReservation n card) s = .next t) : Effect R (.admissionReservation n card) s t := by
  replace h : execAdmissionReservation n card s = .next t := h
  unfold execAdmissionReservation at h
  split at h
  · next hc =>
    have hr := ops.reserve card n s hc.1 hc.2
    split at h
    · next heq => cases h; rw [heq] at hr; exact .internal (ops.trans hr (ops.answer _ _))
    · next heq =>
      cases h
      unfold reserve at heq
      split at heq
      · cases heq
      · cases heq
        exact .internal (ops.answer _ _)
  · cases h; exact .internal (ops.refl s)

/-- A request of the rating engine answers and no more (R55). -/
theorem internal_withTariff (n : StationId) (k : Tariff → Answer) (s : State) : R s (withTariff n k s) := by
  unfold withTariff
  split
  · exact ops.refl s
  · exact ops.answer _ s

omit ops in
/-- A row that gives a state has the effect that leads there. -/
theorem effect_next {u : State} (hu : Effect R c s u) (h : Host.Outcome.next u = (.next t : Result)) :
    Effect R c s t := by
  cases h
  exact hu

/-- Every row of the table has the effect of its kind. -/
theorem exec_effect (h : exec c s = .next t) : Effect R c s t := by
  cases c with
  | coldReset a b l => exact effect_next (.cold a b l) h
  | tableInitializationComplete =>
    replace h : execTableInitializationComplete s = .next t := h
    unfold execTableInitializationComplete at h
    split at h
    · cases h; exact .internal (ops.refl s)
    · exact effect_next .tables h
  | shopClockTick => exact effect_next .tick h
  | hostFrameReceived bytes => exact effect_next (.received bytes) h
  | hostFrameGapTimeout => exact effect_next .gap h
  | unknownCommand =>
    replace h : execUnknownCommand s = .next t := h
    unfold execUnknownCommand at h
    split at h
    · cases h; exact .internal (ops.refl s)
    · next hf =>
      split at h
      · cases h; exact .internal (ops.refl s)
      · cases h; exact .command (.internal (ops.refl s)) (.answered _ _ _ _ (mayAnswer_of_headCommand hf))
  | transmitNextFrame => exact effect_next .transmit h
  | identify => exact effect_runCommand ops (fun _ => .internal (ops.refl s)) h
  | setTime => exact effect_runCommand ops .setTime h
  | reset => exact effect_runCommand ops (fun _ => .reset) h
  | warmReset =>
    replace h : execWarmReset s = .next t := h
    unfold execWarmReset at h
    split at h
    · exact effect_next .warm h
    · cases h; exact .internal (ops.refl s)
  | stationConfig => exact effect_runCommand ops (ruled_stationConfig ops) h
  | stationEnable => exact effect_runCommand ops (fun _ => .internal (ops.atEach ops.enable _ _)) h
  | stationDisable => exact effect_runCommand ops (ruled_stationDisable ops) h
  | stationQuery => exact effect_runCommand ops (fun _ => ruled_onStation_report ops _) h
  | stationList => exact effect_runCommand ops (fun _ => .list) h
  | startConfirm => exact effect_runCommand ops (ruled_whenConfirming ops ops.grant) h
  | startDeny => exact effect_runCommand ops (ruled_whenConfirming ops ops.deny) h
  | cancelStart => exact effect_runCommand ops (ruled_whenConfirming ops ops.cancel) h
  | endSession => exact effect_runCommand ops (ruled_endSession ops) h
  | stageTariff => exact effect_runCommand ops (ruled_stageTariff ops) h
  | tariffApply => exact effect_runCommand ops (ruled_tariffApply ops) h
  | tariffQueryStatus => exact effect_runCommand ops (fun _ => ruled_tariffQuery ops 0 (.internal (ops.refl s))) h
  | tariffQueryStaged => exact effect_runCommand ops (fun _ => ruled_tariffQuery ops 1 (.internal (ops.refl s))) h
  | tariffQueryActive => exact effect_runCommand ops (fun _ => ruled_tariffQuery ops 2 (ruled_onStation_report ops _)) h
  | tariffQueryNext => exact effect_runCommand ops (fun _ => ruled_tariffQuery ops 3 (ruled_onStation_report ops _)) h
  | ruleWrite => exact effect_runCommand ops (ruled_ruleWrite ops) h
  | ruleRead => exact effect_runCommand ops (ruled_ruleRead ops) h
  | defaultAction => exact effect_runCommand ops (ruled_defaultAction ops) h
  | bindCard => exact effect_runCommand ops (ruled_bindCard ops) h
  | unbindCard => exact effect_runCommand ops (ruled_unbindCard ops) h
  | markLost => exact effect_runCommand ops (ruled_markLost ops) h
  | bindingQueryByCard => exact effect_runCommand ops (ruled_bindingByCard ops) h
  | bindingQueryByPosition => exact effect_runCommand ops (ruled_bindingByPosition ops) h
  | accountWriteRecords pause => exact effect_accountWriteRecords ops h
  | accountWriteQuantum => exact effect_runCommand ops (ruled_accountWriteQuantum ops) h
  | accountRead pause => exact effect_accountRead ops h
  | accountAdjust => exact effect_runCommand ops (ruled_accountAdjust ops) h
  | accountBlock => exact effect_runCommand ops (ruled_accountBlock ops) h
  | accountUnblock => exact effect_runCommand ops (ruled_accountUnblock ops) h
  | closePeriod => exact effect_runCommand ops (ruled_closePeriod ops) h
  | authFetchNew => exact effect_runCommand ops (ruled_authFetchNew ops) h
  | authFetchOutstanding => exact effect_runCommand ops (ruled_authFetchOutstanding ops) h
  | authResult => exact effect_runCommand ops (ruled_authResult ops) h
  | logRead => exact effect_runCommand ops (ruled_logRead ops) h
  | logDrop => exact effect_runCommand ops (ruled_logDrop ops) h
  | auditControlStart => exact effect_runCommand ops (ruled_auditControl ops 0 ops.auditStart) h
  | auditControlStop => exact effect_runCommand ops (ruled_auditControl ops 1 ops.auditStop) h
  | auditControlClear => exact effect_runCommand ops (ruled_auditControl ops 2 ops.auditClear) h
  | auditQuery => exact effect_runCommand ops (fun _ => ruled_onStation_report ops _) h
  | noticeConfig => exact effect_runCommand ops (ruled_noticeConfig ops) h
  | noticeMask => exact effect_runCommand ops (ruled_noticeMask ops) h
  | noticeQuery => exact effect_runCommand ops (fun _ => .internal (ops.refl s)) h
  | stationFrameError n bytes => exact effect_next (.internal (ops.bytes n bytes s)) h
  | stationFrameGapTimeout n =>
    replace h : execStationFrameGapTimeout n s = .next t := h
    unfold execStationFrameGapTimeout at h
    split at h
    · cases h; exact .internal (ops.refl s)
    · cases h; exact .internal (ops.frameError n s)
  | stationSendRecord n => exact effect_next (.internal (ops.send n s)) h
  | announce n model classes capacity => exact effect_next (.internal (ops.record _ n s)) h
  | status n => exact effect_next (.internal (ops.record _ n s)) h
  | card n bytes => exact effect_next (.internal (ops.record _ n s)) h
  | start n mode originals copies duplex => exact effect_next (.internal (ops.record _ n s)) h
  | imaged n sheet cls sides => exact effect_next (.internal (ops.record _ n s)) h
  | exited n sheet => exact effect_next (.internal (ops.record _ n s)) h
  | jobEnd n outcome => exact effect_next (.internal (ops.record _ n s)) h
  | jam n location sheets => exact effect_next (.internal (ops.record _ n s)) h
  | cleared n => exact effect_next (.internal (ops.record _ n s)) h
  | finish n => exact effect_next (.internal (ops.record _ n s)) h
  | meter n m0 m1 m2 m3 => exact effect_next (.internal (ops.record _ n s)) h
  | probeTick => exact effect_next (.internal (ops.atEach ops.probe _ s)) h
  | linkSilence n => exact effect_next (.internal (ops.silent n s)) h
  | idleTimerExpiry n => exact effect_ite ops (fun _ => ops.close _ n s) h
  | confirmTimerExpiry n => exact effect_ite ops (fun hc => ops.deny n s hc.2) h
  | drainTimerExpiry n => exact effect_ite ops (fun hc => ops.drain n s hc.2) h
  | recoveryTimerExpiry n =>
    replace h : execRecoveryTimerExpiry n s = .next t := h
    unfold execRecoveryTimerExpiry at h
    split at h
    · next hc => exact effect_next (.internal (ops.recover _ n s (.inl hc.2))) h
    · exact effect_ite ops (fun hc => ops.recover _ n s (.inr hc.2)) h
  | requestTimerExpiry n => exact effect_next (.internal (ops.expire n s)) h
  | intervalTimerExpiry n => exact effect_ite ops (fun _ => ops.interval n s) h
  | tariffCheckCompletion =>
    replace h : execTariffCheckCompletion s = .next t := h
    unfold execTariffCheckCompletion at h
    split at h
    · cases h; exact .internal (ops.refl s)
    · cases h; exact .check _ _
  | commit n => exact effect_ite ops (ops.commit n s) h
  | classification card asker => exact effect_next (.internal (internal_atAsker ops (ops.outcome card _) _ s)) h
  | bindingLookup card asker => exact effect_next (.internal (internal_atAsker ops (ops.found card _) _ s)) h
  | admission n i => exact effect_ite ops (ops.admission n i s) h
  | holdExtension n =>
    replace h : execHoldExtension n s = .next t := h
    unfold execHoldExtension at h
    split at h
    · cases h; exact .internal (ops.refl s)
    · next hi => exact effect_next (.internal (ops.trans (ops.extension n _ s hi) (ops.answer _ _))) h
  | sideAdvance i cls asker =>
    cases h
    exact .internal (ops.trans (ops.advance i cls s) (internal_atAsker ops (ops.ahead i cls _) _ _))
  | sideReturn i cls sides => exact effect_next (.internal (ops.sideReturn i cls sides s)) h
  | jobCount i => exact effect_next (.internal (ops.jobCount i s)) h
  | posting i n charge => exact effect_ite ops (ops.posting i n charge s) h
  | wake i => exact effect_next (.internal (ops.wake i s)) h
  | admissionReservation n card => exact effect_admissionReservation ops h
  | handover n => exact effect_ite ops (fun _ => ops.finish n s) h
  | reservationReturn n => exact effect_ite ops (ops.returned n s) h
  | recordOffer body => exact effect_next (.internal (ops.trans (ops.offer body s) (ops.answer _ _))) h
  | sidePrice n cls kind count gross => exact effect_next (.internal (internal_withTariff ops n _ s)) h
  | openingFigures n dc => exact effect_next (.internal (internal_withTariff ops n _ s)) h
  | settlementCharge n kind gross discount limit total => exact effect_next (.internal (internal_withTariff ops n _ s)) h
  | tagTake => exact effect_next (.internal (ops.trans (ops.tag s) (ops.answer _ _))) h
  | sessionNumberTake => exact effect_next (.internal (ops.trans (ops.sessionNumber s) (ops.answer _ _))) h

end Rows

end Sys2Proof.Machine
end

section
/-! PROOF. What every command and every step keeps, by the kinds of effect: the settlement log's invariant (O55), the
tables' form and order (O56), the ranges (O57), the queue of waiting commands (O59), and the clock, the rules and the
settings, which their own commands alone change (O60). -/

namespace Sys2Proof.Machine

/-! ## The blocks' operations are internal -/

theorem internal_writeRecord (i : AccountId) (r : List Byte) (s : State) : Internal s (writeRecord i r s).2 := by
  unfold writeRecord
  split
  · exact .refl s
  · split
    · exact .refl s
    · split
      · exact .refl s
      · exact (internal_modAccount 0 s i _).toInternal

theorem internal_adjustBalance (amount : Int) (i : AccountId) (s : State) : Internal s (adjustBalance amount i s) :=
  (InternalAt.ite ((internal_modAccount 0 _ _ _).trans (internal_startWake _ _ _))
    (internal_modAccount _ _ _ _)).toInternal

theorem internal_periodClosedOf (i : AccountId) {s : State} (h : 1 ≤ s.log.unreserved) :
    Internal s (periodClosedOf i s) := by
  refine ((internal_joinLog 0 _ _ s fun _ => ?_).trans (internal_modAccount 0 _ _ _)).toInternal
  unfold Log.unreserved at h
  omega

theorem internal_dropRecords (count : Nat) (s : State) : Internal s (dropRecords count s) := by
  refine ((internal_log 0 s { s.log with records := s.log.records.drop count }
    (fun h => ⟨?_, numbersRun_drop count h.2⟩) id).trans (internal_logLowCheck 0 _)).toInternal
  have hw : s.log.records.length + s.log.reservations ≤ 256 := h.1
  simp only [Log.within, List.length_drop]
  omega

theorem internal_offer (body : LogBody) (s : State) : Internal s (offer body s).2 := by
  unfold offer
  split
  · exact (internal_offerStatement 0 _ s).toInternal
  all_goals
    split
    · exact (internal_offerReserved 0 _ s).toInternal
    · exact .refl s

theorem internal_enterPassage (card : CardId) (n : StationId) (s : State) : InternalAt n s (enterPassage card n s) :=
  internal_modSt _ _ _ rfl

theorem internal_keepOutcome (card : CardId) (o : CardOutcome) (n : StationId) (s : State) :
    InternalAt n s (keepOutcome card o n s) := .ite (internal_modPassage _ _ _) (.refl n s)

theorem internal_keepBinding (card : CardId) (b : Option Binding) (n : StationId) (s : State) :
    InternalAt n s (keepBinding card b n s) := .ite (internal_modPassage _ _ _) (.refl n s)

theorem internal_keepAdvance (i : AccountId) (c : ClassId) (k : Nat) (n : StationId) (s : State) :
    InternalAt n s (keepAdvance i c k n s) := .ite (internal_modSt _ _ _ rfl) (.refl n s)

theorem internal_probeStation (n : StationId) (s : State) : InternalAt n s (probeStation n s) :=
  .ite (.refl n s) (internal_modSt _ _ _ rfl)

/-- Every operation of the blocks that a row asks for is internal. -/
theorem operations_internal : Operations Internal where
  refl := .refl
  trans := .trans
  draw s := (internal_takeOrder 0 s).toInternal
  answer a s := (internal_answerWith 0 a s).toInternal
  enable n s := (internal_enableStation n s).toInternal
  disable n s := (internal_disableStation n s).toInternal
  grant n s _ := (internal_startGrant n s).toInternal
  deny n s _ := (internal_denyStart n s).toInternal
  cancel n s _ := (internal_cancelPending n s).toInternal
  close reason n s := (internal_startClosing reason n s).toInternal
  write := internal_writeRecord
  adjust amount i s _ := internal_adjustBalance amount i s
  block i s := (internal_modAccount 0 s i _).toInternal
  unblock i s := ((internal_modAccount 0 s i _).trans (internal_startWake 0 i _)).toInternal
  statement i _ _ hu := internal_periodClosedOf i hu
  fetched n s := (internal_markFetched n s).toInternal
  result _ _ _ _ h := (internal_takeResult h).toInternal
  drop := internal_dropRecords
  auditStart n s := (internal_auditStart n s).toInternal
  auditStop n s := (internal_auditStop n s).toInternal
  auditClear n s := (internal_auditClear n s).toInternal
  bytes n bytes s := (internal_stationBytes n bytes s).toInternal
  frameError n s := (internal_frameError n s).toInternal
  send n s := (internal_sendRecord n s).toInternal
  record r n s := (internal_handleRecord r n s).toInternal
  probe n s := (internal_probeStation n s).toInternal
  silent n s := (internal_linkSilent n s).toInternal
  drain n s _ := ((internal_credit n s).trans (internal_settle n _)).toInternal
  recover reason n s _ := (internal_settleNow reason n s).toInternal
  expire n s := (internal_expireRequest n s).toInternal
  interval n s := (internal_modSt s n _ rfl).toInternal
  commit n s _ := (internal_commitTariff false n s).toInternal
  outcome card o n s := (internal_keepOutcome card o n s).toInternal
  found card b n s := (internal_keepBinding card b n s).toInternal
  admission n i s _ := (internal_takeAdmission n i s).toInternal
  extension n i s _ := (internal_requestExtension i n s).toInternal
  advance i c s := (internal_modAccount 0 s i
    (fun a => { a with sides := modClass a.sides c (fun k => satAdd maxSides k 1) })).toInternal
  ahead i c k n s := (internal_keepAdvance i c k n s).toInternal
  sideReturn i _ _ s := (internal_modAccount 0 s i _).toInternal
  jobCount i s := (internal_modAccount 0 s i _).toInternal
  posting i n charge s _ := (internal_requestPosting i n charge s).toInternal
  wake := internal_visit
  reserve card n s _ _ := ((internal_reserve n s).trans (internal_enterPassage card n _)).toInternal
  finish n s := (internal_finishPassage n s).toInternal
  returned n s _ := ((internal_endPassage n s).trans (internal_returnReservation n _)).toInternal
  offer := internal_offer
  tag s := (internal_takeTag 0 s).toInternal
  sessionNumber s := (internal_takeSessionNumber 0 s).toInternal

/-! ## The reply of a command -/

/-- A command's reply, or the run it is to go on with, changes the host link's lists alone. -/
theorem Answers.rest {s u t : State} (h : Answers s u t) : t = { u with host := t.host } := by
  cases h <;> rfl

/-- A station's session meets a warm reset within the blocks. -/
theorem internal_resetPassage (n : StationId) (s : State) : InternalAt n s (resetPassage n s) := by
  unfold resetPassage
  split
  · exact .refl n s
  · exact .ite (internal_finishPassage _ _) ((internal_endPassage _ _).trans (internal_returnReservation _ _))

theorem internal_resetSession (n : StationId) (s : State) : InternalAt n s (resetSession n s) := by
  unfold resetSession
  refine .ite (.refl n s) ?_
  dsimp only
  generalize hu : (if (s.st n).state = .closing then credit n s else closeAtOnce .reset n s) = u
  have h : InternalAt n s u := hu ▸ .ite (internal_credit n s) (internal_closeAtOnce _ n s)
  exact .ite ((h.trans (internal_settleRecord n u)).trans (internal_enter _ _ _ _)) (h.trans (internal_settleRecord n u))

theorem internal_placeStation (n : StationId) (s : State) : InternalAt n s (placeStation n s) :=
  .ite (.refl n s) (.ite (internal_enterIdle _ _ _) (internal_enter _ _ _ _))

/-! ## A warm reset, in its parts -/

/-- A turn of every station, in a free order (log entry 4). -/
def inFreeOrder (f : StationId → State → State) (s : State) : State := atEach (takeOrder s).1 f (takeOrder s).2

theorem internal_inFreeOrder {f : StationId → State → State} (hf : ∀ n s, InternalAt n s (f n s)) (s : State) :
    Internal s (inFreeOrder f s) :=
  (internal_takeOrder 0 s).toInternal.trans (internal_atEach (fun n u => (hf n u).toInternal) _ _)

/-- The part of a warm reset's first step that its blocks take one station after another: the admissions in passage, the
first requests, the sessions (R195). -/
def resetTurns (s : State) : State :=
  inFreeOrder resetSession (inFreeOrder (voidFirst .reset) (inFreeOrder resetPassage (abortCheck s)))

/-- What the first step then clears at every station and in the tables (R35, R111, R143). -/
def clearBlocks (s : State) : State :=
  { s with
    stations := s.stations.map Station.warm
    accounts := endWalks s.accounts
    fetchOrder := []
    log := { s.log with reservations := 0 } }

theorem resetBlocks_eq (s : State) : resetBlocks s = clearBlocks (resetTurns s) := rfl

/-- The turns of a warm reset's first step are internal, from the aborted check on. -/
theorem internal_resetTurns (s : State) : Internal (abortCheck s) (resetTurns s) :=
  (internal_inFreeOrder internal_resetPassage _).trans ((internal_inFreeOrder (internal_voidFirst .reset) _).trans
    (internal_inFreeOrder internal_resetSession _))

@[simp] theorem clearBlocks_st (s : State) (n : StationId) : (clearBlocks s).st n = (s.st n).warm := by
  simp [clearBlocks, State.st]

/-- The check's abort leaves everything but the tariff store and the stations' apply states (R89). -/
theorem abortCheck_rest (s : State) :
    abortCheck s = { s with stations := (abortCheck s).stations, tariffs := (abortCheck s).tariffs } := by
  unfold abortCheck
  split <;> rfl

theorem abortCheck_st (s : State) (n : StationId) : (abortCheck s).st n = { s.st n with tariff :=
    if s.tariffs.check.isSome then { (s.st n).tariff with status := (s.st n).tariff.status.abort }
    else (s.st n).tariff } := by
  unfold abortCheck
  split
  · next h => simp [h]
  · next h => simp [h, State.st]

/-- The last two steps of a warm reset are internal. -/
theorem internal_placeAll (s : State) :
    Internal (rearmLogLow (clearHost s)) (atEach (List.finRange 16) placeStation (rearmLogLow (clearHost s))) :=
  internal_atEach (fun n u => (internal_placeStation n u).toInternal) _ _

theorem internal_rearmLogLow (s : State) : Internal s (rearmLogLow s) := by
  unfold rearmLogLow
  exact (InternalAt.ite (internal_log 0 s { s.log with armed := true } id id)
    ((internal_log 0 s { s.log with armed := false } id id).trans (internal_raiseMask 0 _ _ _))).toInternal

/-- The clearing of the host link and the notices leaves the levels. -/
theorem clearHost_level (s : State) (src : NoticeSource) : ((clearHost s).source src).level = (s.source src).level := by
  simp [clearHost, clearNotices, State.source]

/-! ## The completion of a tariff check, the transmitter -/

/-- The completion of a check is internal, once its result stands in the tariff store (R80 to R82). -/
theorem internal_finishCheck (m : Mask) (timing : Timing) (s : State) : ∃ r,
    Internal { s with tariffs := { s.tariffs with check := none, lastResult := r } } (finishCheck m timing s) := by
  unfold finishCheck
  split
  · next r _ =>
    exact ⟨r, (internal_atEach (fun n u => (internal_setApplyStatus .rejectedInvalid n u).toInternal) _ _).trans
      (internal_raiseMask 0 _ _ _).toInternal⟩
  · refine ⟨.passed, Internal.trans ?_ (internal_raiseMask 0 _ _ _).toInternal⟩
    refine Internal.trans ?_ (internal_atEach (fun n u => (internal_takeTariff _ timing n u).toInternal) _ _)
    exact (internal_takeOrder 0 _).toInternal.trans
      (internal_atEach (fun n u => (internal_finishPassage n u).toInternal) _ _)

/-- The start of a check is internal, once it stands in the tariff store (R78). -/
theorem internal_applyAll (l : List StationId) (s : State) :
    Internal s (atEach l (setApplyStatus .inProgress) s) :=
  internal_atEach (fun n u => (internal_setApplyStatus .inProgress n u).toInternal) _ _

/-- The transmitter changes the host link and the notices alone, and lengthens no list (R200). -/
theorem transmitNext_rest (s : State) :
    transmitNext s = { s with host := (transmitNext s).host, notices := (transmitNext s).notices } := by
  unfold transmitNext
  split
  · rfl
  · split
    · rfl
    · split <;> rfl

theorem sendNotice_level (src : NoticeSource) (s : State) (x : NoticeSource) :
    ((sendNotice src s).source x).level = (s.source x).level := by
  by_cases h : src.index.val = x.index.val
  · have h2 : x.index = src.index := Fin.ext h.symm
    simp [sendNotice, State.source, h2]
  · simp [sendNotice, State.source, Vector.getElem_set_ne, h]

/-! ## O55 -/

/-- A command's rule keeps the settlement log's invariant. -/
theorem logSound_ruled {c : Instr} {s u : State} (hs : s.log.sound) (h : Ruled Internal c s u) : u.log.sound := by
  cases h with
  | internal h => exact h.log hs
  | apply m timing => exact (internal_applyAll _ _).log hs
  | lost card h => exact h.log hs
  | _ => exact hs

/-- Every effect keeps the settlement log's invariant. -/
theorem logSound_effect {c : Instr} {s t : State} (hs : s.log.sound) (h : Effect Internal c s t) : t.log.sound := by
  cases h with
  | internal h => exact h.log hs
  | command hr ha =>
    have hu := logSound_ruled hs hr
    rw [ha.rest]
    exact hu
  | cold => exact ⟨Nat.zero_le 256, trivial⟩
  | transmit =>
    rw [transmitNext_rest]
    exact hs
  | warm =>
    have h1 : (resetTurns s).log.sound := (internal_resetTurns s).log (by rw [abortCheck_rest]; exact hs)
    have h2 : (clearHost (resetBlocks s)).log.sound := by
      refine ⟨?_, h1.2⟩
      have hw : (resetTurns s).log.records.length + (resetTurns s).log.reservations ≤ 256 := h1.1
      show (resetTurns s).log.records.length + 0 ≤ 256
      omega
    exact (internal_placeAll _).log ((internal_rearmLogLow _).log h2)
  | check m timing =>
    obtain ⟨r, h⟩ := internal_finishCheck m timing s
    exact h.log hs
  | _ => exact hs

/-! ## Steps -/

/-- A turn of the part's own changes the stations' timers and measures, the tenths and the queue of waiting steps. -/
theorem idleTurn_rest (s : State) : idleTurn s =
    { s with stations := (idleTurn s).stations, tenths := (idleTurn s).tenths, pending := (idleTurn s).pending } := by
  unfold idleTurn
  split
  · rfl
  · unfold tenthPasses
    dsimp only
    split <;> rfl

/-- What every command and a turn of the part's own keep, every step keeps. -/
theorem step_keeps {P : State → Prop} (hp : ∀ s l, P s → P { s with pending := l })
    (hi : ∀ s, P s → P (idleTurn s)) (he : ∀ c s t, P s → exec c s = .next t → P t) (s t : State) (hs : P s)
    (h : step s = .next t) : P t := by
  unfold step at h
  split at h
  · cases h
    exact hi s hs
  · exact he _ _ _ (hp s _ hs) h

/-- Settles O55, by the kinds of effect. -/
theorem everyCommandKeepsTheLogSound : Obligations.EveryCommandKeepsTheLogSound := by
  have he : ∀ (c : Instr) (s t : State), s.log.sound → exec c s = .next t → t.log.sound :=
    fun c s t hs h => logSound_effect hs (exec_effect operations_internal h)
  refine ⟨he, step_keeps (P := fun s => s.log.sound) (fun _ _ h => h) (fun s h => ?_) he⟩
  rw [idleTurn_rest]
  exact h

/-! ## O59 -/

theorem pending_ruled {c : Instr} {s u : State} (h : Ruled Internal c s u) : u.pending = s.pending := by
  cases h with
  | internal h => exact h.pending
  | apply m timing => exact (internal_applyAll _ _).pending
  | lost card h => exact h.pending
  | _ => rfl

/-- The parts of a warm reset, as internal changes before and after what is cleared. -/
theorem internal_warmState (s : State) : Internal (clearHost (clearBlocks (resetTurns s))) (warmState s) :=
  (internal_rearmLogLow _).trans (internal_placeAll _)

/-- Settles O59, by the kinds of effect. -/
theorem everyCommandLeavesTheQueue : Obligations.EveryCommandLeavesTheQueue := by
  intro c s t h
  cases exec_effect operations_internal h with
  | internal h => exact h.pending
  | command hr ha =>
    have hu := pending_ruled hr
    rw [ha.rest]
    exact hu
  | transmit => rw [transmitNext_rest]
  | warm =>
    refine (internal_warmState s).pending.trans ((internal_resetTurns s).pending.trans ?_)
    rw [abortCheck_rest]
  | check m timing =>
    obtain ⟨r, h⟩ := internal_finishCheck m timing s
    exact h.pending
  | _ => rfl

/-! ## O56: the order of the binding table -/

/-- Card-ID order is an order: of two cards one is before the other, or they are one (R95). -/
theorem cardBefore_trichotomy : ∀ a b : CardId, cardBefore a b = true ∨ a = b ∨ cardBefore b a = true
  | [], [] => .inr (.inl rfl)
  | [], _ :: _ => .inl rfl
  | _ :: _, [] => .inr (.inr rfl)
  | x :: a, y :: b => by
    obtain h | h | h := Nat.lt_trichotomy x y
    · left
      rw [cardBefore, if_neg h.ne, decide_eq_true h]
    · subst h
      simpa [cardBefore] using cardBefore_trichotomy a b
    · right; right
      rw [cardBefore, if_neg h.ne, decide_eq_true h]

theorem cardBefore_trans : ∀ {a b c : CardId}, cardBefore a b = true → cardBefore b c = true → cardBefore a c = true
  | [], [], _, h, _ => by cases h
  | _ :: _, [], _, h, _ => by cases h
  | _, _ :: _, [], _, h => by cases h
  | [], _ :: _, _ :: _, _, _ => rfl
  | x :: a, y :: b, z :: c, h, k => by
    unfold cardBefore at h k ⊢
    split at h
    · next hxy =>
      subst hxy
      split at k
      · next hxz => rw [if_pos hxz]; exact cardBefore_trans h k
      · next hxz => rw [if_neg hxz]; exact k
    · simp only [decide_eq_true_eq] at h
      split at k
      · next hyz => subst hyz; rw [if_neg h.ne, decide_eq_true h]
      · simp only [decide_eq_true_eq] at k
        rw [if_neg (h.trans k).ne, decide_eq_true (h.trans k)]

theorem mem_insertBinding {b x : Binding} : ∀ {l : List Binding}, x ∈ insertBinding b l ↔ x = b ∨ x ∈ l
  | [] => by simp [insertBinding]
  | c :: t => by
    unfold insertBinding
    split
    · simp
    · rw [List.mem_cons, mem_insertBinding, List.mem_cons]
      tauto

theorem length_insertBinding (b : Binding) : ∀ l : List Binding, (insertBinding b l).length = l.length + 1
  | [] => rfl
  | c :: t => by
    unfold insertBinding
    split
    · rfl
    · rw [List.length_cons, length_insertBinding b t, List.length_cons]

/-- An insertion of a card that is not bound keeps the order (R95, R96). -/
theorem insertBinding_ordered {b : Binding} : ∀ {l : List Binding}, (∀ x ∈ l, x.card ≠ b.card) →
    l.Pairwise (fun x y => cardBefore x.card y.card = true) →
    (insertBinding b l).Pairwise (fun x y => cardBefore x.card y.card = true)
  | [], _, _ => List.pairwise_singleton _ _
  | c :: t, hne, hp => by
    obtain ⟨hc, ht⟩ := List.pairwise_cons.mp hp
    unfold insertBinding
    split
    · next hb =>
      refine List.pairwise_cons.mpr ⟨fun x hx => ?_, hp⟩
      rcases List.mem_cons.mp hx with rfl | hx
      · exact hb
      · exact cardBefore_trans hb (hc x hx)
    · next hb =>
      have hcb : cardBefore c.card b.card = true := by
        obtain h | h | h := cardBefore_trichotomy b.card c.card
        · exact absurd h hb
        · exact absurd h.symm (hne c List.mem_cons_self)
        · exact h
      refine List.pairwise_cons.mpr ⟨fun x hx => ?_,
        insertBinding_ordered (fun x hx => hne x (List.mem_cons_of_mem c hx)) ht⟩
      rcases mem_insertBinding.mp hx with rfl | hx
      · exact hcb
      · exact hc x hx

/-- A binding that is marked LOST keeps its card (R98). -/
theorem lostBinding_card (card : CardId) (b : Binding) :
    (if b.card = card then { b with lost := true } else b).card = b.card := by
  split <;> rfl

/-- The tables' invariant (R95, R107). -/
abbrev State.TablesSound (s : State) : Prop := AccountTable.wf s.accounts ∧ bindingsSound s.bindings

theorem Internal.tablesSound {s t : State} (h : Internal s t) (hs : s.TablesSound) : t.TablesSound :=
  ⟨h.tables hs.1, h.bindings ▸ hs.2⟩

/-- A command's rule keeps the tables' invariant. -/
theorem tablesSound_ruled {c : Instr} {s u : State} (hs : s.TablesSound) (h : Ruled Internal c s u) :
    u.TablesSound := by
  obtain ⟨ha, hlen, hwf, hord⟩ := hs
  cases h with
  | internal h => exact h.tablesSound ⟨ha, hlen, hwf, hord⟩
  | apply m timing => exact (internal_applyAll _ _).tablesSound ⟨ha, hlen, hwf, hord⟩
  | bind b hb hnew hroom =>
    refine ⟨ha, ?_, fun x hx => ?_, insertBinding_ordered (by simpa [State.bound] using hnew) hord⟩
    · rw [length_insertBinding]; omega
    · rcases mem_insertBinding.mp hx with rfl | hx
      · exact hb
      · exact hwf x hx
  | unbind card =>
    exact ⟨ha, (List.length_filter_le _ _).trans hlen, fun b hb => hwf b (List.mem_of_mem_filter hb), hord.filter _⟩
  | lost card h =>
    refine h.tablesSound ⟨ha, ?_, fun b hb => ?_, ?_⟩
    · rw [List.length_map]; exact hlen
    · obtain ⟨x, hx, rfl⟩ := List.mem_map.mp hb
      rw [lostBinding_card]
      exact hwf x hx
    · rw [List.pairwise_map]
      simpa only [lostBinding_card] using hord
  | _ => exact ⟨ha, hlen, hwf, hord⟩

/-- Every effect keeps the tables' invariant. -/
theorem tablesSound_effect {c : Instr} {s t : State} (hs : s.TablesSound) (h : Effect Internal c s t) :
    t.TablesSound := by
  have hempty : bindingsSound [] := ⟨Nat.zero_le _, by simp, List.Pairwise.nil⟩
  cases h with
  | internal h => exact h.tablesSound hs
  | command hr ha =>
    have hu := tablesSound_ruled hs hr
    rw [ha.rest]
    exact hu
  | cold => exact ⟨reset_accounts_wf, hempty⟩
  | tables => exact ⟨reset_accounts_wf, hempty⟩
  | transmit =>
    rw [transmitNext_rest]
    exact hs
  | warm =>
    obtain ⟨ha, hb⟩ : (resetTurns s).TablesSound :=
      (internal_resetTurns s).tablesSound (by rw [abortCheck_rest]; exact hs)
    exact (internal_warmState s).tablesSound ⟨endWalks_wf ha, hb⟩
  | check m timing =>
    obtain ⟨r, h⟩ := internal_finishCheck m timing s
    exact h.tablesSound hs
  | _ => exact hs

/-- Settles O56, by the kinds of effect. -/
theorem everyCommandKeepsTheTablesSound : Obligations.EveryCommandKeepsTheTablesSound := by
  have he : ∀ (c : Instr) (s t : State), s.TablesSound → exec c s = .next t → t.TablesSound :=
    fun c s t hs h => tablesSound_effect hs (exec_effect operations_internal h)
  refine ⟨fun c s t ha hb => he c s t ⟨ha, hb⟩, fun s t ha hb =>
    step_keeps (P := State.TablesSound) (fun _ _ h => h) (fun s h => ?_) he s t ⟨ha, hb⟩⟩
  rw [idleTurn_rest]
  exact h

/-! ## O60 -/

/-- What O60 says of a command other than cold reset. -/
structure OwnCommandsOnly (c : Instr) (s t : State) : Prop where
  clock : c ≠ .shopClockTick → c ≠ .setTime → t.clock = s.clock
  clockSet : c ≠ .setTime → t.clockSet = s.clockSet
  rules : c ≠ .ruleWrite → t.rules = s.rules
  defaultAction : c ≠ .defaultAction → t.defaultAction = s.defaultAction
  quantum : c ≠ .accountWriteQuantum → c ≠ .tableInitializationComplete → t.quantum = s.quantum
  maskLevel : c ≠ .noticeMask → t.notices.maskLevel = s.notices.maskLevel
  settings : c ≠ .stationConfig → ∀ n, (t.st n).settings = (s.st n).settings
  staged : c ≠ .stageTariff → t.tariffs.header = s.tariffs.header ∧ t.tariffs.pricing = s.tariffs.pricing

theorem OwnCommandsOnly.refl (c : Instr) (s : State) : OwnCommandsOnly c s s :=
  ⟨fun _ _ => rfl, fun _ => rfl, fun _ => rfl, fun _ => rfl, fun _ _ => rfl, fun _ => rfl, fun _ _ => rfl,
    fun _ => ⟨rfl, rfl⟩⟩

/-- An internal change leaves what the host alone sets. -/
theorem Internal.ownCommandsOnly {s u t : State} (h : Internal u t) {c : Instr} (k : OwnCommandsOnly c s u) :
    OwnCommandsOnly c s t where
  clock h1 h2 := h.clock.trans (k.clock h1 h2)
  clockSet h1 := h.clockSet.trans (k.clockSet h1)
  rules h1 := h.rules.trans (k.rules h1)
  defaultAction h1 := h.defaultAction.trans (k.defaultAction h1)
  quantum h1 h2 := h.quantum.trans (k.quantum h1 h2)
  maskLevel h1 := h.maskLevel.trans (k.maskLevel h1)
  settings h1 n := (h.settings n).trans (k.settings h1 n)
  staged h1 := h.tariffs ▸ k.staged h1

/-- A change of other items leaves them too. -/
theorem ownCommandsOnly_of_eq {c : Instr} {s t : State} (hc : t.clock = s.clock ∧ t.clockSet = s.clockSet)
    (hr : t.rules = s.rules ∧ t.defaultAction = s.defaultAction ∧ t.quantum = s.quantum)
    (hm : t.notices.maskLevel = s.notices.maskLevel) (hs : ∀ n, (t.st n).settings = (s.st n).settings)
    (ht : t.tariffs.header = s.tariffs.header ∧ t.tariffs.pricing = s.tariffs.pricing) : OwnCommandsOnly c s t :=
  ⟨fun _ _ => hc.1, fun _ => hc.2, fun _ => hr.1, fun _ => hr.2.1, fun _ _ => hr.2.2, fun _ => hm, fun _ => hs,
    fun _ => ht⟩

/-- A command's rule changes of these what the command sets. -/
theorem ownCommandsOnly_ruled {c : Instr} {s u : State} (h : Ruled Internal c s u) : OwnCommandsOnly c s u := by
  have hself := OwnCommandsOnly.refl c s
  cases h with
  | internal h => exact h.ownCommandsOnly hself
  | setTime p => exact { hself with clock := fun _ h => absurd rfl h, clockSet := fun h => absurd rfl h }
  | config n cfg _ _ => exact { hself with settings := fun h => absurd rfl h }
  | list => exact { hself with settings := fun _ n => by simp [State.st] }
  | stage ts => exact { hself with staged := fun h => absurd rfl h }
  | apply m timing => exact (internal_applyAll _ _).ownCommandsOnly { hself with }
  | rule k hk r => exact { hself with rules := fun h => absurd rfl h }
  | default o => exact { hself with defaultAction := fun h => absurd rfl h }
  | lost card h => exact h.ownCommandsOnly { hself with }
  | quantum q _ _ => exact { hself with quantum := fun h => absurd rfl h }
  | mask m _ => exact { hself with maskLevel := fun h => absurd rfl h }
  | _ => exact { hself with }

/-- What stands behind a station's settings when a warm reset clears the blocks. -/
theorem clearHost_st (s : State) (n : StationId) : (clearHost s).st n = s.st n := rfl

/-- Every effect but a cold reset's changes of these what its command sets. -/
theorem ownCommandsOnly_effect {c : Instr} {s t : State} (hc : ∀ a b d, c ≠ .coldReset a b d)
    (h : Effect Internal c s t) : OwnCommandsOnly c s t := by
  have hself := OwnCommandsOnly.refl c s
  cases h with
  | internal h => exact h.ownCommandsOnly hself
  | command hr ha =>
    have hu := ownCommandsOnly_ruled hr
    rw [ha.rest]
    exact { hu with }
  | cold a b d => exact absurd rfl (hc a b d)
  | tables => exact { hself with quantum := fun _ h => absurd rfl h }
  | tick => exact { hself with clock := fun h => absurd rfl h }
  | transmit =>
    have hm : (transmitNext s).notices.maskLevel = s.notices.maskLevel := by
      unfold transmitNext
      split
      · rfl
      · split
        · rfl
        · split <;> rfl
    rw [transmitNext_rest]
    exact { hself with maskLevel := fun _ => hm }
  | warm =>
    have ha : OwnCommandsOnly .warmReset s (abortCheck s) := by
      refine ownCommandsOnly_of_eq ?_ ?_ ?_ (fun n => by rw [abortCheck_st]) ?_
      all_goals unfold abortCheck; split <;> exact by simp
    have hb := (internal_resetTurns s).ownCommandsOnly ha
    refine (internal_warmState s).ownCommandsOnly { hb with settings := fun _ n => ?_ }
    rw [clearHost_st, clearBlocks_st]
    exact hb.settings (by decide) n
  | check m timing =>
    obtain ⟨r, h⟩ := internal_finishCheck m timing s
    exact h.ownCommandsOnly { hself with }
  | _ => exact { hself with }

/-- Settles O60, by the kinds of effect. -/
theorem onlyTheirCommandsChangeClockAndSettings : Obligations.OnlyTheirCommandsChangeClockAndSettings := by
  intro c s t h hc
  obtain ⟨h1, h2, h3, h4, h5, h6, h7, h8⟩ := ownCommandsOnly_effect hc (exec_effect operations_internal h)
  exact ⟨h1, h2, h3, h4, h5, h6, h7, h8⟩

end Sys2Proof.Machine
end

section
/-! PROOF. The ranges of the host link's lists, of what the host sets and of the counters (O57): what the host link's
receiver and transmitter make of the lists, and the kinds of effect one by one. -/

namespace Sys2Proof.Machine

/-- The host link's lists lie within their sizes, a run leaves room for its reply, and the rate is one of the straps'. -/
structure HostLink.InRange (h : HostLink) : Prop where
  queue : h.queue.length ≤ 4
  replies : h.replies.length ≤ 8
  run : h.run.isSome = true → h.replies.length ≤ 7
  rate : h.rate = 19200 ∨ h.rate = 57600 ∨ h.rate = 115200 ∨ h.rate = 460800

theorem State.InRange.host {s : State} (h : s.InRange) : s.host.InRange := ⟨h.queue, h.replies, h.run, h.rate⟩

/-- A frame offered joins a list that has room for it (R191). -/
theorem offer_inRange {h : HostLink} (hr : h.InRange) (f : Frame) : (h.offer f).InRange := by
  obtain ⟨hq, hp, hrun, hrate⟩ := hr
  unfold HostLink.offer
  split
  · exact ⟨by simpa using (by omega : h.queue.length + 1 ≤ 4), hp, hrun, hrate⟩
  · split
    · next hroom =>
      have hlen : h.replies.length + 1 ≤ 7 := hroom
      exact ⟨hq, by simp; omega, fun _ => by simpa using hlen, hrate⟩
    · exact ⟨hq, hp, hrun, hrate⟩

theorem complete_inRange {h : HostLink} (hr : h.InRange) (bytes : List Byte) : (h.complete bytes).InRange := by
  unfold HostLink.complete
  dsimp only
  split
  · split
    · exact offer_inRange hr _
    all_goals exact hr
  · exact { hr with }

/-- A byte that the receiver takes keeps the lists within their sizes (R190). -/
theorem byte_inRange {h : HostLink} (hr : h.InRange) (b : Byte) : (h.byte b).InRange := by
  have habandon : h.abandon.InRange := { hr with }
  unfold HostLink.byte
  split
  · split
    · exact { hr with }
    · exact hr
  · split
    · exact habandon
    · exact { hr with }
  · dsimp only
    split
    · exact complete_inRange (h := { h with rx := .hunting }) { hr with } _
    · exact { hr with }

theorem hostBytes_inRange : ∀ (bytes : List Byte) {h : HostLink}, h.InRange → (hostBytes bytes h).InRange
  | [], _, hr => hr
  | b :: bytes, _, hr => hostBytes_inRange bytes (byte_inRange hr b)

theorem gap_inRange {h : HostLink} (hr : h.InRange) : h.gap.InRange := by
  unfold HostLink.gap
  split
  · exact hr
  · exact { hr with }

/-- A segment begun lengthens no list (R206). -/
theorem sendReply_inRange {h : HostLink} (hr : h.InRange) {r : Reply} {rest : List Reply} (hl : h.replies = r :: rest) :
    (h.sendReply r rest).InRange := by
  obtain ⟨hq, hp, hrun, hrate⟩ := hr
  rw [hl, List.length_cons] at hp hrun
  have hlen : (h.sendReply r rest).replies.length ≤ rest.length + 1 := by
    unfold HostLink.sendReply
    dsimp only
    split
    · exact Nat.le_succ _
    · exact Nat.le_refl _
  exact ⟨hq, hlen.trans hp, fun h1 => hlen.trans (hrun h1), hrate⟩

/-! ## The part -/

/-- The ranges, with those of the counters and of the host link taken together. -/
theorem inRange_iff {s : State} : s.InRange ↔ s.host.InRange ∧ s.Counting ∧ (∀ n, (s.st n).settings.InRange) ∧
    (100 ≤ s.quantum ∧ s.quantum ≤ 50000) ∧ s.clock < 4294967296 ∧ s.notices.maskLevel ≤ 3 ∧
    (s.source .logLow).level = 3 ∧ ∀ src, src ≠ .logLow → (s.source src).level ≤ 2 := by
  constructor
  · intro h
    exact ⟨h.host, ⟨h.tag, h.session, h.record⟩, h.settings, h.quantum, h.clock, h.mask, h.logLow, h.levels⟩
  · rintro ⟨⟨hq, hp, hrun, hrate⟩, ⟨ht, hs, hr⟩, hset, hquantum, hclock, hmask, hlow, hlevels⟩
    exact ⟨hq, hp, hrun, hrate, hset, hquantum, hclock, ht, hs, hr, hmask, hlow, hlevels⟩

/-- An internal change keeps the ranges. -/
theorem Internal.inRange {s t : State} (h : Internal s t) (hs : s.InRange) : t.InRange := by
  obtain ⟨hh, hc, hset, hq, hk, hm, hl, hv⟩ := inRange_iff.mp hs
  refine inRange_iff.mpr ⟨h.host ▸ hh, h.counting hc, fun n => (h.settings n) ▸ hset n, h.quantum ▸ hq, h.clock ▸ hk,
    h.maskLevel ▸ hm, (h.levels _).trans hl, fun src hne => (h.levels src).symm ▸ hv src hne⟩

/-- Levels that NOTICE-CONFIG takes are in range (R197). -/
theorem withLevels_level (levels : List Nat) (s : State) (src : NoticeSource) :
    (({ s with notices := s.notices.withLevels levels } : State).source src).level =
      if src = .logLow then (s.source src).level else levels.getD (src.index.val - 1) 0 := by
  cases src <;> simp [State.source, Notices.withLevels, NoticeSource.index]

/-- A command's rule keeps the ranges, and leaves the host link's lists. -/
theorem inRange_ruled {c : Instr} {s u : State} (hs : s.InRange) (h : Ruled Internal c s u) :
    u.InRange ∧ u.host.queue = s.host.queue ∧ u.host.replies = s.host.replies := by
  cases h with
  | internal h => exact ⟨h.inRange hs, by rw [h.host], by rw [h.host]⟩
  | setTime p => exact ⟨{ hs with clock := fieldAt_lt p 0 4 }, rfl, rfl⟩
  | reset => exact ⟨{ hs with }, rfl, rfl⟩
  | config n cfg hc _ =>
    refine ⟨{ hs with settings := fun m => ?_ }, rfl, rfl⟩
    rw [st_modSt]
    split
    · exact hc
    · exact hs.settings m
  | list => exact ⟨{ hs with settings := fun n => by simpa [State.st] using hs.settings n }, rfl, rfl⟩
  | apply m timing =>
    have h := internal_applyAll (stationsOf m) { s with tariffs := { s.tariffs with check := some (m, timing) } }
    exact ⟨h.inRange { hs with }, by rw [h.host], by rw [h.host]⟩
  | lost card h => exact ⟨h.inRange { hs with }, by rw [h.host], by rw [h.host]⟩
  | quantum q hlow hhigh => exact ⟨{ hs with quantum := ⟨hlow, hhigh⟩ }, rfl, rfl⟩
  | levels levels hl =>
    refine ⟨{ hs with logLow := ?_, levels := fun src hne => ?_ }, rfl, rfl⟩
    · rw [withLevels_level, if_pos rfl]
      exact hs.logLow
    · rw [withLevels_level, if_neg hne, List.getD_eq_getElem?_getD]
      cases hk : levels[src.index.val - 1]? with
      | none => exact Nat.zero_le _
      | some l => exact hl l (List.mem_of_getElem? hk)
  | mask m hm => exact ⟨{ hs with mask := hm }, rfl, rfl⟩
  | _ => exact ⟨{ hs with }, rfl, rfl⟩

/-- A reply joins a list that has room for it (R192). -/
theorem answers_inRange {s u t : State} (hs : s.InRange) (hu : u.InRange) (hr : u.host.replies = s.host.replies)
    (h : Answers s u t) : t.InRange := by
  have hroom (hm : s.mayAnswer) : u.host.replies.length ≤ 7 := by
    rw [hr]
    rcases hm with hm | hm
    · exact hs.run hm
    · omega
  cases h with
  | unanswered => exact hu
  | answered type tag status data hm =>
    have h7 := hroom hm
    have hq := hu.queue
    refine { hu with queue := ?_, replies := ?_, run := fun h => nomatch h }
    · simp [complete]; omega
    · simp [complete]; omega
  | paused r hm => exact { hu with run := fun _ => hroom hm }

/-- A cold reset's rate is one of the straps' four (R193). -/
theorem strapRate_range (a b : Bool) : strapRate a b = 19200 ∨ strapRate a b = 57600 ∨ strapRate a b = 115200 ∨
    strapRate a b = 460800 := by
  cases a <;> cases b <;> decide

/-- The settings after a cold reset are in range (R3). -/
theorem defaultSettings_inRange : ({} : Settings).InRange :=
  ⟨by decide, by decide, by decide, by decide, by decide, by decide, by decide⟩

/-- The state right after reset is in range. -/
theorem reset_inRange : State.reset.InRange := by
  refine ⟨by decide, by decide, fun h => (nomatch h), .inl rfl, fun n => ?_, by decide, by decide, by decide, by decide,
    by decide, by decide, rfl, fun src hne => ?_⟩
  · simpa [State.reset, State.st] using defaultSettings_inRange
  · cases src with
    | logLow => exact absurd rfl hne
    | _ => decide

/-- Every effect keeps the ranges. -/
theorem inRange_effect {c : Instr} {s t : State} (hs : s.InRange) (h : Effect Internal c s t) : t.InRange := by
  cases h with
  | internal h => exact h.inRange hs
  | command hr ha =>
    obtain ⟨hu, -, hp⟩ := inRange_ruled hs hr
    exact answers_inRange hs hu hp ha
  | cold a b lost =>
    refine { reset_inRange with rate := strapRate_range a b, settings := fun n => ?_, clock := ?_ }
    · simpa [coldState, State.st] using defaultSettings_inRange
    · show (if lost then 0 else s.clock) < 4294967296
      split
      · decide
      · exact hs.clock
  | tables => exact { hs with quantum := reset_inRange.quantum }
  | tick => exact { hs with clock := Nat.mod_lt _ (by decide) }
  | received bytes =>
    have hh := hostBytes_inRange bytes hs.host
    exact { hs with queue := hh.queue, replies := hh.replies, run := hh.run, rate := hh.rate }
  | gap =>
    have hh := gap_inRange hs.host
    exact { hs with queue := hh.queue, replies := hh.replies, run := hh.run, rate := hh.rate }
  | transmit =>
    unfold transmitNext
    split
    · exact hs
    · split
      · next hl =>
        have hh := sendReply_inRange hs.host hl
        exact { hs with queue := hh.queue, replies := hh.replies, run := hh.run, rate := hh.rate }
      · split
        · next src _ =>
          exact { hs with
            logLow := (sendNotice_level src s _).trans hs.logLow
            levels := fun x hne => (sendNotice_level src s x).symm ▸ hs.levels x hne }
        · exact { hs with }
  | warm =>
    have ha : (abortCheck s).InRange := by
      have hset (n : StationId) : ((abortCheck s).st n).settings.InRange := by
        rw [abortCheck_st]
        exact hs.settings n
      rw [abortCheck_rest] at hset ⊢
      exact { hs with settings := hset }
    have hb := (internal_resetTurns s).inRange ha
    refine (internal_warmState s).inRange { hb with
      queue := Nat.zero_le _
      replies := Nat.zero_le _
      run := fun h => nomatch h
      settings := fun n => ?_
      logLow := (clearHost_level _ _).trans hb.logLow
      levels := fun src hne => (clearHost_level _ _).symm ▸ hb.levels src hne }
    rw [clearHost_st, clearBlocks_st]
    exact hb.settings n
  | check m timing =>
    obtain ⟨r, h⟩ := internal_finishCheck m timing s
    exact h.inRange { hs with }

/-- A turn of the part's own leaves every station's settings. -/
theorem idleTurn_settings (s : State) (n : StationId) : ((idleTurn s).st n).settings = (s.st n).settings := by
  unfold idleTurn
  split
  · rfl
  · unfold tenthPasses
    dsimp only
    split <;> simp [silenceOn, State.st, Station.secondOn]

/-- Settles O57, by the kinds of effect. -/
theorem everyCommandKeepsTheRanges : Obligations.EveryCommandKeepsTheRanges := by
  have he : ∀ (c : Instr) (s t : State), s.InRange → exec c s = .next t → t.InRange :=
    fun c s t hs h => inRange_effect hs (exec_effect operations_internal h)
  refine ⟨he, step_keeps (fun _ _ h => { h with }) (fun s h => ?_) he⟩
  have hset := idleTurn_settings s
  rw [idleTurn_rest] at hset ⊢
  exact { h with settings := fun n => (hset n).symm ▸ h.settings n }

end Sys2Proof.Machine
end

section
/-! PROOF. What the shared operations make of their own station: an entry to a state (R1, R6, R13, R29, R84), the entry to
IDLE, a commit and a PANEL, each as a function of the station alone. -/

namespace Sys2Proof.Machine

/-! ## What an operation at one station and in the notices leaves -/

namespace AtStation
variable {n : StationId} {s t : State} (h : AtStation n s t)
include h

theorem accounts : t.accounts = s.accounts := by rw [h.rest]
theorem log : t.log = s.log := by rw [h.rest]
theorem fetchOrder : t.fetchOrder = s.fetchOrder := by rw [h.rest]
theorem tagCounter : t.tagCounter = s.tagCounter := by rw [h.rest]
theorem clock : t.clock = s.clock := by rw [h.rest]
theorem clockSet : t.clockSet = s.clockSet := by rw [h.rest]
theorem quantum : t.quantum = s.quantum := by rw [h.rest]
theorem account (i : AccountId) : t.account i = s.account i := by rw [State.account, h.accounts]; rfl

end AtStation

/-! ## Panels and commits -/

/-- The send list with the PANEL of the station's state (R29). -/
def Station.panelList (x : Station) : List OutRecord :=
  match x.lockAndAmount with
  | none => x.sendList
  | some (locked, amount) => listPanel locked amount x.state.panelCode x.sendList

/-- The tariffs after a commit (R84). -/
def Station.committed (x : Station) : StationTariff :=
  match x.tariff.next with
  | none => x.tariff
  | some t => { active := some t, next := none, status := x.tariff.status.afterCommit }

@[simp] theorem st_sendPanel (n : StationId) (l : Bool) (a : Nat) (c : Option PanelCode) (s : State) :
    (sendPanel n l a c s).st n = { s.st n with sendList := listPanel l a c (s.st n).sendList } := st_modSt_self _ _ _

@[simp] theorem st_statePanel (n : StationId) (s : State) :
    (statePanel n s).st n = { s.st n with sendList := (s.st n).panelList } := by
  unfold statePanel Station.panelList
  split
  · next h => simp [h]
  · next h => simp [h]

@[simp] theorem st_raiseFor (src : NoticeSource) (n m : StationId) (s : State) : (raiseFor src n s).st m = s.st m := rfl

@[simp] theorem st_raiseEntry (new : StationState) (n m : StationId) (s : State) :
    (raiseEntry new n s).st m = s.st m := by
  unfold raiseEntry
  split <;> rfl

@[simp] theorem st_commitTariff (q : Bool) (n : StationId) (s : State) :
    (commitTariff q n s).st n = { s.st n with tariff := (s.st n).committed } := by
  unfold commitTariff Station.committed
  split
  · next h => simp [h]
  · next h => cases q <;> simp [h]

/-! ## Entries -/

/-- The station after an entry to a state (R1, R6, R13, R29, R84). -/
def Station.entered (new : StationState) (x : Station) : Station :=
  if x.state = new then x
  else
    let y := Station.entering new x
    { y with sendList := y.panelList, tariff := if new.commits then y.committed else y.tariff }

/-- An entry makes of its station what `entered` says, whether or not its commit is quiet. -/
@[simp] theorem st_enter (q : Bool) (new : StationState) (n : StationId) (s : State) :
    (enter q new n s).st n = (s.st n).entered new := by
  unfold enter Station.entered
  split
  · rfl
  · dsimp only
    split
    · simp [Station.committed]
    · simp

@[simp] theorem entered_state (new : StationState) (x : Station) : (x.entered new).state = new := by
  unfold Station.entered
  split
  · next h => exact h
  · rfl

@[simp] theorem entered_session (new : StationState) (x : Station) : (x.entered new).session = x.session := by
  unfold Station.entered; split <;> rfl
@[simp] theorem entered_job (new : StationState) (x : Station) : (x.entered new).job = x.job := by
  unfold Station.entered; split <;> rfl
@[simp] theorem entered_startPending (new : StationState) (x : Station) : (x.entered new).startPending = x.startPending := by
  unfold Station.entered; split <;> rfl
@[simp] theorem entered_descriptor (new : StationState) (x : Station) : (x.entered new).descriptor = x.descriptor := by
  unfold Station.entered; split <;> rfl
@[simp] theorem entered_inPath (new : StationState) (x : Station) : (x.entered new).inPath = x.inPath := by
  unfold Station.entered; split <;> rfl
@[simp] theorem entered_lastSeq (new : StationState) (x : Station) : (x.entered new).lastSeq = x.lastSeq := by
  unfold Station.entered; split <;> rfl
@[simp] theorem entered_seqKnown (new : StationState) (x : Station) : (x.entered new).seqKnown = x.seqKnown := by
  unfold Station.entered; split <;> rfl
@[simp] theorem entered_settings (new : StationState) (x : Station) : (x.entered new).settings = x.settings := by
  unfold Station.entered; split <;> rfl
@[simp] theorem entered_identity (new : StationState) (x : Station) : (x.entered new).identity = x.identity := by
  unfold Station.entered; split <;> rfl
@[simp] theorem entered_silence (new : StationState) (x : Station) : (x.entered new).silence = x.silence := by
  unfold Station.entered; split <;> rfl
@[simp] theorem entered_confirmTimer (new : StationState) (x : Station) : (x.entered new).confirmTimer = x.confirmTimer := by
  unfold Station.entered; split <;> rfl
@[simp] theorem entered_drainTimer (new : StationState) (x : Station) : (x.entered new).drainTimer = x.drainTimer := by
  unfold Station.entered; split <;> rfl
@[simp] theorem entered_recoveryTimer (new : StationState) (x : Station) : (x.entered new).recoveryTimer = x.recoveryTimer := by
  unfold Station.entered; split <;> rfl
@[simp] theorem entered_prior (new : StationState) (x : Station) : (x.entered new).prior = x.prior := by
  unfold Station.entered; split <;> rfl
@[simp] theorem entered_serviceDue (new : StationState) (x : Station) : (x.entered new).serviceDue = x.serviceDue := by
  unfold Station.entered; split <;> rfl
@[simp] theorem entered_disablePending (new : StationState) (x : Station) : (x.entered new).disablePending = x.disablePending := by
  unfold Station.entered; split <;> rfl
@[simp] theorem entered_jamDuringClose (new : StationState) (x : Station) : (x.entered new).jamDuringClose = x.jamDuringClose := by
  unfold Station.entered; split <;> rfl
@[simp] theorem entered_counters (new : StationState) (x : Station) : (x.entered new).counters = x.counters := by
  unfold Station.entered; split <;> rfl
@[simp] theorem entered_lastJam (new : StationState) (x : Station) : (x.entered new).lastJam = x.lastJam := by
  unfold Station.entered; split <;> rfl
@[simp] theorem entered_passage (new : StationState) (x : Station) : (x.entered new).passage = x.passage := by
  unfold Station.entered; split <;> rfl
@[simp] theorem entered_advances (new : StationState) (x : Station) : (x.entered new).advances = x.advances := by
  unfold Station.entered; split <;> rfl
@[simp] theorem entered_slot (new : StationState) (x : Station) : (x.entered new).slot = x.slot := by
  unfold Station.entered; split <;> rfl
@[simp] theorem entered_audit (new : StationState) (x : Station) : (x.entered new).audit = x.audit := by
  unfold Station.entered; split <;> rfl
@[simp] theorem entered_line (new : StationState) (x : Station) : (x.entered new).line = x.line := by
  unfold Station.entered; split <;> rfl
@[simp] theorem entered_rx (new : StationState) (x : Station) : (x.entered new).rx = x.rx := by
  unfold Station.entered; split <;> rfl

/-- An entry to a state whose entry asks for no commit leaves the tariffs (R6). -/
theorem entered_tariff {new : StationState} (h : new.commits = false) (x : Station) :
    (x.entered new).tariff = x.tariff := by
  unfold Station.entered
  split
  · rfl
  · simp [h, Station.entering]

/-- The idle timer after an entry runs where the state entered has it run (R13). -/
theorem entered_idleTimer {new : StationState} {x : Station} (h : x.state ≠ new) :
    (x.entered new).idleTimer = if new.idleRuns then some x.settings.idleTime else none := by
  simp [Station.entered, h, Station.entering]

/-- An entry to a state that sends a PANEL sends it last (R29, R202). -/
theorem entered_sendList {new : StationState} {x : Station} (h : x.state ≠ new) :
    (x.entered new).sendList = (Station.entering new x).panelList := by
  simp [Station.entered, h]

/-! ## The entry to IDLE -/

/-- The station after the entry to IDLE (R6). -/
def Station.idled (x : Station) : Station := ({ x with serviceDue := false } : Station).entered x.idleEntry

/-- A service-due flag that is clear is no change when it is cleared. -/
theorem serviceDue_cleared {x : Station} (h : x.serviceDue = false) : ({ x with serviceDue := false } : Station) = x := by
  cases x
  cases h
  rfl

/-- The entry to IDLE makes of its station what `idled` says. -/
@[simp] theorem st_enterIdle (q : Bool) (n : StationId) (s : State) : (enterIdle q n s).st n = (s.st n).idled := by
  unfold enterIdle Station.idled Station.idleEntry
  split
  · simp [enterService]
  · next h =>
    rw [serviceDue_cleared (Bool.eq_false_of_not_eq_true h)]
    split
    · next hl =>
      rw [if_pos (by simpa [Station.lockedOut] using hl)]
      simp [enterService]
    · next hl =>
      have hl' : ¬ ((s.st n).settings.auditLock = true ∧ (s.st n).audit.state = .outOfStep) := by
        simpa [Station.lockedOut] using hl
      rw [if_neg hl']
      split <;> simp

@[simp] theorem idled_state (x : Station) : x.idled.state = x.idleEntry := entered_state _ _
@[simp] theorem idled_serviceDue (x : Station) : x.idled.serviceDue = false := entered_serviceDue _ _
@[simp] theorem idled_session (x : Station) : x.idled.session = x.session := entered_session _ _
@[simp] theorem idled_job (x : Station) : x.idled.job = x.job := entered_job _ _
@[simp] theorem idled_startPending (x : Station) : x.idled.startPending = x.startPending := entered_startPending _ _
@[simp] theorem idled_descriptor (x : Station) : x.idled.descriptor = x.descriptor := entered_descriptor _ _
@[simp] theorem idled_inPath (x : Station) : x.idled.inPath = x.inPath := entered_inPath _ _
@[simp] theorem idled_lastSeq (x : Station) : x.idled.lastSeq = x.lastSeq := entered_lastSeq _ _
@[simp] theorem idled_seqKnown (x : Station) : x.idled.seqKnown = x.seqKnown := entered_seqKnown _ _
@[simp] theorem idled_settings (x : Station) : x.idled.settings = x.settings := entered_settings _ _
@[simp] theorem idled_identity (x : Station) : x.idled.identity = x.identity := entered_identity _ _
@[simp] theorem idled_silence (x : Station) : x.idled.silence = x.silence := entered_silence _ _
@[simp] theorem idled_confirmTimer (x : Station) : x.idled.confirmTimer = x.confirmTimer := entered_confirmTimer _ _
@[simp] theorem idled_drainTimer (x : Station) : x.idled.drainTimer = x.drainTimer := entered_drainTimer _ _
@[simp] theorem idled_recoveryTimer (x : Station) : x.idled.recoveryTimer = x.recoveryTimer := entered_recoveryTimer _ _
@[simp] theorem idled_prior (x : Station) : x.idled.prior = x.prior := entered_prior _ _
@[simp] theorem idled_disablePending (x : Station) : x.idled.disablePending = x.disablePending := entered_disablePending _ _
@[simp] theorem idled_jamDuringClose (x : Station) : x.idled.jamDuringClose = x.jamDuringClose := entered_jamDuringClose _ _
@[simp] theorem idled_counters (x : Station) : x.idled.counters = x.counters := entered_counters _ _
@[simp] theorem idled_lastJam (x : Station) : x.idled.lastJam = x.lastJam := entered_lastJam _ _
@[simp] theorem idled_passage (x : Station) : x.idled.passage = x.passage := entered_passage _ _
@[simp] theorem idled_advances (x : Station) : x.idled.advances = x.advances := entered_advances _ _
@[simp] theorem idled_slot (x : Station) : x.idled.slot = x.slot := entered_slot _ _
@[simp] theorem idled_audit (x : Station) : x.idled.audit = x.audit := entered_audit _ _
@[simp] theorem idled_line (x : Station) : x.idled.line = x.line := entered_line _ _
@[simp] theorem idled_rx (x : Station) : x.idled.rx = x.rx := entered_rx _ _

/-- The entry to IDLE ends in a state without a session (R6). -/
theorem idleEntry_hasSession (x : Station) : x.idleEntry.hasSession = false := by
  unfold Station.idleEntry
  repeat' split
  all_goals rfl

end Sys2Proof.Machine
end

section
/-! PROOF. What credit (R146), the taking back of a top-up (R140), settlement (R28), the start of closing (R26) and the
close at once (R150) make of their own station, each as a function of the station alone, and what a settlement does to the
accounts and the log. -/

namespace Sys2Proof.Machine

/-! ## What the shared blocks' requests leave of the stations -/

@[simp] theorem startWake_stations (i : AccountId) (s : State) : (startWake i s).stations = s.stations := rfl

@[simp] theorem requestPosting_stations (i : AccountId) (n : StationId) (charge : Nat) (s : State) :
    (requestPosting i n charge s).stations = s.stations := by
  unfold requestPosting
  split
  · rfl
  · dsimp only
    split <;> rfl

@[simp] theorem postCharge_stations (n : StationId) (ses : Session) (charge : Nat) (s : State) :
    (postCharge n ses charge s).stations = s.stations := by
  unfold postCharge
  split
  · exact requestPosting_stations _ _ _ _
  all_goals rfl

@[simp] theorem returnSides_stations (i : AccountId) (sheets : List Sheet) (s : State) :
    (returnSides i sheets s).stations = s.stations := by
  have h : ∀ (l : List ClassId) (u : State), (l.foldl (fun acc c =>
      if chargedOf sheets c = 0 then acc else requestSideReturn i c (chargedOf sheets c) acc) u).stations =
      u.stations := by
    intro l
    induction l with
    | nil => exact fun _ => rfl
    | cons c l ih =>
      intro u
      rw [List.foldl_cons, ih]
      split <;> rfl
  exact h _ s

@[simp] theorem offerReserved_stations (body : LogBody) (s : State) :
    (offerReserved body s).stations = s.stations := by
  unfold offerReserved
  split
  · exact joinLog_stations _ _ _
  · rfl

@[simp] theorem offerReserved_accounts (body : LogBody) (s : State) :
    (offerReserved body s).accounts = s.accounts := by
  unfold offerReserved
  split
  · exact joinLog_accounts _ _ _
  · rfl

@[simp] theorem returnReservation_stations (s : State) : (returnReservation s).stations = s.stations :=
  logLowCheck_stations _

@[simp] theorem returnReservation_accounts (s : State) : (returnReservation s).accounts = s.accounts :=
  logLowCheck_accounts _

@[simp] theorem reserve_stations (s : State) : (reserve s).2.stations = s.stations := by
  unfold reserve
  split
  · exact logLowCheck_stations _
  · rfl

@[simp] theorem reserve_accounts (s : State) : (reserve s).2.accounts = s.accounts := by
  unfold reserve
  split
  · exact logLowCheck_accounts _
  · rfl

/-- A station read from the vector: equal vectors give equal stations. -/
theorem st_congr {s t : State} (h : t.stations = s.stations) (n : StationId) : t.st n = s.st n := by
  rw [State.st, State.st, h]

/-! ## Credit -/

/-- The station after a credit of its path (R146). -/
def Station.credited (x : Station) : Station :=
  { x with
    session := x.session.map (Session.creditSheets x.inPath)
    job := x.job.map (Job.creditSheets x.inPath)
    counters := { x.counters with sheetsCredited := satAdd max32 x.counters.sheetsCredited x.inPath.length }
    inPath := [] }

/-- What credit does to the account table: an ACCOUNT session's charged sides are returned (R118, R146). -/
theorem credit_stations (n : StationId) (s : State) :
    (credit n s).stations = (s.modSt n Station.credited).stations := by
  unfold credit
  dsimp only
  split
  · rfl
  · split
    · rw [returnSides_stations]
      rfl
    all_goals rfl

@[simp] theorem st_credit (n : StationId) (s : State) : (credit n s).st n = (s.st n).credited := by
  rw [st_congr (credit_stations n s), st_modSt_self]

/-! ## Top-ups taken back -/

/-- The session once a tag has joined its voided tags (R140). -/
def Session.voided (tag : Nat) (ses : Session) : Session := { ses with funding := ses.funding.voidTag tag }

/-- The station after a top-up outstanding has been taken back (R140). -/
def Station.topupVoided (x : Station) : Station :=
  match x.slot with
  | .topup card dc req => { x with slot := .active card dc, session := x.session.map (Session.voided req.tag) }
  | .free => x
  | .requested _ _ _ => x
  | .active _ _ => x

@[simp] theorem st_leaveFetchOrder (n m : StationId) (s : State) : (leaveFetchOrder n s).st m = s.st m := rfl

@[simp] theorem st_voidTopup (n : StationId) (s : State) : (voidTopup n s).st n = (s.st n).topupVoided := by
  unfold voidTopup Station.topupVoided
  cases h : (s.st n).slot with
  | topup =>
    simp only [st_modSt_self, st_leaveFetchOrder, modSession]
    rfl
  | _ => rfl

/-! ## Settlement -/

/-- The station after a settlement with its next state (R28). -/
def Station.settles (ses : Session) (x : Station) : Station :=
  let y := x.settled (decide (ses.funding.kind = .bank))
  let reason := ses.endReason.getD .finished
  if x.disablePending ∨ reason = .disabled then ({ y with disablePending := false } : Station).entered .disabled
  else if reason = .jamLimit then ({ y with serviceDue := true } : Station).entered .jammedFree
  else if x.jamDuringClose ∨ reason = .jamAbandoned then y.entered .jammedFree
  else if reason = .linkLost ∨ x.alive = false then y.entered .down
  else y.idled

/-- The state that a settlement's record and posting leave, before the station drops its session (R28). -/
def settledLog (n : StationId) (ses : Session) (s : State) : State :=
  let s1 := postCharge n ses ((s.st n).charge ses).1 s
  offerReserved (.session (sessionRecord n ses ((s.st n).charge ses) s1)) s1

/-- A settlement's record, posting and dropping of the session. -/
theorem settleRecord_eq {n : StationId} {s : State} {ses : Session} (h : (s.st n).session = some ses) :
    settleRecord n s = (settledLog n ses s).modSt n (Station.settled (decide (ses.funding.kind = .bank))) := by
  rw [settleRecord, h]
  rfl

@[simp] theorem settledLog_stations (n : StationId) (ses : Session) (s : State) :
    (settledLog n ses s).stations = s.stations := by
  rw [settledLog, offerReserved_stations, postCharge_stations]

theorem st_settleRecord {n : StationId} {s : State} {ses : Session} (h : (s.st n).session = some ses) :
    (settleRecord n s).st n = (s.st n).settled (decide (ses.funding.kind = .bank)) := by
  rw [settleRecord_eq h, st_modSt_self, st_congr (settledLog_stations n ses s)]

/-- After its record a settlement changes its own station and the notices alone. -/
theorem atStation_settle (n : StationId) (s : State) : AtStation n (settleRecord n s) (settle n s) := by
  unfold settle
  split
  · next h =>
    rw [settleRecord, h]
    exact .refl n s
  · dsimp only
    split
    · exact (atStation_modSt _ _ _).trans (atStation_enter _ _ _ _)
    · split
      · exact (atStation_modSt _ _ _).trans (atStation_enter _ _ _ _)
      · split
        · exact atStation_enter _ _ _ _
        · split
          · exact atStation_enter _ _ _ _
          · exact atStation_enterIdle _ _ _

/-- A settlement makes of its station what `settles` says. -/
theorem st_settle {n : StationId} {s : State} {ses : Session} (h : (s.st n).session = some ses) :
    (settle n s).st n = (s.st n).settles ses := by
  have hr := st_settleRecord h
  unfold settle Station.settles
  rw [h]
  dsimp only
  split
  · simp [hr]
  · split
    · simp [hr]
    · split
      · simp [hr]
      · split
        · simp [hr]
        · simp [hr]

/-- A station without a session has none to settle. -/
theorem settle_none {n : StationId} {s : State} (h : (s.st n).session = none) : settle n s = s := by
  rw [settle, h]

/-- The accounts after a settlement are those that its posting leaves. -/
theorem settle_accounts {n : StationId} {s : State} {ses : Session} (h : (s.st n).session = some ses) :
    (settle n s).accounts = (postCharge n ses ((s.st n).charge ses).1 s).accounts := by
  rw [(atStation_settle n s).accounts, settleRecord_eq h]
  exact offerReserved_accounts _ _

/-- The log after a settlement has the session's record, when it has room. -/
theorem settle_log {n : StationId} {s : State} {ses : Session} (h : (s.st n).session = some ses) :
    (settle n s).log = (settledLog n ses s).log := by
  rw [(atStation_settle n s).log, settleRecord_eq h]
  rfl

section Settles
variable (ses : Session) (x : Station)

@[simp] theorem settles_session : (x.settles ses).session = none := by
  unfold Station.settles
  dsimp only
  repeat' split
  all_goals simp [Station.settled]

@[simp] theorem settles_job : (x.settles ses).job = none := by
  unfold Station.settles
  dsimp only
  repeat' split
  all_goals simp [Station.settled]

@[simp] theorem settles_inPath : (x.settles ses).inPath = x.inPath := by
  unfold Station.settles
  dsimp only
  repeat' split
  all_goals simp [Station.settled]

@[simp] theorem settles_passage : (x.settles ses).passage = x.passage := by
  unfold Station.settles
  dsimp only
  repeat' split
  all_goals simp [Station.settled]

@[simp] theorem settles_prior : (x.settles ses).prior = none := by
  unfold Station.settles
  dsimp only
  repeat' split
  all_goals simp [Station.settled]

@[simp] theorem settles_drainTimer : (x.settles ses).drainTimer = none := by
  unfold Station.settles
  dsimp only
  repeat' split
  all_goals simp [Station.settled]

@[simp] theorem settles_recoveryTimer : (x.settles ses).recoveryTimer = none := by
  unfold Station.settles
  dsimp only
  repeat' split
  all_goals simp [Station.settled]

@[simp] theorem settles_confirmTimer : (x.settles ses).confirmTimer = x.confirmTimer := by
  unfold Station.settles
  dsimp only
  repeat' split
  all_goals simp [Station.settled]

@[simp] theorem settles_startPending : (x.settles ses).startPending = x.startPending := by
  unfold Station.settles
  dsimp only
  repeat' split
  all_goals simp [Station.settled]

@[simp] theorem settles_descriptor : (x.settles ses).descriptor = x.descriptor := by
  unfold Station.settles
  dsimp only
  repeat' split
  all_goals simp [Station.settled]

@[simp] theorem settles_jamDuringClose : (x.settles ses).jamDuringClose = false := by
  unfold Station.settles
  dsimp only
  repeat' split
  all_goals simp [Station.settled]

@[simp] theorem settles_silence : (x.settles ses).silence = x.silence := by
  unfold Station.settles
  dsimp only
  repeat' split
  all_goals simp [Station.settled]

@[simp] theorem settles_counters : (x.settles ses).counters = x.counters := by
  unfold Station.settles
  dsimp only
  repeat' split
  all_goals simp [Station.settled]

@[simp] theorem settles_lastJam : (x.settles ses).lastJam = x.lastJam := by
  unfold Station.settles
  dsimp only
  repeat' split
  all_goals simp [Station.settled]

@[simp] theorem settles_slot :
    (x.settles ses).slot = if ses.funding.kind = .bank then .free else x.slot := by
  unfold Station.settles
  dsimp only
  repeat' split
  all_goals simp_all [Station.settled]

/-- The state after a settlement is that of R28's table. -/
@[simp] theorem settles_state :
    (x.settles ses).state = x.settledState ses.funding.kind (ses.endReason.getD .finished) := by
  unfold Station.settles Station.settledState
  dsimp only
  split
  · exact entered_state _ _
  · split
    · exact entered_state _ _
    · split
      · exact entered_state _ _
      · have ha : x.alive = false ↔ 100 ≤ x.silence := by simp [Station.alive]
        split
        · next h =>
          rw [if_pos (h.imp_right ha.mp)]
          exact entered_state _ _
        · next h =>
          rw [if_neg (h ∘ Or.imp_right ha.mpr), idled_state]
          simp [Station.idleEntry, Station.settled]

/-- No state of R28's table has a session. -/
theorem settledState_hasSession (kind : FundingKind) (reason : EndReason) :
    (x.settledState kind reason).hasSession = false := by
  unfold Station.settledState
  split
  · rfl
  · split
    · rfl
    · split
      · rfl
      · split
        · rfl
        · exact idleEntry_hasSession _

end Settles

/-! ## Openings -/

/-- The station with a session that it counts (R11). -/
def Station.withSession (ses : Session) (x : Station) : Station :=
  { x with session := some ses, counters := { x.counters with sessions := satAdd max32 x.counters.sessions 1 } }

/-- An opening makes of its station what R11 says. -/
@[simp] theorem st_openSession (funding : Funding) (card : CardId) (limit : Option Nat) (discount : Nat) (n : StationId)
    (s : State) : (openSession funding card limit discount n s).st n =
      ((s.st n).withSession (newSession s.sessionCounter funding card limit (s.st n).stamp discount s.clock
        s.clockSet)).entered .opened := by
  unfold openSession
  dsimp only
  rw [st_enter, st_modSt_self]
  rfl

/-! ## Closing -/

/-- The session with an end reason, one that is set already staying (R26). -/
def Session.ending (reason : EndReason) (ses : Session) : Session :=
  { ses with endReason := some (ses.endReason.getD reason) }

/-- The station as closing leaves it before it enters CLOSING (R26). -/
def Station.halted (x : Station) : Station :=
  { x.stopForClose with sendList := listHalt x.sendList, job := none }

/-- The station once closing has begun (R26). -/
def Station.closed (reason : EndReason) (x : Station) : Station :=
  ({ x.closingFrom.topupVoided.halted with
    session := x.closingFrom.topupVoided.session.map (Session.ending reason) } : Station).entered .closing

/-- The steps of R26 up to the entry to CLOSING. -/
def closingStarted (reason : EndReason) (n : StationId) (s : State) : State :=
  enter false .closing n (setEndReason reason n (dropJob n (sendHalt n
    ((voidTopup n (s.modSt n Station.closingFrom)).modSt n Station.stopForClose))))

@[simp] theorem st_closingStarted (reason : EndReason) (n : StationId) (s : State) :
    (closingStarted reason n s).st n = (s.st n).closed reason := by
  simp only [closingStarted, st_enter, setEndReason, modSession, dropJob, sendHalt, st_modSt_self, st_voidTopup]
  rfl

/-- A session that is to close settles at once where no sheet is in the path, and drains elsewhere (R26, R27). -/
theorem startClosing_eq {n : StationId} {s : State} {ses : Session} (reason : EndReason)
    (h : (s.st n).session = some ses) (hc : (s.st n).state ≠ .closing) :
    startClosing reason n s =
      if ((closingStarted reason n s).st n).inPath.isEmpty then settle n (closingStarted reason n s)
      else (closingStarted reason n s).modSt n (fun x => { x with drainTimer := some 20 }) :=
  if_neg (by simp [h, hc])

/-- A station without a session, or in CLOSING already, starts no closing (R26). -/
theorem startClosing_none {n : StationId} {s : State} (reason : EndReason)
    (h : (s.st n).session = none ∨ (s.st n).state = .closing) : startClosing reason n s = s :=
  if_pos (by simpa using h)

section TopupVoided
variable (x : Station)

@[simp] theorem topupVoided_inPath : x.topupVoided.inPath = x.inPath := by
  unfold Station.topupVoided; split <;> rfl
@[simp] theorem topupVoided_state : x.topupVoided.state = x.state := by
  unfold Station.topupVoided; split <;> rfl
@[simp] theorem topupVoided_passage : x.topupVoided.passage = x.passage := by
  unfold Station.topupVoided; split <;> rfl
@[simp] theorem topupVoided_job : x.topupVoided.job = x.job := by
  unfold Station.topupVoided; split <;> rfl
@[simp] theorem topupVoided_tariff : x.topupVoided.tariff = x.tariff := by
  unfold Station.topupVoided; split <;> rfl
@[simp] theorem topupVoided_sendList : x.topupVoided.sendList = x.sendList := by
  unfold Station.topupVoided; split <;> rfl
@[simp] theorem topupVoided_silence : x.topupVoided.silence = x.silence := by
  unfold Station.topupVoided; split <;> rfl
@[simp] theorem topupVoided_disablePending : x.topupVoided.disablePending = x.disablePending := by
  unfold Station.topupVoided; split <;> rfl
@[simp] theorem topupVoided_serviceDue : x.topupVoided.serviceDue = x.serviceDue := by
  unfold Station.topupVoided; split <;> rfl
@[simp] theorem topupVoided_jamDuringClose : x.topupVoided.jamDuringClose = x.jamDuringClose := by
  unfold Station.topupVoided; split <;> rfl
@[simp] theorem topupVoided_settings : x.topupVoided.settings = x.settings := by
  unfold Station.topupVoided; split <;> rfl
@[simp] theorem topupVoided_audit : x.topupVoided.audit = x.audit := by
  unfold Station.topupVoided; split <;> rfl
@[simp] theorem topupVoided_counters : x.topupVoided.counters = x.counters := by
  unfold Station.topupVoided; split <;> rfl
@[simp] theorem topupVoided_lastJam : x.topupVoided.lastJam = x.lastJam := by
  unfold Station.topupVoided; split <;> rfl

/-- The tag that a take-back voids, where a top-up is outstanding. -/
theorem topupVoided_session_isSome : x.topupVoided.session.isSome = x.session.isSome := by
  unfold Station.topupVoided; split <;> simp

end TopupVoided

/-! ## The close at once -/

/-- The station after the steps of R150. -/
def Station.closedAtOnce (reason : EndReason) (x : Station) : Station :=
  { x.topupVoided.halted.credited with
    session := x.topupVoided.halted.credited.session.map (Session.ending reason) }

@[simp] theorem st_closeAtOnce (reason : EndReason) (n : StationId) (s : State) :
    (closeAtOnce reason n s).st n = (s.st n).closedAtOnce reason := by
  simp only [closeAtOnce, setEndReason, modSession, dropJob, sendHalt, st_modSt_self, st_voidTopup, st_credit]
  rfl

end Sys2Proof.Machine
end

section
/-! PROOF. Changes that ease what a station holds: the state stays, the session's funding and limit stay or rise, gross mills,
released sides and path do not grow. Both invariants of the stations (R1, R49) survive them, so most operations of the
blocks are settled here once. -/

namespace Sys2Proof.Machine

/-! ## The relation -/

/-- A session after a change that eases it: same kind of funding, an ACCOUNT session's funding and limit as they were, no
limit lowered, gross mills not risen. -/
structure Session.Eases (x y : Session) : Prop where
  kind : y.funding.kind = x.funding.kind
  drawn : x.funding.kind = .account → y.funding = x.funding ∧ y.limit = x.limit
  limited : y.limit = none ↔ x.limit = none
  limit : ∀ l, x.limit = some l → l ≤ y.limit.getD 0
  gross : y.gross ≤ x.gross

/-- A station after a change that eases it. A card may come into passage at a station in IDLE that has no session. -/
structure Station.Eases (x y : Station) : Prop where
  state : y.state = x.state
  session : Option.Rel Session.Eases x.session y.session
  path : y.inPath.length ≤ x.inPath.length
  passage : y.passage.isSome = true → x.passage.isSome = true ∨ (x.session = none ∧ x.state = .idle)
  hold : y.passage.bind Passage.hold = x.passage.bind Passage.hold
  prior : ∀ p, y.prior = some p →
    x.prior = some p ∨ p = .opened ∨ p = .running ∨ p = .starved ∨ p = .jammedSession
  job : y.job.isSome = true → x.job.isSome = true ∨ x.session.isSome = true
  released : y.released ≤ x.released
  topup : ∀ card dc req, y.slot = .topup card dc req →
    (∃ card dc req, x.slot = .topup card dc req) ∨ x.session.map (fun ses => ses.funding.kind) = some .bank
  active : y.tariff.active = x.tariff.active
  next : y.tariff.next = x.tariff.next

/-- An account whose list and available funds are as they were. -/
structure Account.Eases (a b : Account) : Prop where
  funded : b.funded = a.funded
  available : b.available = a.available

/-- Every station is eased, and every account keeps its list and its available funds. -/
structure Eases (s t : State) : Prop where
  stations : ∀ n, (s.st n).Eases (t.st n)
  tables : AccountTable.wf s.accounts → AccountTable.wf t.accounts
  accounts : AccountTable.wf s.accounts → ∀ i, (s.account i).Eases (t.account i)

theorem Session.Eases.refl (x : Session) : x.Eases x where
  kind := rfl
  drawn _ := ⟨rfl, rfl⟩
  limited := .rfl
  limit l h := by simp [h]
  gross := le_rfl

theorem Session.Eases.trans {x y z : Session} (h : x.Eases y) (k : y.Eases z) : x.Eases z where
  kind := k.kind.trans h.kind
  drawn hx := by
    obtain ⟨hf, hl⟩ := h.drawn hx
    obtain ⟨kf, kl⟩ := k.drawn (h.kind.trans hx)
    exact ⟨kf.trans hf, kl.trans hl⟩
  limited := k.limited.trans h.limited
  limit l hl := by
    have h1 := h.limit l hl
    cases hy : y.limit with
    | none => rw [h.limited.mp hy] at hl; cases hl
    | some l' =>
      have h2 := k.limit l' hy
      rw [hy] at h1
      exact le_trans h1 h2
  gross := k.gross.trans h.gross

/-- The sessions of a station, absent or eased alike. -/
theorem sessions_refl (x : Option Session) : Option.Rel Session.Eases x x := by
  cases x
  · exact .none
  · exact .some (.refl _)

theorem sessions_trans {x y z : Option Session} (h : Option.Rel Session.Eases x y)
    (k : Option.Rel Session.Eases y z) : Option.Rel Session.Eases x z := by
  cases h with
  | none => exact k
  | some h =>
    cases k with
    | some k => exact .some (h.trans k)

/-- A change of the session record, where there is one. -/
theorem sessions_map {f : Session → Session} {x : Option Session} (h : ∀ ses, x = some ses → ses.Eases (f ses)) :
    Option.Rel Session.Eases x (x.map f) := by
  cases x with
  | none => exact .none
  | some ses => exact .some (h ses rfl)

theorem sessions_isSome {x y : Option Session} (h : Option.Rel Session.Eases x y) : y.isSome = x.isSome := by
  cases h <;> rfl

theorem sessions_kind {x y : Option Session} (h : Option.Rel Session.Eases x y) :
    y.map (fun ses => ses.funding.kind) = x.map (fun ses => ses.funding.kind) := by
  cases h with
  | none => rfl
  | some h => exact congrArg some h.kind

theorem Station.Eases.refl (x : Station) : x.Eases x where
  state := rfl
  session := sessions_refl _
  path := le_rfl
  passage := .inl
  hold := rfl
  prior _ := .inl
  job := .inl
  released := le_rfl
  topup card dc req h := .inl ⟨card, dc, req, h⟩
  active := rfl
  next := rfl

theorem Station.Eases.trans {x y z : Station} (h : x.Eases y) (k : y.Eases z) : x.Eases z where
  state := k.state.trans h.state
  session := sessions_trans h.session k.session
  path := k.path.trans h.path
  passage hz := by
    rcases k.passage hz with hy | ⟨hn, hi⟩
    · exact h.passage hy
    · refine .inr ⟨?_, h.state ▸ hi⟩
      have hs := sessions_isSome h.session
      rw [hn] at hs
      simpa using hs.symm
  hold := k.hold.trans h.hold
  prior p hz := (k.prior p hz).elim (h.prior p) .inr
  job hz := (k.job hz).elim h.job (fun hy => .inr (by rwa [sessions_isSome h.session] at hy))
  released := k.released.trans h.released
  topup card dc req hz := by
    rcases k.topup card dc req hz with ⟨card', dc', req', hy⟩ | hy
    · exact h.topup card' dc' req' hy
    · exact .inr (by rwa [sessions_kind h.session] at hy)
  active := k.active.trans h.active
  next := k.next.trans h.next

theorem Account.Eases.refl (a : Account) : a.Eases a := ⟨rfl, rfl⟩

theorem Account.Eases.trans {a b c : Account} (h : a.Eases b) (k : b.Eases c) : a.Eases c :=
  ⟨k.funded.trans h.funded, k.available.trans h.available⟩

theorem Eases.refl (s : State) : Eases s s := ⟨fun _ => .refl _, id, fun _ _ => .refl _⟩

theorem Eases.trans {s t u : State} (h : Eases s t) (k : Eases t u) : Eases s u :=
  ⟨fun n => (h.stations n).trans (k.stations n), k.tables ∘ h.tables,
    fun hw i => (h.accounts hw i).trans (k.accounts (h.tables hw) i)⟩

theorem Eases.ite {s t u : State} {c : Prop} [Decidable c] (h : Eases s t) (k : Eases s u) :
    Eases s (if c then t else u) := by
  split
  · exact h
  · exact k

/-! ## The basic updates -/

/-- A change that leaves stations and accounts. -/
theorem eases_of_eq {s t : State} (hs : t.stations = s.stations) (ha : t.accounts = s.accounts) : Eases s t where
  stations n := by rw [st_congr hs]; exact .refl _
  tables := by rw [ha]; exact id
  accounts _ i := by rw [State.account, State.account, ha]; exact .refl _

/-- A change of a station that eases it. -/
theorem eases_modSt {s : State} {n : StationId} {f : Station → Station} (h : (s.st n).Eases (f (s.st n))) :
    Eases s (s.modSt n f) where
  stations m := by
    by_cases hm : m = n
    · subst hm; rwa [st_modSt_self]
    · rw [st_modSt_ne s f hm]; exact .refl _
  tables := id
  accounts _ _ := .refl _

/-- A change of an account that leaves its list and its available funds. -/
theorem eases_modAccount {s : State} {i : AccountId} {f : Account → Account}
    (h : (s.account i).Eases (f (s.account i))) : Eases s (s.modAccount i f) where
  stations _ := .refl _
  tables hw := modAccount_wf hw i f
  accounts hw k := by
    by_cases hk : k = i
    · subst hk; rwa [account_modAccount_self hw]
    · rw [account_modAccount_ne s f hk]; exact .refl _

/-- A change of a station's session record. -/
theorem eases_modSession {s : State} {n : StationId} {f : Session → Session}
    (h : ∀ ses, (s.st n).session = some ses → ses.Eases (f ses)) : Eases s (modSession n f s) :=
  eases_modSt { Station.Eases.refl (s.st n) with session := sessions_map h }

/-- A change of a station's job record that releases no side. -/
theorem eases_modJob {s : State} {n : StationId} {f : Job → Job} (h : ∀ j, (f j).released ≤ j.released) :
    Eases s (modJob n f s) :=
  eases_modSt { Station.Eases.refl _ with
    job := fun hj => .inl (by simpa using hj)
    released := by
      unfold Station.released
      dsimp only
      cases (s.st n).job with
      | none => exact le_rfl
      | some j => exact h j }

/-- Turns of several stations. -/
theorem eases_atEach {f : StationId → State → State} (hf : ∀ n s, Eases s (f n s)) (l : List StationId) (s : State) :
    Eases s (atEach l f s) :=
  atEach_keeps (P := Eases s) (fun n _ h => h.trans (hf n _)) l s (.refl s)

theorem eases_raiseMask (src : NoticeSource) (m : Mask) (s : State) : Eases s (raiseMask src m s) := eases_of_eq rfl rfl
theorem eases_raiseFor (src : NoticeSource) (n : StationId) (s : State) : Eases s (raiseFor src n s) :=
  eases_raiseMask src _ s
theorem eases_answerWith (a : Answer) (s : State) : Eases s (answerWith a s) := eases_of_eq rfl rfl
theorem eases_takeOrder (s : State) : Eases s (takeOrder s).2 := eases_of_eq rfl rfl

theorem eases_reserve (s : State) : Eases s (reserve s).2 := eases_of_eq (reserve_stations s) (reserve_accounts s)

theorem eases_returnReservation (s : State) : Eases s (returnReservation s) :=
  eases_of_eq (returnReservation_stations s) (returnReservation_accounts s)

theorem eases_offerReserved (body : LogBody) (s : State) : Eases s (offerReserved body s) :=
  eases_of_eq (offerReserved_stations body s) (offerReserved_accounts body s)

theorem eases_sendPanel (n : StationId) (l : Bool) (a : Nat) (c : Option PanelCode) (s : State) :
    Eases s (sendPanel n l a c s) := eases_modSt { Station.Eases.refl _ with }

theorem eases_statePanel (n : StationId) (s : State) : Eases s (statePanel n s) := by
  unfold statePanel
  split
  · exact .refl s
  · exact eases_sendPanel _ _ _ _ _

theorem eases_sendHalt (n : StationId) (s : State) : Eases s (sendHalt n s) :=
  eases_modSt { Station.Eases.refl _ with }

theorem eases_sendGrant (n : StationId) (sides : Nat) (s : State) : Eases s (sendGrant n sides s) :=
  eases_modSt { Station.Eases.refl _ with }

theorem eases_raiseEntry (new : StationState) (n : StationId) (s : State) : Eases s (raiseEntry new n s) := by
  unfold raiseEntry
  split
  · exact .refl s
  · exact eases_raiseFor _ _ _

theorem eases_protocolFault (n : StationId) (s : State) : Eases s (protocolFault n s) :=
  (eases_modSt { Station.Eases.refl _ with }).trans (eases_raiseFor _ _ _)

theorem eases_requestSideAdvance (i : AccountId) (c : ClassId) (s : State) : Eases s (requestSideAdvance i c s).2 :=
  eases_modAccount (f := fun a => { a with sides := modClass a.sides c (fun k => satAdd maxSides k 1) }) ⟨rfl, rfl⟩

theorem eases_requestSideReturn (i : AccountId) (c : ClassId) (k : Nat) (s : State) :
    Eases s (requestSideReturn i c k s) := eases_modAccount ⟨rfl, rfl⟩

theorem eases_requestJobCount (i : AccountId) (s : State) : Eases s (requestJobCount i s) := eases_modAccount ⟨rfl, rfl⟩

theorem eases_startWake (i : AccountId) (s : State) : Eases s (startWake i s) := eases_modAccount ⟨rfl, rfl⟩

/-! ## Sessions -/

/-- A change of a BANK session's tags is no change for the account table. -/
theorem Session.eases_funding {ses : Session} {f : Funding} (hk : f.kind = ses.funding.kind)
    (ha : ses.funding.kind = .account → f = ses.funding) : ses.Eases { ses with funding := f } :=
  { Session.Eases.refl ses with kind := hk, drawn := fun h => ⟨ha h, rfl⟩ }

theorem Session.eases_voided (tag : Nat) (ses : Session) : ses.Eases (ses.voided tag) := by
  refine Session.eases_funding ?_ ?_
  all_goals cases hf : ses.funding <;> simp [Funding.voidTag, Funding.kind]

theorem eases_announceRequest (n : StationId) (s : State) : Eases s (announceRequest n s) := eases_of_eq rfl rfl
theorem eases_leaveFetchOrder (n : StationId) (s : State) : Eases s (leaveFetchOrder n s) := eases_of_eq rfl rfl
theorem eases_takeTag (s : State) : Eases s (takeTag s).2 := eases_of_eq rfl rfl

/-- A slot that is set to anything but a top-up. -/
theorem eases_setSlot {s : State} {n : StationId} {slot : Slot} (h : ∀ card dc req, slot ≠ .topup card dc req) :
    Eases s (s.modSt n (fun x => { x with slot := slot })) :=
  eases_modSt { Station.Eases.refl _ with topup := fun card dc req he => absurd he (h card dc req) }

theorem eases_firstRequest (card : CardId) (dc : Nat) (n : StationId) (s : State) :
    Eases s (firstRequest card dc n s) :=
  ((eases_takeTag s).trans (eases_setSlot (by simp))).trans (eases_announceRequest _ _)

theorem eases_requestTopup {n : StationId} {s : State}
    (h : (s.st n).session.map (fun ses => ses.funding.kind) = some .bank) : Eases s (requestTopup n s) := by
  unfold requestTopup
  split
  · refine (((eases_takeTag s).trans (eases_modSt { Station.Eases.refl _ with
      topup := fun _ _ _ _ => .inr h })).trans (eases_modSession fun ses _ => ?_)).trans (eases_announceRequest _ _)
    refine Session.eases_funding ?_ ?_
    all_goals cases hf : ses.funding <;> simp [Funding.kind]
  all_goals exact .refl s

theorem eases_voidTopup (n : StationId) (s : State) : Eases s (voidTopup n s) := by
  unfold voidTopup
  split
  · exact ((eases_setSlot (by simp)).trans (eases_modSession fun ses _ => ses.eases_voided _)).trans
      (eases_leaveFetchOrder _ _)
  all_goals exact .refl s

theorem eases_voidFirst (cause : VoidCause) (n : StationId) (s : State) : Eases s (voidFirst cause n s) := by
  unfold voidFirst
  split
  · exact ((eases_setSlot (by simp)).trans (eases_leaveFetchOrder _ _)).trans (eases_offerReserved _ _)
  all_goals exact .refl s

/-- Credit lowers gross mills and empties the path (R146). -/
theorem Station.eases_credited (x : Station) : x.Eases x.credited :=
  { Station.Eases.refl x with
    session := sessions_map fun ses _ => { Session.Eases.refl ses with gross := Nat.sub_le _ _ }
    path := Nat.zero_le _
    job := fun hj => .inl (by simpa [Station.credited] using hj)
    released := by
      unfold Station.released Station.credited
      dsimp only
      cases x.job <;> exact le_rfl }

theorem eases_returnSides (i : AccountId) (sheets : List Sheet) (s : State) : Eases s (returnSides i sheets s) := by
  have h : ∀ (l : List ClassId) (u : State), Eases u (l.foldl (fun acc c =>
      if chargedOf sheets c = 0 then acc else requestSideReturn i c (chargedOf sheets c) acc) u) := by
    intro l
    induction l with
    | nil => exact fun u => .refl u
    | cons c l ih => exact fun u => (Eases.ite (.refl u) (eases_requestSideReturn i c _ u)).trans (ih _)
  exact h _ s

theorem eases_credit (n : StationId) (s : State) : Eases s (credit n s) := by
  have h : Eases s (s.modSt n Station.credited) := eases_modSt (Station.eases_credited _)
  unfold credit
  dsimp only
  split
  · exact h
  · split
    · exact h.trans (eases_returnSides _ _ _)
    · exact h
    · exact h

theorem eases_allowReprint (sides : Nat) (n : StationId) (s : State) : Eases s (allowReprint sides n s) :=
  eases_modJob fun _ => le_rfl

theorem eases_dropJob (n : StationId) (s : State) : Eases s (dropJob n s) :=
  eases_modSt { Station.Eases.refl _ with job := fun h => (nomatch h), released := Nat.zero_le _ }

theorem Station.eases_stopForClose (x : Station) : x.Eases x.stopForClose :=
  { Station.Eases.refl x with prior := fun _ h => nomatch h }

theorem eases_setEndReason (reason : EndReason) (n : StationId) (s : State) : Eases s (setEndReason reason n s) :=
  eases_modSession fun ses _ => { Session.Eases.refl ses with }

theorem eases_closeAtOnce (reason : EndReason) (n : StationId) (s : State) : Eases s (closeAtOnce reason n s) :=
  ((((eases_voidTopup n s).trans (eases_modSt (Station.eases_stopForClose _))).trans (eases_sendHalt n _)).trans
    (eases_dropJob n _)).trans ((eases_credit n _).trans (eases_setEndReason reason n _))

/-! ## Grants and records -/

theorem eases_dropStart (n : StationId) (s : State) : Eases s (dropStart n s) :=
  eases_modSt { Station.Eases.refl _ with }

theorem eases_restartIdle (n : StationId) (s : State) : Eases s (restartIdle n s) :=
  eases_modSt { Station.Eases.refl _ with }

theorem eases_touchSession (n : StationId) (s : State) : Eases s (touchSession n s) :=
  eases_modSession fun ses _ => { Session.Eases.refl ses with }

theorem eases_activity (n : StationId) (s : State) : Eases s (activity n s) :=
  (eases_restartIdle n s).trans (eases_touchSession n _)

theorem eases_passSeq (sheet gap : Nat) (n : StationId) (s : State) : Eases s (passSeq sheet gap n s) :=
  eases_modSt { Station.Eases.refl _ with }

theorem eases_reportSides (cls : Nat) (cat : SideCategory) (sides : Nat) (n : StationId) (s : State) :
    Eases s (reportSides cls cat sides n s) := eases_modSt { Station.Eases.refl _ with }

theorem eases_markLast (sheet : Nat) (n : StationId) (s : State) : Eases s (markLast sheet n s) :=
  eases_modJob fun _ => le_rfl

theorem eases_unattributedImaged (sheet cls sides : Nat) (n : StationId) (s : State) :
    Eases s (unattributedImaged sheet cls sides n s) := by
  unfold unattributedImaged
  split
  · exact eases_protocolFault n s
  · exact ((eases_passSeq _ _ n s).trans (eases_modSt { Station.Eases.refl _ with })).trans (eases_reportSides _ _ _ _ _)

/-- A change of the last jam report. -/
theorem eases_modJam (f : Option JamReport → Option JamReport) (n : StationId) (s : State) :
    Eases s (s.modSt n (fun x => { x with lastJam := f x.lastJam })) := eases_modSt { Station.Eases.refl _ with }

/-- A sheet that joins the path and is credited at once leaves no sheet there (R153). -/
theorem eases_creditMetered (e : Sheet) (n : StationId) (s : State) : Eases s (creditMetered e n s) := by
  have hadd : Eases s (credit n (s.modSt n (fun x => { x with inPath := x.inPath ++ [e] }))) := by
    have h : ∀ m, (s.st m).Eases ((credit n (s.modSt n (fun x => { x with inPath := x.inPath ++ [e] }))).st m) := by
      intro m
      have hc := (eases_credit n (s.modSt n (fun x => { x with inPath := x.inPath ++ [e] }))).stations m
      by_cases hm : m = n
      · subst hm
        have hpath : ((credit m (s.modSt m (fun x => { x with inPath := x.inPath ++ [e] }))).st m).inPath = [] := by
          rw [st_credit]; rfl
        rw [st_modSt_self] at hc
        exact { hc with path := by rw [hpath]; exact Nat.zero_le _ }
      · rwa [st_modSt_ne _ _ hm] at hc
    have ha := eases_credit n (s.modSt n (fun x => { x with inPath := x.inPath ++ [e] }))
    exact ⟨h, ha.tables, ha.accounts⟩
  unfold creditMetered
  exact (((hadd.trans (eases_allowReprint _ n _)).trans (eases_modJam _ n _)).trans
    (eases_touchSession n _)).trans (eases_statePanel n _)

theorem eases_reportJam (location sheets : Nat) (n : StationId) (s : State) : Eases s (reportJam location sheets n s) :=
  eases_modSt { Station.Eases.refl _ with }

theorem eases_creditJam (n : StationId) (s : State) : Eases s (creditJam n s) := by
  unfold creditJam
  dsimp only
  refine Eases.trans (eases_modSession (n := n) (f := fun ses => { ses with jamCount := satAdd 255 ses.jamCount 1 })
    fun ses _ => { Session.Eases.refl ses with }) (Eases.trans (eases_credit n _) ?_)
  exact eases_modJam _ n _

theorem eases_modAudit (n : StationId) (s : State) (f : Station → Audit) :
    Eases s (s.modSt n (fun x => { x with audit := f x })) := eases_modSt { Station.Eases.refl _ with }

theorem eases_frameError (n : StationId) (s : State) : Eases s (frameError n s) :=
  eases_modSt { Station.Eases.refl _ with }

theorem eases_sendRecord (n : StationId) (s : State) : Eases s (sendRecord n s) := by
  refine eases_modSt ?_
  split
  · exact { Station.Eases.refl _ with }
  · exact { Station.Eases.refl _ with }

theorem eases_setApplyStatus (status : ApplyStatus) (n : StationId) (s : State) :
    Eases s (setApplyStatus status n s) := eases_modSt { Station.Eases.refl _ with }

/-- A request that is marked as fetched is of the kind it was (R132). -/
theorem eases_markFetched (n : StationId) (s : State) : Eases s (markFetched n s) := by
  refine eases_modSt { Station.Eases.refl _ with topup := fun card dc req h => .inl ?_ }
  cases hslot : (s.st n).slot with
  | topup card dc req => exact ⟨_, _, _, rfl⟩
  | _ => simp [hslot, Slot.mapRequest] at h

theorem eases_endRequest {n : StationId} {s : State} {slot : Slot} (h : ∀ card dc req, slot ≠ .topup card dc req) :
    Eases s (endRequest slot n s) := (eases_setSlot h).trans (eases_leaveFetchOrder _ _)

/-! ## Admissions -/

/-- An admission without a hold ends (R101). -/
theorem eases_endPassage {n : StationId} {s : State} (h : (s.st n).passage.bind Passage.hold = none) :
    Eases s (endPassage n s) :=
  eases_modSt { Station.Eases.refl _ with passage := fun hp => (nomatch hp), hold := h.symm }

theorem eases_refuseAdmission {code : PanelCode} {n : StationId} {s : State}
    (h : (s.st n).passage.bind Passage.hold = none) : Eases s (refuseAdmission code n s) :=
  ((eases_endPassage h).trans (eases_returnReservation _)).trans (eases_sendPanel _ _ _ _ _)

/-- A change of an admission in passage that leaves its hold. -/
theorem eases_modPassage {n : StationId} {s : State} {f : Passage → Passage} (h : ∀ p, (f p).hold = p.hold) :
    Eases s (modPassage n f s) :=
  eases_modSt { Station.Eases.refl _ with
    passage := fun hp => .inl (by simpa using hp)
    hold := by cases hx : (s.st n).passage <;> simp [h] }

/-- A card comes into passage at a station in IDLE without a session and without another card in passage (R101). -/
theorem eases_enterPassage {card : CardId} {n : StationId} {s : State} (hi : (s.st n).state = .idle)
    (hn : (s.st n).session = none) (hp : (s.st n).passage = none) : Eases s (enterPassage card n s) :=
  eases_modSt { Station.Eases.refl _ with
    passage := fun _ => .inr ⟨hn, hi⟩
    hold := by rw [hp]; rfl }

end Sys2Proof.Machine
end

section
/-! PROOF. What it takes for an invariant of the part to be kept by the blocks' operations (`Units`): that changes which ease a
station keep it, and a dozen changes that do not. Every operation that a row asks for is made of these. -/

namespace Sys2Proof.Machine

/-! ## The units -/

/-- An approved top-up up to its PANEL and retry (R138). -/
def topupApproved (card : CardId) (dc tag amount : Nat) (n : StationId) (s : State) : State :=
  modSession n (fun ses => { ses with limit := ses.limit.map (· + amount), funding := ses.funding.approveTag tag })
    (endRequest (.active card dc) n s)

/-- An invariant that stands at least on the stations' agreement with their states, and that the changes keep of which the
blocks' operations are made. -/
structure Units (P : State → Prop) : Prop where
  agrees : ∀ {s}, P s → ∀ n, (s.st n).Agrees
  eases : ∀ {s t}, Eases s t → P s → P t
  enters : ∀ {q new n s}, (s.st n).session.isSome = new.hasSession → (s.st n).passage = none → P s →
    P (enter q new n s)
  commits : ∀ {q n s}, (s.st n).session = none → P s → P (commitTariff q n s)
  resumes : ∀ {n s}, (s.st n).state = .suspended → P s → P (resume n s)
  opens : ∀ {funding card limit discount n s}, (s.st n).session = none → (s.st n).passage = none →
    funding.kind ≠ .account → (funding = .free ↔ limit = none) → P s → P (openSession funding card limit discount n s)
  opensOnHold : ∀ {i card limit dc n s}, (s.st n).passage.bind Passage.hold = some (i, limit, dc) → P s →
    P (openAccountSession i card limit dc n s)
  admits : ∀ {i n floor limit dc s t}, (s.st n).passage.isSome = true → (s.st n).passage.bind Passage.hold = none →
    requestAdmission i n floor s = (.admitted limit dc, t) → P s → P (placeHold i limit dc n t)
  raisesHold : ∀ {i n amount s}, (s.st n).accountIndex = some i → extensionAmount i s = some amount → P s →
    P (extendHold i n amount s)
  grants : ∀ {n request g oneSet s}, (s.st n).passes g = true → P s → P (modJob n (Job.granted request g oneSet) s)
  meters : ∀ {sheet cls sides n s}, P s → P (meterSheet sheet cls sides n s).2
  appends : ∀ {e : Sheet} {n s}, (s.st n).inPath.length < 8 → P s →
    P (s.modSt n (fun x => { x with inPath := x.inPath ++ [e] }))
  approves : ∀ {card dc req amount n s}, (s.st n).slot = .topup card dc req → P s →
    P (topupApproved card dc req.tag amount n s)
  settles : ∀ {n s}, P s → P (settle n s)
  posts : ∀ {i n charge s}, (s.account i).postable n charge = true → P s → P (requestPosting i n charge s)
  writes : ∀ {i r s}, P s → P (writeRecord i r s).2
  adjusts : ∀ {amount i s}, judgeAdjust amount (s.account i) = .ok → P s → P (adjustBalance amount i s)

/-! ## What a station in agreement with its state tells -/

namespace Station.Agrees
variable {x : Station} (h : x.Agrees)
include h

theorem passage_none (hs : x.state ≠ .idle) : x.passage = none := by
  cases hp : x.passage with
  | none => rfl
  | some p => exact absurd (h.passage (by rw [hp]; rfl)) hs

theorem session_none (hs : x.state.hasSession = false) : x.session = none := by
  have := h.session
  rw [hs] at this
  simpa using this

theorem session_some (hs : x.state.hasSession = true) : x.session.isSome = true := h.session.trans hs

theorem session_none_of_passage (hp : x.passage.isSome = true) : x.session = none :=
  h.session_none (by rw [h.passage hp]; rfl)

end Station.Agrees

/-- A state with a session is not IDLE. -/
theorem StationState.ne_idle {x : StationState} (h : x.hasSession = true) : x ≠ .idle := by
  rintro rfl
  cases h

section Walk
variable {P : State → Prop} (u : Units P) {n : StationId} {s : State}
include u

/-! ## Entries -/

/-- A station with a session changes to another state with one. -/
theorem keep_enterHeld {q : Bool} {new : StationState} (hold : (s.st n).state.hasSession = true)
    (hnew : new.hasSession = true) (h : P s) : P (enter q new n s) :=
  u.enters (((u.agrees h n).session_some hold).trans hnew.symm)
    ((u.agrees h n).passage_none (StationState.ne_idle hold)) h

/-- A station without a session and without a card in passage changes to another state without one. -/
theorem keep_enterFree {q : Bool} {new : StationState} (hs : (s.st n).session = none) (hp : (s.st n).passage = none)
    (hnew : new.hasSession = false) (h : P s) : P (enter q new n s) :=
  u.enters (by rw [hs, hnew]; rfl) hp h

theorem keep_enterService {q : Bool} (hs : (s.st n).session = none) (hp : (s.st n).passage = none) (h : P s) :
    P (enterService q n s) :=
  keep_enterFree u (s := raiseFor .service n s) hs hp rfl (u.eases (eases_raiseFor _ _ s) h)

theorem keep_enterIdle {q : Bool} (hs : (s.st n).session = none) (hp : (s.st n).passage = none) (h : P s) :
    P (enterIdle q n s) := by
  unfold enterIdle
  split
  · exact keep_enterService u (by simpa using hs) (by simpa using hp)
      (u.eases (eases_modSt { Station.Eases.refl _ with }) h)
  · split
    · exact keep_enterService u hs hp h
    · split
      · exact keep_enterFree u hs hp rfl h
      · exact keep_enterFree u hs hp rfl h

/-! ## Closing and settlement -/

theorem keep_startClosing (reason : EndReason) (h : P s) : P (startClosing reason n s) := by
  unfold startClosing
  split
  · exact h
  · next hc =>
    have hsome : (s.st n).state.hasSession = true := by
      rw [← (u.agrees h n).session]
      simpa [Option.isSome_iff_ne_none] using (not_or.mp hc).1
    dsimp only
    generalize hv : setEndReason reason n (dropJob n (sendHalt n ((voidTopup n (s.modSt n (fun x => { x with
      jamDuringClose := x.jamDuringClose || decide (x.state = .jammedSession) }))).modSt n Station.stopForClose))) = v
    have he : Eases s v := hv ▸ ((((Eases.trans (eases_modSt { Station.Eases.refl _ with }) (eases_voidTopup n _)).trans
      (eases_modSt (Station.eases_stopForClose _))).trans (eases_sendHalt n _)).trans (eases_dropJob n _)).trans
        (eases_setEndReason reason n _)
    have hk : P (enter false .closing n v) :=
      keep_enterHeld u (by rw [(he.stations n).state]; exact hsome) rfl (u.eases he h)
    split
    · exact u.settles hk
    · exact u.eases (eases_modSt { Station.Eases.refl _ with }) hk

theorem keep_settleNow (reason : EndReason) (h : P s) : P (settleNow reason n s) :=
  u.settles (u.eases (eases_closeAtOnce reason n s) h)

end Walk

/-! ## Grants -/

/-- The grant that a request is sized into passes the exposure check, unless it is 0 (R49, R50). -/
theorem sized_passes (x : Station) (whole : Bool) (request : Nat) :
    x.sized whole request = 0 ∨ x.passes (x.sized whole request) = true := by
  have hpart : x.passing request = 0 ∨ x.passes (x.passing request) = true := by
    unfold Station.passing
    split
    · exact .inl rfl
    · next ses hses =>
      split
      · next hl => exact .inr (by simp [Station.passes, hses, hl])
      · next l hl =>
        split
        · next hp => exact .inr hp
        · rcases Nat.eq_zero_or_pos ((10 * l - x.exposure) / x.ceiling) with h0 | hpos
          · exact .inl (by rw [h0]; exact Nat.min_zero _)
          · refine .inr ?_
            have hc : 0 < x.ceiling := Nat.pos_of_ne_zero (fun h => by rw [h, Nat.div_zero] at hpos; omega)
            have hle : min request ((10 * l - x.exposure) / x.ceiling) * x.ceiling ≤ 10 * l - x.exposure :=
              (Nat.mul_le_mul_right _ (Nat.min_le_right _ _)).trans (Nat.div_mul_le_self _ _)
            have hroom : 0 < 10 * l - x.exposure := hpos.trans_le (Nat.div_le_self _ _)
            simp only [Station.passes, hses, hl, decide_eq_true_eq]
            omega
  unfold Station.sized
  split
  · split
    · next hp => exact .inr hp
    · exact .inl rfl
  · exact hpart

/-- The account an ACCOUNT session draws on stays while its station is eased. -/
theorem Station.Eases.accountIndex {x y : Station} (h : x.Eases y) {i : AccountId} (hi : x.accountIndex = some i) :
    y.accountIndex = some i := by
  have hs := h.session
  unfold Station.accountIndex at hi ⊢
  generalize x.session = xs, y.session = ys at hs hi ⊢
  cases hs with
  | none => cases hi
  | @some ses ses' hse =>
    dsimp only at hi ⊢
    split at hi
    · next j hf =>
      rw [(hse.drawn (by rw [hf]; rfl)).1, hf]
      exact hi
    · cases hi
    · cases hi

theorem extendHold_accountIndex {i : AccountId} {n : StationId} {amount : Nat} {s : State} :
    ((extendHold i n amount s).st n).accountIndex = (s.st n).accountIndex := by
  unfold extendHold modSession Station.accountIndex
  rw [st_modSt_self, modAccount_st]
  cases (s.st n).session <;> rfl

theorem extendHold_state (i : AccountId) (n : StationId) (amount : Nat) (s : State) :
    ((extendHold i n amount s).st n).state = (s.st n).state := by
  unfold extendHold modSession
  rw [st_modSt_self, modAccount_st]

/-- What asking for funds leaves: the state, and the invariant. -/
structure Funding.Asked (P : State → Prop) (n : StationId) (s t : State) : Prop where
  keeps : P t
  state : (t.st n).state = (s.st n).state

section Walk
variable {P : State → Prop} (u : Units P) {n : StationId} {s : State}
include u

theorem keep_requestExtension {i : AccountId} (hi : (s.st n).accountIndex = some i) (h : P s) :
    Funding.Asked P n s (requestExtension i n s).2 ∧ ((requestExtension i n s).2.st n).accountIndex = some i := by
  unfold requestExtension
  split
  · exact ⟨⟨h, rfl⟩, hi⟩
  · next amount ha =>
    have he := eases_statePanel n (extendHold i n amount s)
    exact ⟨⟨u.eases he (u.raisesHold hi ha h), (he.stations n).state.trans (extendHold_state i n amount s)⟩,
      (he.stations n).accountIndex (extendHold_accountIndex.trans hi)⟩

theorem keep_askExtensions {i : AccountId} (request : Nat) : ∀ (tries : Nat) {s : State},
    (s.st n).accountIndex = some i → P s → Funding.Asked P n s (askExtensions i n request tries s)
  | 0, _, _, h => ⟨h, rfl⟩
  | tries + 1, s, hi, h => by
    obtain ⟨hk, hi'⟩ := keep_requestExtension u hi h
    unfold askExtensions
    split
    · exact ⟨h, rfl⟩
    · split
      · next he =>
        rw [he] at hk
        exact hk
      · next he =>
        rw [he] at hk hi'
        obtain ⟨hk', hs'⟩ := keep_askExtensions request tries hi' hk.keeps
        exact ⟨hk', hs'.trans hk.state⟩

theorem keep_askFunder (request : Nat) (h : P s) : Funding.Asked P n s (askFunder n request s) := by
  unfold askFunder
  split
  · exact ⟨h, rfl⟩
  · split
    · exact ⟨h, rfl⟩
    · next ses hses =>
      split
      · next i hf => exact keep_askExtensions u request _ (by simp [Station.accountIndex, hses, hf]) h
      · next hf =>
        split
        · have he := eases_requestTopup (n := n) (s := s) (by simp [hses, hf, Funding.kind])
          exact ⟨u.eases he h, (he.stations n).state⟩
        · exact ⟨h, rfl⟩
      · exact ⟨h, rfl⟩

theorem keep_giveGrant {request g : Nat} {oneSet : Bool} (hg : g = 0 ∨ (s.st n).passes g = true) (h : P s) :
    Funding.Asked P n s (giveGrant n request g oneSet s) := by
  unfold giveGrant
  dsimp only
  rcases hg with rfl | hg
  · have he : Eases s (modJob n (Job.granted request 0 oneSet) s) := eases_modJob fun _ => le_rfl
    exact ⟨u.eases he h, (he.stations n).state⟩
  · have hk : P (modJob n (Job.granted request g oneSet) s) := u.grants hg h
    have hs : ((modJob n (Job.granted request g oneSet) s).st n).state = (s.st n).state := by simp [modJob]
    split
    · have he := eases_sendGrant n g (modJob n (Job.granted request g oneSet) s)
      exact ⟨u.eases he hk, (he.stations n).state.trans hs⟩
    · exact ⟨hk, hs⟩

theorem keep_consult {atStart : Bool} (hold : (s.st n).state.hasSession = true) (h : P s) :
    P (consult atStart n s) := by
  unfold consult
  split
  · exact h
  · dsimp only
    next j _ =>
    have ha := keep_askFunder u (n := n) (j.request (s.st n).settings.window atStart) h
    have hg := keep_giveGrant u (request := j.request (s.st n).settings.window atStart)
      (oneSet := decide (j.mode = .set)) (sized_passes
      ((askFunder n (j.request (s.st n).settings.window atStart) s).st n) (decide (j.mode = .set))
      (j.request (s.st n).settings.window atStart)) ha.keeps
    have hs := hg.state.trans ha.state
    unfold grantOutcome
    split
    · exact keep_enterHeld u (by rw [hs]; exact hold) rfl hg.keeps
    · split
      · exact keep_enterHeld u (by rw [hs]; exact hold) rfl hg.keeps
      · exact hg.keeps

theorem keep_retry (h : P s) : P (retry n s) := by
  unfold retry
  split
  · next hs => exact keep_consult u (by rcases hs with hs | hs <;> rw [hs] <;> rfl) h
  · exact h

theorem keep_startGrant (hold : (s.st n).state.hasSession = true) (h : P s) : P (startGrant n s) := by
  have hsome := (u.agrees h n).session_some hold
  unfold startGrant
  split
  · exact h
  · next d _ =>
    have he : Eases s (s.modSt n (fun x => { x with
        job := some (jobOf d), startPending := false, descriptor := none, confirmTimer := none
        session := x.session.map (fun ses => { ses with jobs := satAdd max32 ses.jobs 1 })
        counters := { x.counters with jobs := satAdd max32 x.counters.jobs 1 } })) :=
      eases_modSt { Station.Eases.refl (s.st n) with
        session := sessions_map fun ses _ => { Session.Eases.refl ses with }
        job := fun _ => .inr hsome
        released := Nat.zero_le _ }
    dsimp only
    have hrun : ∀ t, Eases s t → P (consult true n (enter false .running n t)) := fun t ht =>
      keep_consult u (by rw [st_enter, entered_state]; rfl)
        (keep_enterHeld u (by rw [(ht.stations n).state]; exact hold) rfl (u.eases ht h))
    refine hrun _ ?_
    split
    · exact he
    · split
      · exact he.trans (eases_requestJobCount _ _)
      · exact he
      · exact he

theorem keep_endJob (h : P s) : P (endJob n s) := by
  have he : Eases s (s.modSt n (fun x => { x with job := none, sendList := dropGrants x.sendList })) :=
    eases_modSt { Station.Eases.refl _ with job := fun h => (nomatch h), released := Nat.zero_le _ }
  unfold endJob
  dsimp only
  split
  · next hs =>
    refine keep_enterHeld u ?_ rfl (u.eases he h)
    rw [(he.stations n).state]
    rcases hs with hs | hs <;> rw [hs] <;> rfl
  · exact u.eases he h

theorem keep_cancelPending (hc : (s.st n).state = .confirming) (h : P s) : P (cancelPending n s) :=
  keep_enterHeld u (by rw [((eases_dropStart n s).stations n).state, hc]; rfl) rfl (u.eases (eases_dropStart n s) h)

theorem keep_denyStart (hc : (s.st n).state = .confirming) (h : P s) : P (denyStart n s) :=
  u.eases (eases_sendPanel _ _ _ _ _) (keep_cancelPending u hc h)

theorem keep_reprintGrant (h : P s) : Funding.Asked P n s (reprintGrant n s) := by
  unfold reprintGrant
  split
  · exact ⟨h, rfl⟩
  · dsimp only
    next j _ =>
    have ha := keep_askFunder u (n := n) (j.reprintRequest (s.st n).settings.window) h
    have hg := keep_giveGrant u (request := j.reprintRequest (s.st n).settings.window) (oneSet := false) (sized_passes
      ((askFunder n (j.reprintRequest (s.st n).settings.window) s).st n) false
      (j.reprintRequest (s.st n).settings.window)) ha.keeps
    exact ⟨u.eases (eases_modJob fun _ => le_rfl) hg.keeps,
      ((eases_modJob (n := n) (f := fun j => { j with reprint := 0 }) fun _ => le_rfl).stations n).state.trans
        (hg.state.trans ha.state)⟩

end Walk

/-! ## Admissions -/

/-- Two changes of one station are one. -/
theorem modSt_modSt (s : State) (n : StationId) (f g : Station → Station) :
    (s.modSt n f).modSt n g = s.modSt n (fun x => g (f x)) := by
  simp [State.modSt, State.st]

/-- A session opens alike whether or not its hold has been placed with the card in passage. -/
theorem openAccountSession_placeHold (i : AccountId) (card : CardId) (limit dc : Nat) (n : StationId) (s : State) :
    openAccountSession i card limit dc n (placeHold i limit dc n s) = openAccountSession i card limit dc n s := by
  unfold openAccountSession endPassage placeHold modPassage
  rw [modSt_modSt, st_modSt_self]
  rfl

/-- A first request changes its station's slot alone (R130). -/
theorem st_firstRequest (card : CardId) (dc : Nat) (n : StationId) (s : State) :
    (firstRequest card dc n s).st n = { s.st n with slot := .requested card dc (newRequest (takeTag s).1 s) } :=
  st_modSt_self (takeTag s).2 n (fun x => { x with slot := .requested card dc (newRequest (takeTag s).1 s) })

section Walk
variable {P : State → Prop} (u : Units P) {n : StationId} {s : State}
include u

theorem keep_admitAccount {p : Passage} (hp : (s.st n).passage = some p) (hh : p.hold = none) (h : P s) :
    P (admitAccount p n s) := by
  have hnone : (s.st n).passage.bind Passage.hold = none := by rw [hp]; exact hh
  unfold admitAccount
  split
  · exact u.eases (eases_refuseAdmission hnone) h
  · split
    · exact u.eases ((eases_raiseFor _ _ s).trans (eases_refuseAdmission hnone)) h
    · split
      case h_1 limit dc t hr =>
        have ht := u.admits (by rw [hp]; rfl) hnone hr h
        have hst : t.st n = s.st n := by rw [(requestAdmission_admitted hr).2.2.2.2.2, modAccount_st]
        rw [← openAccountSession_placeHold]
        exact u.opensOnHold (by simp [placeHold, modPassage, hst, hp]) ht
      case h_2 hr =>
        rw [requestAdmission_refused hr (by simp)]
        exact u.eases (eases_refuseAdmission hnone) h
      case h_3 hr =>
        rw [requestAdmission_refused hr (by simp)]
        exact u.eases (eases_refuseAdmission hnone) h
      case h_4 hr =>
        rw [requestAdmission_refused hr (by simp)]
        exact u.eases (eases_refuseAdmission hnone) h

theorem keep_admitOutcome {p : Passage} {o : CardOutcome} (hp : (s.st n).passage = some p) (hh : p.hold = none)
    (h : P s) : P (admitOutcome o p n s) := by
  have hnone : (s.st n).passage.bind Passage.hold = none := by rw [hp]; exact hh
  have hses : (s.st n).session = none := (u.agrees h n).session_none_of_passage (by rw [hp]; rfl)
  have he := eases_endPassage hnone
  unfold admitOutcome
  split
  · exact u.eases (eases_refuseAdmission hnone) h
  · exact u.opens (by simpa [endPassage] using hses) (by simp [endPassage]) (by simp [Funding.kind]) (by simp)
      (u.eases he h)
  · refine keep_enterFree u ?_ ?_ rfl (u.eases (he.trans (eases_firstRequest _ _ _ _)) h)
    · rw [st_firstRequest]; simpa [endPassage] using hses
    · rw [st_firstRequest]; simp [endPassage]
  · exact keep_admitAccount u hp hh h

theorem keep_finishPassage (h : P s) : P (finishPassage n s) := by
  unfold finishPassage
  split
  · exact h
  · next p hp =>
    split
    · next i limit dc hh => exact u.opensOnHold (by rw [hp]; exact hh) h
    · next hh =>
      have hnone : (s.st n).passage.bind Passage.hold = none := by rw [hp]; exact hh
      split
      · exact u.eases (eases_refuseAdmission hnone) h
      · split
        · exact keep_admitOutcome u hp hh h
        · split
          · refine u.eases (eases_returnReservation _) (keep_enterService u ?_ ?_ (u.eases (eases_endPassage hnone) h))
            · simpa [endPassage] using (u.agrees h n).session_none_of_passage (by rw [hp]; rfl)
            · simp [endPassage]
          · split
            · exact u.eases (eases_refuseAdmission hnone) h
            · exact keep_admitOutcome u hp hh h

end Walk

end Sys2Proof.Machine
end

section
/-! PROOF. The records of a copier, the timers and the host's commands are made of the units: an invariant with `Units` is kept
by every operation that a row asks for. -/

namespace Sys2Proof.Machine

/-! ## Cards in passage -/

theorem refuseAdmission_passage (code : PanelCode) (n : StationId) (s : State) :
    ((refuseAdmission code n s).st n).passage = none := by
  unfold refuseAdmission refusalPanel
  rw [st_sendPanel, st_congr (returnReservation_stations _), endPassage, st_modSt_self]

theorem openSession_passage {funding : Funding} {card : CardId} {limit : Option Nat} {discount : Nat} {n : StationId}
    {s : State} : ((openSession funding card limit discount n (endPassage n s)).st n).passage = none := by
  rw [st_openSession, entered_passage, endPassage, st_modSt_self]
  rfl

theorem admitAccount_passage (p : Passage) (n : StationId) (s : State) :
    ((admitAccount p n s).st n).passage = none := by
  unfold admitAccount
  split
  · exact refuseAdmission_passage _ _ _
  · split
    · exact refuseAdmission_passage _ _ _
    · split
      · exact openSession_passage
      all_goals exact refuseAdmission_passage _ _ _

theorem admitOutcome_passage (o : CardOutcome) (p : Passage) (n : StationId) (s : State) :
    ((admitOutcome o p n s).st n).passage = none := by
  unfold admitOutcome
  split
  · exact refuseAdmission_passage _ _ _
  · exact openSession_passage
  · rw [st_enter, entered_passage, st_firstRequest, endPassage, st_modSt_self]
  · exact admitAccount_passage _ _ _

/-- An admission in passage is at its end once it has gone on (R101). -/
theorem finishPassage_passage (n : StationId) (s : State) : ((finishPassage n s).st n).passage = none := by
  unfold finishPassage
  split
  · next h => exact h
  · split
    · exact openSession_passage
    · split
      · exact refuseAdmission_passage _ _ _
      · split
        · exact admitOutcome_passage _ _ _ _
        · split
          · rw [st_congr (returnReservation_stations _)]
            simp [enterService, endPassage]
          · split
            · exact refuseAdmission_passage _ _ _
            · exact admitOutcome_passage _ _ _ _

/-- No card is in passage at a station once a record has arrived there (R101). -/
theorem arrive_passage (n : StationId) (s : State) : ((arrive n s).st n).passage = none := by
  have h := finishPassage_passage n (s.modSt n (fun x => { x with silence := 0 }))
  unfold arrive
  dsimp only
  split
  · rw [st_enterIdle, idled_passage]; exact h
  · split
    · unfold resume
      split
      · exact h
      · rw [st_statePanel, st_modSt_self]; exact h
    · exact h

/-- The item of a card in passage stays while its station is eased, where there is none. -/
theorem activity_passage {n : StationId} {s : State} (h : (s.st n).passage = none) :
    ((activity n s).st n).passage = none := by
  simpa [activity, touchSession, restartIdle, modSession] using h

/-- The removal of the head shortens the path by one (R47). -/
theorem exitHead_inPath (n : StationId) (s : State) :
    ((exitHead n s).st n).inPath = (s.st n).inPath.tail := by
  unfold exitHead
  split
  · next h => rw [h]; rfl
  · next e rest h =>
    have hjob : ∀ t : State, (t.st n).inPath = rest → ((endJob n t).st n).inPath = rest := fun t ht => by
      unfold endJob
      dsimp only
      split
      · rw [st_enter, entered_inPath, st_modSt_self]; exact ht
      · rw [st_modSt_self]; exact ht
    rw [h]
    dsimp only
    split
    · rw [st_modSt_self]; rfl
    · split
      · exact hjob _ (by rw [st_modSt_self])
      · rw [st_modSt_self]; rfl

section Walk
variable {P : State → Prop} (u : Units P) {n : StationId} {s : State}
include u

/-! ## Cards -/

theorem keep_presentCard {card : CardId} (hi : (s.st n).state = .idle) (hp : (s.st n).passage = none) (h : P s) :
    P (presentCard card n s) := by
  have hr := reserve_stations s
  have he := eases_reserve s
  unfold presentCard
  split
  · next t ht =>
    rw [ht] at he
    exact u.eases (he.trans (eases_sendPanel _ _ _ _ _)) h
  · next t ht =>
    rw [ht] at hr he
    have hst := st_congr hr n
    refine keep_finishPassage u (u.eases (eases_enterPassage (card := card) ?_ ?_ ?_) (u.eases he h))
    · rw [hst]; exact hi
    · rw [hst]; exact (u.agrees h n).session_none (by rw [hi]; rfl)
    · rw [hst]; exact hp

theorem keep_tapCard {card : CardId} (h : P s) : P (tapCard card n s) := by
  unfold tapCard
  split
  · exact h
  · split
    · exact keep_startClosing u _ h
    · split
      · exact h
      · split
        · exact h
        · exact u.eases (eases_sendPanel _ _ _ _ _) h

theorem keep_takeCard {bytes : List Byte} (hp : (s.st n).passage = none) (h : P s) : P (takeCard bytes n s) := by
  have hfault := u.eases (eases_protocolFault n s) h
  have htap : P (match cardIdOf bytes with | none => protocolFault n s | some c => tapCard c n s) := by
    split
    · exact hfault
    · exact keep_tapCard u h
  unfold takeCard
  split
  case h_1 hi =>
    split
    · exact u.eases ((eases_sendPanel _ _ _ _ _).trans (eases_protocolFault _ _)) h
    · exact keep_presentCard u hi hp h
  case h_2 => exact htap
  case h_3 => exact htap
  case h_4 => exact htap
  case h_5 => exact htap
  case h_6 => exact htap
  all_goals exact h

/-! ## Sheets -/

theorem keep_exitHead (h : P s) : P (exitHead n s) := by
  unfold exitHead
  split
  · exact h
  · next e rest hin =>
    have he : Eases s (s.modSt n (fun x => { x with
        inPath := rest
        session := x.session.map (fun ses => { ses with sheetsExited := satAdd max32 ses.sheetsExited 1 })
        counters := { x.counters with sheetsExited := satAdd max32 x.counters.sheetsExited 1 } })) :=
      eases_modSt { Station.Eases.refl (s.st n) with
        session := sessions_map fun ses _ => { Session.Eases.refl ses with }
        path := by rw [hin]; exact Nat.le_succ _ }
    dsimp only
    split
    · exact u.eases he h
    · split
      · exact keep_endJob u (u.eases he h)
      · exact u.eases he h

theorem keep_exitUpTo (sheet : Nat) : ∀ (k : Nat) {s : State}, P s → P (exitUpTo sheet n k s)
  | 0, _, h => h
  | k + 1, s, h => by
    unfold exitUpTo
    split
    · exact h
    · split
      · exact keep_exitUpTo sheet k (keep_exitHead u h)
      · exact h

theorem keep_takeExited (sheet : Nat) (h : P s) : P (takeExited sheet n s) := by
  unfold takeExited
  dsimp only
  split
  · exact u.settles (keep_exitUpTo u sheet _ h)
  · exact keep_exitUpTo u sheet _ h

theorem keep_takeExit (sheet : Nat) (h : P s) : P (takeExit sheet n s) := by
  have hx := keep_takeExited u (n := n) sheet h
  unfold takeExit
  split
  case h_1 => exact hx
  case h_2 => exact hx
  case h_3 => exact hx
  case h_4 => exact hx
  case h_5 => exact hx
  all_goals exact h

theorem keep_joinPath (e : Sheet) (h : P s) : P (joinPath e n s) := by
  unfold joinPath
  dsimp only
  split
  · next hfull =>
    have he := eases_protocolFault n (exitHead n s)
    refine u.appends ?_ (u.eases he (keep_exitHead u h))
    have hpath := (he.stations n).path
    rw [exitHead_inPath, List.length_tail] at hpath
    have := (u.agrees h n).path
    omega
  · exact u.appends (by omega) h

theorem keep_completeImaged (e : Sheet) (h : P s) : P (completeImaged e n s) := by
  have he := ((eases_restartIdle n s).trans (eases_touchSession n _)).trans ((eases_statePanel n _).trans
    (eases_markLast e.number n _))
  unfold completeImaged
  dsimp only
  split
  · exact keep_startClosing u _ (u.eases he h)
  · split
    · next hs => exact keep_consult u (by rw [hs.2]; rfl) (u.eases he h)
    · exact u.eases he h

theorem keep_meterImaged (sheet cls sides : Nat) (h : P s) : P (meterImaged sheet cls sides n s) := by
  unfold meterImaged
  split
  · exact u.eases (eases_protocolFault n s) h
  · exact keep_completeImaged u _ (keep_joinPath u _ (u.meters (sheet := sheet) (u.eases (eases_passSeq _ _ n s) h)))

theorem keep_jammedImaged (sheet cls sides : Nat) (h : P s) : P (jammedImaged sheet cls sides n s) := by
  cases hv : (s.st n).seqVerdict sheet with
  | none =>
    rw [jammedImaged, hv]
    exact u.eases (eases_protocolFault n s) h
  | some gap =>
    rw [jammedImaged_passes hv]
    exact u.eases (eases_creditMetered _ n _) (u.meters (u.eases (eases_passSeq _ _ n s) h))

theorem keep_takeImaged (sheet cls sides : Nat) (h : P s) : P (takeImaged sheet cls sides n s) := by
  have hmeter := keep_meterImaged u (n := n) sheet cls sides h
  have hfree := u.eases (eases_unattributedImaged sheet cls sides n s) h
  unfold takeImaged
  split
  · exact h
  · split
    · exact u.eases (eases_protocolFault n s) h
    · split
      case h_1 => exact hmeter
      case h_2 => exact hmeter
      case h_3 => exact hmeter
      case h_4 => exact hmeter
      case h_5 => exact hmeter
      case h_6 => exact keep_jammedImaged u sheet cls sides h
      case h_7 => exact hfree
      case h_8 => exact hfree
      case h_9 => exact hfree
      case h_10 => exact hfree
      all_goals exact h

/-! ## Links and jams -/

/-- The states that a suspension keeps as the prior one have a session (R160). -/
theorem keep_suspend (hs : (s.st n).state = .opened ∨ (s.st n).state = .confirming ∨ (s.st n).state = .running ∨
    (s.st n).state = .starved ∨ (s.st n).state = .jammedSession) (h : P s) : P (suspend n s) := by
  have hdrop : Eases s (if (s.st n).state = .confirming then dropStart n s else s) :=
    .ite (eases_dropStart n s) (.refl s)
  have hprior : ∀ p, some (s.st n).state.priorOf = some p →
      p = .opened ∨ p = .running ∨ p = .starved ∨ p = .jammedSession := by
    rintro p ⟨⟩
    rcases hs with hs | hs | hs | hs | hs <;> simp [hs, StationState.priorOf]
  have he : Eases s ((if (s.st n).state = .confirming then dropStart n s else s).modSt n (fun y => { y with
      prior := some (s.st n).state.priorOf
      recoveryTimer := if (s.st n).state = .jammedSession then y.recoveryTimer else some y.settings.recoveryTime })) :=
    hdrop.trans (eases_modSt { Station.Eases.refl _ with prior := fun p hp => .inr (hprior p hp) })
  refine keep_enterHeld u ?_ rfl (u.eases he h)
  rw [(he.stations n).state]
  rcases hs with hs | hs | hs | hs | hs <;> rw [hs] <;> rfl

theorem keep_arrive (h : P s) : P (arrive n s) := by
  have hk : P (finishPassage n (s.modSt n (fun x => { x with silence := 0 }))) :=
    keep_finishPassage u (u.eases (eases_modSt { Station.Eases.refl _ with }) h)
  have hp := finishPassage_passage n (s.modSt n (fun x => { x with silence := 0 }))
  unfold arrive
  dsimp only
  split
  · next hs => exact keep_enterIdle u ((u.agrees hk n).session_none (by rw [hs]; rfl)) hp hk
  · split
    · next hs => exact u.resumes hs hk
    · exact hk

theorem keep_linkSilent (h : P s) : P (linkSilent n s) := by
  have hk : P (finishPassage n (s.modSt n (fun x => { x with silence := 100 }))) :=
    keep_finishPassage u (u.eases (eases_modSt { Station.Eases.refl _ with }) h)
  have hp := finishPassage_passage n (s.modSt n (fun x => { x with silence := 100 }))
  unfold linkSilent
  dsimp only
  generalize finishPassage n (s.modSt n (fun x => { x with silence := 100 })) = t at hk hp ⊢
  have hdown : (t.st n).state.hasSession = false → P (enter false .down n t) := fun hs =>
    keep_enterFree u ((u.agrees hk n).session_none hs) hp rfl hk
  split
  case h_1 hs => exact hdown (by rw [hs]; rfl)
  case h_2 hs => exact hdown (by rw [hs]; rfl)
  case h_3 hs => exact hdown (by rw [hs]; rfl)
  case h_4 hs => exact keep_suspend u (.inl hs) hk
  case h_5 hs => exact keep_suspend u (.inr (.inl hs)) hk
  case h_6 hs => exact keep_suspend u (.inr (.inr (.inl hs))) hk
  case h_7 hs => exact keep_suspend u (.inr (.inr (.inr (.inl hs)))) hk
  case h_8 hs => exact keep_suspend u (.inr (.inr (.inr (.inr hs)))) hk
  all_goals exact hk

theorem keep_jamLimit (h : P s) : P (jamLimit n s) := by
  unfold jamLimit
  split
  · exact h
  · split
    · exact keep_settleNow u _ h
    · exact h

theorem keep_jamInSession (hold : (s.st n).state.hasSession = true) (h : P s) : P (jamInSession n s) := by
  have he : Eases s ((allowReprint (chargedSum (s.st n).inPath) n (creditJam n s)).modSt n (fun x => { x with
      idleTimer := none, recoveryTimer := some x.settings.recoveryTime })) :=
    ((eases_creditJam n s).trans (eases_allowReprint _ n _)).trans (eases_modSt { Station.Eases.refl _ with })
  exact keep_jamLimit u (u.eases (eases_raiseFor _ _ _)
    (keep_enterHeld u (by rw [(he.stations n).state]; exact hold) rfl (u.eases he h)))

theorem keep_takeJam (location sheets : Nat) (hp : (s.st n).passage = none) (h : P s) :
    P (takeJam location sheets n s) := by
  have he := eases_reportJam location sheets n s
  have hk := u.eases he h
  have hst := (he.stations n).state
  have hraise : P (raiseFor .jam n (reportJam location sheets n s)) := u.eases (eases_raiseFor _ _ _) hk
  have hjam : (s.st n).state.hasSession = true → P (jamInSession n (reportJam location sheets n s)) := fun hs =>
    keep_jamInSession u (by rw [hst]; exact hs) hk
  unfold takeJam
  split
  case h_1 hs => exact hjam (by rw [hs]; rfl)
  case h_2 hs => exact hjam (by rw [hs]; rfl)
  case h_3 hs => exact hjam (by rw [hs]; rfl)
  case h_4 hs =>
    have hd := eases_dropStart n (reportJam location sheets n s)
    exact keep_jamInSession u (by rw [(hd.stations n).state, hst, hs]; rfl) (u.eases hd hk)
  case h_5 => exact keep_jamLimit u (u.eases ((eases_creditJam n _).trans (eases_raiseFor _ _ _)) hk)
  case h_6 =>
    exact u.settles (u.eases (((eases_creditJam n _).trans (eases_modSt { Station.Eases.refl _ with })).trans
      (eases_raiseFor _ _ _)) hk)
  case h_7 hs =>
    refine u.eases (eases_raiseFor _ _ _) (keep_enterFree u ?_ ?_ rfl hk)
    · exact (u.agrees hk n).session_none (by rw [hst, hs]; rfl)
    · simpa [reportJam] using hp
  case h_8 => exact hraise
  case h_9 => exact hraise
  case h_10 => exact hraise
  all_goals exact h

theorem keep_endJam (hs : (s.st n).state.hasSession = true) (h : P s) : P (endJam n s) := by
  have he : Eases s (s.modSt n (fun x => { x with recoveryTimer := none })) := eases_modSt { Station.Eases.refl _ with }
  have hk := u.eases he h
  unfold endJam
  dsimp only
  split
  · exact keep_enterHeld u (by rw [(he.stations n).state]; exact hs) rfl hk
  · have hrun := keep_enterHeld u (q := false) (new := .running) (by rw [(he.stations n).state]; exact hs) rfl hk
    have hg := keep_reprintGrant u (n := n) hrun
    exact keep_consult u (by rw [hg.state, st_enter, entered_state]; rfl) hg.keeps

theorem keep_takeCleared (h : P s) : P (takeCleared n s) := by
  unfold takeCleared
  split
  case h_1 hs => exact keep_endJam u (by rw [hs]; rfl) h
  case h_2 hs =>
    have ha := u.agrees h n
    exact keep_enterIdle u (ha.session_none (by rw [hs]; rfl)) (ha.passage_none (by rw [hs]; simp)) h
  all_goals exact h

theorem keep_takeAnnounce (model classes capacity : Nat) (h : P s) : P (takeAnnounce model classes capacity n s) := by
  have he : Eases s (s.modSt n (fun x => { x with
      identity := { model := some model, classes := BitVec.ofNat 4 classes, capacity := some capacity }
      seqKnown := false })) := eases_modSt { Station.Eases.refl _ with }
  unfold takeAnnounce
  dsimp only
  split
  · exact u.eases he h
  · have hc := he.trans (eases_credit n _)
    split
    · exact u.settles (u.eases (hc.trans (eases_modSt { Station.Eases.refl _ with })) h)
    · exact u.eases hc h

/-! ## Starts and ends -/

theorem keep_pendStart (d : Descriptor) (hs : (s.st n).state = .opened) (h : P s) : P (pendStart d n s) := by
  have he : Eases s (s.modSt n (fun x => { x with startPending := true, descriptor := some d })) :=
    eases_modSt { Station.Eases.refl _ with }
  unfold pendStart
  dsimp only
  split
  · exact keep_startGrant u (by rw [(he.stations n).state, hs]; rfl) (u.eases he h)
  · have hc := he.trans (eases_modSt (n := n) (f := fun x => { x with confirmTimer := some x.settings.confirmTime })
      { Station.Eases.refl _ with })
    exact keep_enterHeld u (by rw [(hc.stations n).state, hs]; rfl) rfl (u.eases hc h)

theorem keep_takeStart (mode originals copies : Nat) (duplex : Bool) (h : P s) :
    P (takeStart mode originals copies duplex n s) := by
  have hfault := u.eases (eases_protocolFault n s) h
  unfold takeStart
  split
  case h_1 hs =>
    split
    · exact hfault
    · exact keep_pendStart u _ hs h
  case h_2 => exact hfault
  case h_3 => exact hfault
  case h_4 => exact hfault
  case h_5 => exact hfault
  case h_6 => exact hfault
  case h_7 => exact hfault
  case h_8 => exact hfault
  all_goals exact h

theorem keep_takeJobEnd (h : P s) : P (takeJobEnd n s) := by
  have hfault := u.eases (eases_protocolFault n s) h
  have hend := keep_endJob u (n := n) h
  unfold takeJobEnd
  split
  case h_1 => exact hend
  case h_2 => exact hend
  case h_3 =>
    split
    · exact hend
    · exact hfault
  case h_4 => exact hfault
  case h_5 => exact hfault
  case h_6 => exact hfault
  case h_7 => exact hfault
  all_goals exact h

theorem keep_takeFinish (h : P s) : P (takeFinish n s) := by
  have hfault := u.eases (eases_protocolFault n s) h
  have hclose := keep_startClosing u (n := n) .finished h
  unfold takeFinish
  split
  case h_1 => exact hclose
  case h_2 => exact hclose
  case h_3 => exact hclose
  case h_4 => exact hclose
  case h_5 => exact hclose
  case h_6 => exact hfault
  case h_7 => exact hfault
  all_goals exact h

/-! ## Meters -/

theorem keep_lockIdle (hp : (s.st n).passage = none) (h : P s) : P (lockIdle n s) := by
  unfold lockIdle
  split
  · next hs => exact keep_enterService u ((u.agrees h n).session_none (by rw [hs.1]; rfl)) hp h
  · exact h

theorem keep_judgeMeter (meter : PerClass Nat) (hp : (s.st n).passage = none) (h : P s) : P (judgeMeter meter n s) := by
  have he := fun f => eases_modAudit n s f
  unfold judgeMeter
  dsimp only
  split
  · exact u.eases ((he _).trans (eases_raiseFor _ _ _)) h
  · split
    · exact keep_lockIdle u (by simpa using hp) (u.eases ((he _).trans (eases_raiseFor _ _ _)) h)
    · split
      · exact u.eases ((he _).trans (eases_raiseFor _ _ _)) h
      · exact u.eases (he _) h

theorem keep_takeMeter (meter : PerClass Nat) (hp : (s.st n).passage = none) (h : P s) : P (takeMeter meter n s) := by
  unfold takeMeter
  split
  · exact h
  · exact u.eases (eases_modAudit n s _) h
  · exact keep_judgeMeter u meter hp h
  · exact keep_judgeMeter u meter hp h

/-! ## Records and bytes -/

theorem keep_handleRecord (r : CopierRecord) (h : P s) : P (handleRecord r n s) := by
  have hk := keep_arrive u (n := n) h
  have hp := arrive_passage n s
  have ha := u.eases (eases_activity n (arrive n s)) hk
  have hpa := activity_passage hp
  unfold handleRecord
  dsimp only
  split
  · exact keep_takeAnnounce u _ _ _ hk
  · exact hk
  · exact keep_takeCard u hpa ha
  · exact keep_takeStart u _ _ _ _ ha
  · exact keep_takeImaged u _ _ _ (u.eases (eases_restartIdle n _) hk)
  · exact keep_takeExit u _ ha
  · exact keep_takeJobEnd u ha
  · exact keep_takeJam u _ _ hpa ha
  · exact keep_takeCleared u ha
  · exact keep_takeFinish u ha
  · exact keep_takeMeter u _ hp hk

theorem keep_completeStationFrame (bytes : List Byte) (h : P s) : P (completeStationFrame bytes n s) := by
  have hbad := u.eases (eases_frameError n s) h
  unfold completeStationFrame
  dsimp only
  split
  · split
    · exact keep_handleRecord u _ (u.eases (eases_modSt { Station.Eases.refl _ with }) h)
    · exact hbad
  · exact hbad
  · exact hbad

theorem keep_stationByte (b : Byte) (h : P s) : P (stationByte n s b) := by
  have hrx : ∀ r : Receiver, P (s.modSt n (fun x => { x with rx := r })) := fun r =>
    u.eases (eases_modSt { Station.Eases.refl _ with }) h
  unfold stationByte
  split
  · split
    · exact hrx _
    · exact h
  · split
    · exact u.eases (eases_frameError n s) h
    · exact hrx _
  · dsimp only
    split
    · exact keep_completeStationFrame u _ h
    · exact hrx _

theorem keep_stationBytes : ∀ (bytes : List Byte) {s : State}, P s → P (stationBytes n bytes s)
  | [], _, h => h
  | b :: bytes, _, h => keep_stationBytes bytes (keep_stationByte u b h)

/-! ## Commands, timers and requests -/

theorem keep_enableStation (h : P s) : P (enableStation n s) := by
  have he : Eases s (s.modSt n (fun x => { x with serviceDue := false })) := eases_modSt { Station.Eases.refl _ with }
  have hk := u.eases he h
  unfold enableStation
  split
  · next hs =>
    have hfree : (s.st n).session = none :=
      (u.agrees h n).session_none (by rcases hs with hs | hs <;> rw [hs] <;> rfl)
    have hp : (s.st n).passage = none :=
      (u.agrees h n).passage_none (by rcases hs with hs | hs <;> rw [hs] <;> simp)
    dsimp only
    split
    · exact keep_enterIdle u (by simpa using hfree) (by simpa using hp) hk
    · exact keep_enterFree u (by simpa using hfree) (by simpa using hp) rfl hk
  · exact h

theorem keep_disableByState (hp : (s.st n).passage = none) (h : P s) : P (disableByState n s) := by
  have hout : (s.st n).state.hasSession = false → P (enter false .disabled n s) := fun hs =>
    keep_enterFree u ((u.agrees h n).session_none hs) hp rfl h
  have hclose := keep_startClosing u (n := n) .disabled h
  unfold disableByState
  split
  case h_1 => exact h
  case h_2 hs => exact hout (by rw [hs]; rfl)
  case h_3 hs => exact hout (by rw [hs]; rfl)
  case h_4 hs => exact hout (by rw [hs]; rfl)
  case h_5 hs => exact hout (by rw [hs]; rfl)
  case h_6 hs => exact hout (by rw [hs]; rfl)
  case h_13 => exact u.eases (eases_modSt { Station.Eases.refl _ with }) h
  all_goals exact hclose

theorem keep_leaveAuthorizing {code : PanelCode} (h : P s) : P (leaveAuthorizing code n s) := by
  have hk := u.eases (eases_sendPanel n true 0 (some code) s) h
  unfold leaveAuthorizing refusalPanel
  split
  · next hs =>
    have ha := u.agrees h n
    exact keep_enterIdle u (by simpa using ha.session_none (by rw [hs]; rfl))
      (by simpa using ha.passage_none (by rw [hs]; simp)) hk
  · exact h

theorem keep_approveFirst {card : CardId} {dc : Nat} {req : Request} {amount : Nat} (h : P s) :
    P (approveFirst card dc req amount n s).2.2 := by
  unfold approveFirst
  dsimp only
  split
  · next hs =>
    have ha := u.agrees h n
    have he : Eases s (endRequest (.active card dc) n s) := eases_endRequest (by simp)
    refine u.opens ?_ ?_ (by simp [Funding.kind]) (by simp) (u.eases he h)
    · simpa [endRequest] using ha.session_none (by rw [hs.2]; rfl)
    · simpa [endRequest] using ha.passage_none (by rw [hs.2]; simp)
  · exact keep_leaveAuthorizing u (u.eases (eases_voidFirst _ n s) h)

theorem keep_approveTopup {card : CardId} {dc amount : Nat} {req : Request} (hs : (s.st n).slot = .topup card dc req)
    (h : P s) : P (approveTopup card dc req.tag amount n s) :=
  keep_retry u (u.eases (eases_statePanel n _) (u.approves (amount := amount) hs h))

theorem keep_expireRequest (h : P s) : P (expireRequest n s) := by
  unfold expireRequest
  split
  · exact keep_leaveAuthorizing u (u.eases (eases_voidFirst _ n s) h)
  · exact u.eases (eases_voidTopup n s) h
  · exact h
  · exact h

theorem keep_takeAdmission {i : AccountId} (hw : (s.st n).awaitsHold = true) (h : P s) : P (takeAdmission n i s) := by
  have hp : (s.st n).passage.isSome = true ∧ (s.st n).passage.bind Passage.hold = none := by
    unfold Station.awaitsHold at hw
    split at hw
    · cases hw
    · next p hp =>
      simp only [Bool.and_eq_true, Option.isNone_iff_eq_none] at hw
      rw [hp]
      exact ⟨rfl, hw.1.1⟩
  have hrefuse : ∀ code, P (keepRefusal code n s) := fun code => u.eases (eases_modPassage fun _ => rfl) h
  unfold takeAdmission
  refine u.eases (eases_answerWith _ _) ?_
  generalize hr : requestAdmission i n (s.st n).floor s = r
  obtain ⟨a, t⟩ := r
  cases a with
  | admitted limit dc => exact u.admits hp.1 hp.2 hr h
  | refusedState => rw [requestAdmission_refused hr (by simp)]; exact hrefuse _
  | refusedCap => rw [requestAdmission_refused hr (by simp)]; exact hrefuse _
  | refusedFloor => rw [requestAdmission_refused hr (by simp)]; exact hrefuse _

theorem keep_visit {i : AccountId} (h : P s) : P (visit i s) := by
  have hclose : ∀ t : State, Eases t (t.modAccount i Account.closeWalk) := fun t => eases_modAccount ⟨rfl, rfl⟩
  unfold visit
  split
  · exact h
  · split
    · exact u.eases (hclose s) h
    · refine u.eases (hclose _) ?_
      unfold takeWake
      have hk := fun w : Walk => u.eases (eases_modAccount (i := i) (f := fun a => { a with walk := some w })
        ⟨rfl, rfl⟩) h
      split
      · exact keep_retry u (hk _)
      · exact hk _

end Walk

end Sys2Proof.Machine
end

section
/-! PROOF. An invariant with `Units` is kept by every row and by every step once it is kept by the resets and by a checked
tariff's taking; and the agreement of the stations with their states is such an invariant (R1, R36, R101, R145). -/

namespace Sys2Proof.Machine

/-! ## From the units to the steps -/

section Walk
variable {P : State → Prop} (u : Units P)
include u

/-- Every operation that a row asks for keeps the invariant. -/
theorem Units.operations : Operations (fun s t => P s → P t) where
  refl _ := id
  trans h k := k ∘ h
  draw s := u.eases (eases_takeOrder s)
  answer a s := u.eases (eases_answerWith a s)
  enable _ _ := keep_enableStation u
  disable n s h := keep_disableByState u (finishPassage_passage n s) (keep_finishPassage u h)
  grant _ _ hc := keep_startGrant u (by rw [hc]; rfl)
  deny _ _ := keep_denyStart u
  cancel _ _ := keep_cancelPending u
  close reason _ _ := keep_startClosing u reason
  write _ _ _ := u.writes
  adjust _ _ _ := u.adjusts
  block _ _ := u.eases (eases_modAccount ⟨rfl, rfl⟩)
  unblock i _ := u.eases ((eases_modAccount (f := fun a => { a with state := .active }) ⟨rfl, rfl⟩).trans
    (eases_startWake i _))
  statement i s _ _ := u.eases (Eases.trans (eases_of_eq (joinLog_stations _ _ s) (joinLog_accounts _ _ s))
    (eases_modAccount (f := Account.newPeriod s.clock s.clockSet) ⟨rfl, rfl⟩))
  fetched n s := u.eases (eases_markFetched n s)
  result amount n s r hr h := by
    unfold takeResult at hr
    split at hr
    · split at hr
      · cases hr
        exact keep_leaveAuthorizing u (u.eases ((eases_endRequest (by simp)).trans (eases_returnReservation _)) h)
      · cases hr
        exact keep_approveFirst u h
    · next card dc req hslot =>
      split at hr
      · cases hr
        exact u.eases (eases_endRequest (by simp)) h
      · cases hr
        exact keep_approveTopup u hslot h
    · cases hr
    · cases hr
  drop count s := u.eases (eases_of_eq (logLowCheck_stations _) (logLowCheck_accounts _))
  auditStart n s := u.eases (by
    unfold auditStart
    exact .ite (eases_modAudit n s _) ((eases_modAudit n s _).trans (eases_modSt { Station.Eases.refl _ with })))
  auditStop n s := u.eases (eases_modAudit n s _)
  auditClear n s := u.eases (eases_modAudit n s _)
  bytes _ bytes _ := keep_stationBytes u bytes
  frameError n s := u.eases (eases_frameError n s)
  send n s := u.eases (eases_sendRecord n s)
  record r _ _ := keep_handleRecord u r
  probe n s := u.eases (.ite (.refl s) (eases_modSt { Station.Eases.refl _ with }))
  silent _ _ := keep_linkSilent u
  drain n s _ h := u.settles (u.eases (eases_credit n s) h)
  recover reason _ _ _ := keep_settleNow u reason
  expire _ _ := keep_expireRequest u
  interval n s := u.eases (eases_modAudit n s _)
  commit n s hc h := u.commits ((u.agrees h n).session_none (by
    cases hs : (s.st n).state with
    | idle | down | disabled | service => rfl
    | _ => rw [hs] at hc; cases hc)) h
  outcome card o n s := u.eases (.ite (eases_modPassage fun _ => rfl) (.refl s))
  found card b n s := u.eases (.ite (eases_modPassage fun _ => rfl) (.refl s))
  admission _ _ _ := keep_takeAdmission u
  extension n i s hi h := (keep_requestExtension u hi h).1.keeps
  advance i c s := u.eases (eases_requestSideAdvance i c s)
  ahead i c k n s := u.eases (.ite (eases_modSt { Station.Eases.refl _ with }) (.refl s))
  sideReturn i c k s := u.eases (eases_requestSideReturn i c k s)
  jobCount i s := u.eases (eases_requestJobCount i s)
  posting _ _ _ _ := u.posts
  wake _ _ := keep_visit u
  reserve card n s hi hp h := by
    have hst := st_congr (reserve_stations s) n
    refine u.eases (eases_enterPassage ?_ ?_ ?_) (u.eases (eases_reserve s) h)
    · rw [hst]; exact hi
    · rw [hst]; exact (u.agrees h n).session_none (by rw [hi]; rfl)
    · rw [hst]; exact hp
  finish _ _ := keep_finishPassage u
  returned n s hp := by
    refine u.eases ((eases_endPassage ?_).trans (eases_returnReservation _))
    unfold Station.inPassage at hp
    split at hp
    · cases hp
    · next p hx => rw [hx]; simpa using hp
  offer body s := u.eases (by
    cases body with
    | statement r =>
      show Eases s (offerStatement (.statement r) s).2
      by_cases hu : 1 ≤ s.log.unreserved
      · rw [offerStatement_taken _ hu]
        exact eases_of_eq (joinLog_stations _ _ _) (joinLog_accounts _ _ _)
      · rw [offerStatement_refused _ (by omega)]
        exact .refl s
    | session r =>
      unfold offer
      dsimp only
      split
      · exact eases_offerReserved _ s
      · exact .refl s
    | void r =>
      unfold offer
      dsimp only
      split
      · exact eases_offerReserved _ s
      · exact .refl s)
  tag s := u.eases (eases_takeTag s)
  sessionNumber s := u.eases (eases_of_eq rfl rfl)

end Walk

/-- An invariant that the resets and a checked tariff's taking keep too. -/
structure Kept (P : State → Prop) : Prop extends Units P where
  cold : ∀ {rate lost s}, P s → P (coldState rate lost s)
  tables : ∀ {s}, P s → P (initializeTables s)
  warm : ∀ {s}, P s → P (warmState s)
  takes : ∀ {ts tf timing n s}, judgeStaged ts = .ok tf → P s → P (takeTariff tf timing n s)

/-- A turn of the part's own eases its stations: their timers and measures run. -/
theorem eases_idleTurn (s : State) : Eases s (idleTurn s) := by
  have hsilence : Eases s (silenceOn s) := by
    refine ⟨fun n => ?_, id, fun _ _ => .refl _⟩
    rw [show (silenceOn s).st n = { s.st n with silence := min 100 ((s.st n).silence + 1) } by
      simp [silenceOn, State.st]]
    exact { Station.Eases.refl (s.st n) with }
  have hsecond : ∀ t : State, Eases t { t with stations := t.stations.map Station.secondOn } := fun t => by
    refine ⟨fun n => ?_, id, fun _ _ => .refl _⟩
    rw [show ({ t with stations := t.stations.map Station.secondOn } : State).st n = (t.st n).secondOn by
      simp [State.st]]
    refine { Station.Eases.refl (t.st n) with topup := fun card dc req h => .inl ?_ }
    cases hslot : (t.st n).slot with
    | topup card dc req => exact ⟨_, _, _, rfl⟩
    | _ => simp [Station.secondOn, hslot, Slot.mapRequest] at h
  unfold idleTurn
  split
  · exact eases_of_eq rfl rfl
  · unfold tenthPasses
    dsimp only
    split
    · exact hsilence.trans ((hsecond _).trans (eases_of_eq rfl rfl))
    · exact hsilence.trans (eases_of_eq rfl rfl)

section Steps
variable {P : State → Prop} (k : Kept P)
include k

theorem Kept.ruled {c : Instr} {s t : State} (h : Ruled (fun s t => P s → P t) c s t) (hs : P s) : P t := by
  have hrest : ∀ v : State, v.stations = s.stations → v.accounts = s.accounts → P v := fun v h1 h2 =>
    k.eases (eases_of_eq h1 h2) hs
  cases h with
  | internal h => exact h hs
  | config n c _ _ => exact k.eases (eases_modSt { Station.Eases.refl _ with }) hs
  | list =>
    refine k.eases (s := s) ⟨fun n => ?_, id, fun _ _ => .refl _⟩ hs
    rw [show ({ s with stations := s.stations.map (fun x => { x with changed := false }) } : State).st n =
      { s.st n with changed := false } by simp [State.st]]
    exact { Station.Eases.refl (s.st n) with }
  | apply m timing => exact k.eases (eases_atEach (fun n v => eases_setApplyStatus _ n v) _ _) (hrest _ rfl rfl)
  | lost card h => exact h (hrest _ rfl rfl)
  | _ => exact hrest _ rfl rfl

theorem Kept.check {m : Mask} {timing : Timing} {s : State} (hs : P s) : P (finishCheck m timing s) := by
  have hrest : ∀ ts, P { s with tariffs := ts } := fun ts => k.eases (s := s) (eases_of_eq rfl rfl) hs
  unfold finishCheck
  split
  · exact k.eases ((eases_atEach (fun n v => eases_setApplyStatus _ n v) _ _).trans (eases_raiseMask _ _ _)) (hrest _)
  · next tf hj =>
    refine k.eases (eases_raiseMask _ _ _) (atEach_keeps (fun n v hv => k.takes hj hv) _ _ ?_)
    exact atEach_keeps (fun n v hv => keep_finishPassage k.toUnits hv) _ _ (k.eases (eases_takeOrder _) (hrest _))

/-- Every command keeps the invariant. -/
theorem Kept.exec {c : Instr} {s t : State} (hs : P s) (h : exec c s = .next t) : P t := by
  have hrest : ∀ v : State, v.stations = s.stations → v.accounts = s.accounts → P v := fun v h1 h2 =>
    k.eases (eases_of_eq h1 h2) hs
  cases exec_effect k.operations h with
  | internal h => exact h hs
  | @command _ _ v _ hr ha =>
    have hu := k.ruled hr hs
    rw [ha.rest]
    exact k.eases (s := v) (eases_of_eq rfl rfl) hu
  | cold => exact k.cold hs
  | tables => exact k.tables hs
  | transmit =>
    rw [transmitNext_rest]
    exact hrest _ rfl rfl
  | warm => exact k.warm hs
  | check m timing => exact k.check hs
  | _ => exact hrest _ rfl rfl

/-- Every step keeps the invariant, the one with no command waiting included. -/
theorem Kept.step {s t : State} (hs : P s) (h : step s = .next t) : P t :=
  step_keeps (P := P) (fun v _ h => k.eases (s := v) (eases_of_eq rfl rfl) h) (fun s h => k.eases (eases_idleTurn s) h)
    (fun _ _ _ h => k.exec h) s t hs h

end Steps

end Sys2Proof.Machine
end

section
/-! PROOF. The stations agree with their states after every step (O58), and what the metering of a sheet does to its station's
exposure (R41, R42, R49). -/

namespace Sys2Proof.Machine

/-! ## Metering -/

/-- A station after a sheet has been metered: state, path, funding and limit as they were. -/
structure Station.Meters (x y : Station) : Prop where
  state : y.state = x.state
  path : y.inPath = x.inPath
  passage : y.passage = x.passage
  prior : y.prior = x.prior
  slot : y.slot = x.slot
  tariff : y.tariff = x.tariff
  job : y.job.isSome = x.job.isSome
  session : Option.Rel (fun a b : Session => b.funding = a.funding ∧ b.limit = a.limit) x.session y.session

theorem Station.Meters.refl (x : Station) : x.Meters x :=
  ⟨rfl, rfl, rfl, rfl, rfl, rfl, rfl, by cases x.session <;> constructor; exact ⟨rfl, rfl⟩⟩

/-- Sessions alike in funding and limit. -/
theorem funded_trans {x y z : Option Session}
    (h : Option.Rel (fun a b : Session => b.funding = a.funding ∧ b.limit = a.limit) x y)
    (k : Option.Rel (fun a b : Session => b.funding = a.funding ∧ b.limit = a.limit) y z) :
    Option.Rel (fun a b : Session => b.funding = a.funding ∧ b.limit = a.limit) x z := by
  cases h with
  | none => exact k
  | some h =>
    cases k with
    | some k => exact .some ⟨k.1.trans h.1, k.2.trans h.2⟩

theorem funded_isSome {x y : Option Session}
    (h : Option.Rel (fun a b : Session => b.funding = a.funding ∧ b.limit = a.limit) x y) : y.isSome = x.isSome := by
  cases h <;> rfl

theorem Station.Meters.trans {x y z : Station} (h : x.Meters y) (k : y.Meters z) : x.Meters z where
  state := k.state.trans h.state
  path := k.path.trans h.path
  passage := k.passage.trans h.passage
  prior := k.prior.trans h.prior
  slot := k.slot.trans h.slot
  tariff := k.tariff.trans h.tariff
  job := k.job.trans h.job
  session := funded_trans h.session k.session

/-- What a part of a sheet's metering does: it meters its own station, whose exposure rises by at most `k` sides at the
ceiling of a sound tariff, and no account's list or available funds change. -/
structure Prices (k : Nat) (n : StationId) (s t : State) : Prop where
  station : (s.st n).Meters (t.st n)
  released : (t.st n).released = (s.st n).released
  gross : (∀ tf, (s.st n).tariff.active = some tf → tf.Sound) →
    ∀ a b, (s.st n).session = some a → (t.st n).session = some b → b.gross ≤ a.gross + k * (s.st n).ceiling
  tables : AccountTable.wf s.accounts → AccountTable.wf t.accounts
  accounts : AccountTable.wf s.accounts → ∀ i, (s.account i).Eases (t.account i)

theorem Station.Meters.ceiling {x y : Station} (h : x.Meters y) : y.ceiling = x.ceiling := by
  unfold Station.ceiling
  rw [h.tariff]

theorem Prices.refl (n : StationId) (s : State) : Prices 0 n s s where
  station := .refl _
  released := rfl
  gross _ a b ha hb := by rw [ha] at hb; cases hb; omega
  tables := id
  accounts _ _ := .refl _

theorem Prices.trans {j k : Nat} {n : StationId} {s t u : State} (h : Prices j n s t) (l : Prices k n t u) :
    Prices (j + k) n s u where
  station := h.station.trans l.station
  released := l.released.trans h.released
  gross hs a c ha hc := by
    have hrel := h.station.session
    rw [ha] at hrel
    generalize hb : (t.st n).session = tb at hrel
    cases hrel with
    | @some _ b _ =>
      have h1 := h.gross hs a b ha hb
      have h2 := l.gross (by rw [h.station.tariff]; exact hs) b c hb hc
      rw [h.station.ceiling] at h2
      rw [Nat.add_mul]
      omega
  tables := l.tables ∘ h.tables
  accounts hw i := (h.accounts hw i).trans (l.accounts (h.tables hw) i)

/-- A side priced within the ceiling joins the session (R42, R62, R63). -/
theorem listPrice_le_ceiling {tf : Tariff} (h : tf.Sound) (c : ClassId) (kind : SideKind) (count : Nat) :
    listPrice tf c kind count ≤ tf.ceiling := by
  have hp := h.prices c count
  have hd := h.duplex
  unfold listPrice
  cases kind with
  | simplex => exact hp
  | first => exact hp
  | second =>
    refine le_trans ?_ hp
    have : tierPrice tf.pricing[c] count * tf.header.duplex ≤ tierPrice tf.pricing[c] count * 100 :=
      Nat.mul_le_mul_left _ hd
    dsimp only
    omega

/-- A change of the session that adds mills within the ceiling is the pricing of one side. -/
theorem prices_addSide {n : StationId} {s t : State} {ses : Session} {tf : Tariff} {c : ClassId} {kind : SideKind}
    {count : Nat} (h : Prices 0 n s t) (ht : (s.st n).tariff.active = some tf) :
    Prices 1 n s (modSession n (Session.addSide c (sideMills tf c kind count ses.gross)) t) := by
  refine (h.trans (k := 1) ?_)
  refine ⟨?_, ?_, ?_, id, fun _ _ => .refl _⟩
  · rw [modSession, st_modSt_self]
    refine { Station.Meters.refl (t.st n) with session := ?_ }
    show Option.Rel _ (t.st n).session ((t.st n).session.map _)
    cases (t.st n).session with
    | none => exact .none
    | some a => exact .some ⟨rfl, rfl⟩
  · rw [modSession, st_modSt_self]
    rfl
  · intro hsound a b ha hb
    rw [h.station.tariff] at hsound
    rw [modSession, st_modSt_self] at hb
    simp only [ha, Option.map_some, Option.some.injEq] at hb
    subst hb
    have hle : sideMills tf c kind count ses.gross ≤ tf.ceiling :=
      (Nat.min_le_left _ _).trans (listPrice_le_ceiling (hsound tf ht) c kind count)
    have hc : (t.st n).ceiling = tf.ceiling := by rw [h.station.ceiling, Station.ceiling, ht]
    simp only [Session.addSide, hc]
    omega

/-- A change of a station's kept advances prices nothing. -/
theorem prices_modAdvances (n : StationId) (s : State) (f : List (ClassId × Nat) → List (ClassId × Nat)) :
    Prices 0 n s (s.modSt n (fun x => { x with advances := f x.advances })) where
  station := by rw [st_modSt_self]; exact { Station.Meters.refl (s.st n) with }
  released := by rw [st_modSt_self]; rfl
  gross _ a b ha hb := by rw [st_modSt_self] at hb; rw [ha] at hb; cases hb; omega
  tables := id
  accounts _ _ := .refl _

theorem prices_takeAdvance (i : AccountId) (c : ClassId) (n : StationId) (s : State) :
    Prices 0 n s (takeAdvance i c n s).2 := by
  unfold takeAdvance
  split
  · next e _ => exact prices_modAdvances n s (fun l => l.erase e)
  · have he := eases_requestSideAdvance i c s
    exact { Prices.refl n s with tables := he.tables, accounts := he.accounts }

theorem prices_mono {j k : Nat} {n : StationId} {s t : State} (h : Prices j n s t) (hle : j ≤ k) : Prices k n s t :=
  ⟨h.station, h.released, fun hs a b ha hb => (h.gross hs a b ha hb).trans
    (Nat.add_le_add_left (Nat.mul_le_mul_right _ hle) _), h.tables, h.accounts⟩

/-- One side's pricing (R42). -/
theorem prices_priceSide (c : ClassId) (kind : SideKind) (n : StationId) (s : State) :
    Prices 1 n s (priceSide c kind n s).2 := by
  have hzero := prices_mono (Prices.refl n s) (Nat.zero_le 1)
  unfold priceSide
  split
  · next ses tf _ ht =>
    dsimp only
    split
    · next i _ => exact prices_addSide (prices_takeAdvance i c n s) ht
    · exact prices_addSide (.refl n s) ht
    · exact prices_addSide (.refl n s) ht
  · exact hzero
  · exact hzero

/-- The pricing of a sheet's charged sides (R42, R61). -/
theorem prices_priceSides (c : ClassId) (sides charged : Nat) (n : StationId) (s : State) :
    Prices charged n s (priceSides c sides charged n s).2 := by
  match charged with
  | 0 => exact .refl n s
  | 1 => exact prices_priceSide _ _ _ _
  | k + 2 => exact prices_mono ((prices_priceSide _ _ _ _).trans (prices_priceSide _ _ _ _)) (Nat.le_add_left _ _)

/-- What metering counts for a sheet leaves its pricing and its path. -/
theorem meters_countSheet (cls charged overrun : Nat) (n : StationId) (s : State) :
    (s.st n).Meters ((countSheet cls charged overrun n s).st n) := by
  rw [countSheet, st_modSt_self]
  refine { Station.Meters.refl (s.st n) with job := by simp, session := ?_ }
  show Option.Rel _ (s.st n).session ((s.st n).session.map _)
  cases (s.st n).session with
  | none => exact .none
  | some a => exact .some ⟨rfl, rfl⟩

theorem prices_reportSides (cls : Nat) (cat : SideCategory) (sides : Nat) (n : StationId) (s : State) :
    Prices 0 n s (reportSides cls cat sides n s) where
  station := by rw [reportSides, st_modSt_self]; exact { Station.Meters.refl (s.st n) with }
  released := by rw [reportSides, st_modSt_self]; rfl
  gross _ a b ha hb := by rw [reportSides, st_modSt_self] at hb; rw [ha] at hb; cases hb; omega
  tables := id
  accounts _ _ := .refl _

/-- A sheet's charged sides are among its released ones (R41). -/
theorem chargeable_le_released (x : Station) (cls sides : Nat) : x.chargeable cls sides ≤ x.released := by
  unfold Station.chargeable
  split
  · exact Nat.zero_le _
  · exact Nat.min_le_right _ _

/-- The metering of a sheet after its count: the charged sides are priced and reported (R42, R45). -/
theorem prices_meterSheet (sheet cls sides : Nat) (n : StationId) (s : State) :
    Prices ((s.st n).chargeable cls sides) n
      (countSheet cls ((s.st n).chargeable cls sides) (sides - (s.st n).chargeable cls sides) n s)
      (meterSheet sheet cls sides n s).2 := by
  unfold meterSheet
  dsimp only
  generalize hc : (s.st n).chargeable cls sides = charged
  have hreport : ∀ (t : State) (cat : SideCategory),
      Prices 0 n t (reportSides cls .overrun (sides - charged) n (reportSides cls cat charged n (dropAdvances n t))) :=
    fun t cat => ((prices_modAdvances n t (fun _ => [])).trans (prices_reportSides _ _ _ n _)).trans
      (prices_reportSides _ _ _ n _)
  split
  · exact prices_mono (hreport _ _) (Nat.zero_le _)
  · exact (prices_priceSides _ _ _ n _).trans (hreport _ _)

theorem meters_meterSheet (sheet cls sides : Nat) (n : StationId) (s : State) :
    (s.st n).Meters ((meterSheet sheet cls sides n s).2.st n) :=
  (meters_countSheet _ _ _ n s).trans (prices_meterSheet sheet cls sides n s).station

/-! ## The agreement of the stations -/

/-- Every station agrees with its state. -/
def State.Agree (s : State) : Prop := ∀ n, (s.st n).Agrees

theorem Station.Eases.agrees {x y : Station} (h : x.Eases y) (hx : x.Agrees) : y.Agrees where
  session := by rw [sessions_isSome h.session, h.state]; exact hx.session
  path := h.path.trans hx.path
  passage hp := by
    rw [h.state]
    rcases h.passage hp with hp | ⟨-, hi⟩
    · exact hx.passage hp
    · exact hi
  prior p hp := (h.prior p hp).elim (hx.prior p) id

theorem Station.Meters.agrees {x y : Station} (h : x.Meters y) (hx : x.Agrees) : y.Agrees where
  session := by
    rw [h.state, funded_isSome h.session]
    exact hx.session
  path := by rw [h.path]; exact hx.path
  passage hp := by rw [h.state]; exact hx.passage (by rwa [h.passage] at hp)
  prior p hp := hx.prior p (by rwa [h.prior] at hp)

/-- An operation at one station keeps the agreement when it keeps that station's. -/
theorem agree_at {n : StationId} {s t : State} (h : InternalAt n s t) (hn : (t.st n).Agrees) (hs : s.Agree) :
    t.Agree := by
  intro m
  by_cases hm : m = n
  · subst hm; exact hn
  · rw [h.others m hm]; exact hs m

/-- A station that settles agrees with its state. -/
theorem Station.Agrees.settles {x : Station} (h : x.Agrees) (hp : x.passage = none) (ses : Session) :
    (x.settles ses).Agrees where
  session := by rw [settles_session, settles_state, settledState_hasSession]; rfl
  path := by rw [settles_inPath]; exact h.path
  passage hq := by rw [settles_passage, hp] at hq; cases hq
  prior p hq := by rw [settles_prior] at hq; cases hq

/-- A station that enters a state agrees with it. -/
theorem Station.Agrees.entered {x : Station} {new : StationState} (h : x.Agrees)
    (hs : x.session.isSome = new.hasSession) (hp : x.passage = none) : (x.entered new).Agrees where
  session := by rw [entered_session, entered_state]; exact hs
  path := by rw [entered_inPath]; exact h.path
  passage hq := by rw [entered_passage, hp] at hq; cases hq
  prior p hq := h.prior p (by rwa [entered_prior] at hq)

/-- A station whose session has just opened agrees with OPEN (R11). -/
theorem Station.Agrees.opened {x : Station} (h : x.Agrees) (hp : x.passage = none) (ses : Session) :
    ((x.withSession ses).entered .opened).Agrees where
  session := by rw [entered_session, entered_state]; rfl
  path := by rw [entered_inPath]; exact h.path
  passage hq := by
    rw [entered_passage] at hq
    rw [show (x.withSession ses).passage = x.passage from rfl, hp] at hq
    cases hq
  prior p hq := h.prior p (by rw [entered_prior] at hq; exact hq)

/-- The stations' agreement is kept by the units. -/
theorem agree_units : Units State.Agree where
  agrees := id
  eases h hs n := (h.stations n).agrees (hs n)
  enters he hp hs := agree_at (internal_enter _ _ _ _) (by rw [st_enter]; exact (hs _).entered he hp) hs
  commits _ hs := agree_at (internal_commitTariff _ _ _)
    (by rw [st_commitTariff]; exact { hs _ with }) hs
  resumes {n s} hst hs := by
    refine agree_at (internal_resume n s) ?_ hs
    have hn := hs n
    unfold resume
    split
    · exact hn
    · next p hp =>
      have hsome : (s.st n).session.isSome = true := hn.session_some (by rw [hst]; rfl)
      have hpass : (s.st n).passage = none := hn.passage_none (by rw [hst]; simp)
      rw [st_statePanel, st_modSt_self]
      refine { hn with session := ?_, passage := ?_, prior := fun _ h => nomatch h }
      · show (s.st n).session.isSome = p.hasSession
        rw [hsome]
        rcases hn.prior p hp with rfl | rfl | rfl | rfl <;> rfl
      · intro hq
        have hq' : (s.st n).passage.isSome = true := hq
        rw [hpass] at hq'
        cases hq'
  opens _ hp _ _ hs := agree_at (internal_openSession _ _ _ _ _ _)
    (by rw [st_openSession]; exact (hs _).opened hp _) hs
  opensOnHold {_ _ _ _ n s} _ hs := by
    refine agree_at (internal_openAccountSession _ _ _ _ n s) ?_ hs
    rw [openAccountSession, st_openSession]
    have hn : ((endPassage n s).st n).Agrees := by
      rw [endPassage, st_modSt_self]
      exact { hs n with passage := fun hq => nomatch hq }
    exact hn.opened (by rw [endPassage, st_modSt_self]) _
  admits {_ n _ _ _ s _} _ _ hr hs m := by
    rw [(requestAdmission_admitted hr).2.2.2.2.2]
    by_cases hm : m = n
    · subst hm
      rw [placeHold, modPassage, st_modSt_self]
      exact { hs m with passage := fun hq => (hs m).passage (by simpa using hq) }
    · rw [placeHold, modPassage, st_modSt_ne _ _ hm]
      exact hs m
  raisesHold {_ n _ s} _ _ hs m := by
    by_cases hm : m = n
    · subst hm
      rw [extendHold, modSession, st_modSt_self]
      exact { hs m with session := by simpa using (hs m).session }
    · rw [extendHold, modSession, st_modSt_ne _ _ hm]
      exact hs m
  grants {n _ _ _ s} _ hs := agree_at (internal_modJob n _ s)
    (by rw [modJob, st_modSt_self]; exact { hs n with }) hs
  meters {sheet cls sides n s} hs := agree_at (internal_meterSheet sheet cls sides n s)
    ((meters_meterSheet sheet cls sides n s).agrees (hs n)) hs
  appends {e n s} hlen hs := agree_at (internal_modSt s n (fun x => { x with inPath := x.inPath ++ [e] }) rfl)
    (by rw [st_modSt_self]; exact { hs n with path := by simp; omega }) hs
  approves {card dc _ _ n s} _ hs := by
    refine agree_at ((internal_endRequest (.active card dc) n s).trans (internal_modSession n _ _)) ?_ hs
    rw [topupApproved, modSession, st_modSt_self]
    have hn : ((endRequest (.active card dc) n s).st n).Agrees :=
      ((eases_endRequest (by simp)).stations n).agrees (hs n)
    exact { hn with session := by simpa using hn.session }
  settles {n s} hs := by
    cases hses : (s.st n).session with
    | none => rw [settle_none hses]; exact hs
    | some ses =>
      refine agree_at (internal_settle n s) ?_ hs
      rw [st_settle hses]
      have hn := hs n
      refine hn.settles (hn.passage_none (StationState.ne_idle ?_)) ses
      rw [← hn.session, hses]
      rfl
  posts {i n charge s} _ hs m := by
    rw [st_congr (requestPosting_stations i n charge s)]
    exact hs m
  writes {i r s} hs m := by
    have : ((writeRecord i r s).2.st m) = s.st m := by
      unfold writeRecord
      split
      · rfl
      · split
        · rfl
        · split <;> rfl
    rw [this]
    exact hs m
  adjusts {amount i s} _ hs m := by
    have : ((adjustBalance amount i s).st m) = s.st m := by
      unfold adjustBalance
      dsimp only
      split <;> rfl
    rw [this]
    exact hs m

/-! ## A warm reset -/

/-- Turns of several stations, each of which changes its own station alone, keep what each turn keeps of its own, and
establish what each turn establishes. -/
theorem atEach_establishes {f : StationId → State → State} {I Q : Station → Prop}
    (hf : ∀ n s, InternalAt n s (f n s)) (hq : ∀ n s, I (s.st n) → I ((f n s).st n) ∧ Q ((f n s).st n)) :
    ∀ (l : List StationId) (s : State), (∀ n, I (s.st n)) →
      (∀ n, I ((atEach l f s).st n)) ∧ ∀ n, n ∈ l ∨ Q (s.st n) → Q ((atEach l f s).st n)
  | [], s, hs => ⟨hs, fun n h => h.elim (fun h => nomatch h) id⟩
  | a :: l, s, hs => by
    have hI : ∀ n, I ((f a s).st n) := fun n => by
      by_cases hn : n = a
      · subst hn; exact (hq n s (hs n)).1
      · rw [(hf a s).others n hn]; exact hs n
    obtain ⟨h1, h2⟩ := atEach_establishes hf hq l (f a s) hI
    refine ⟨h1, fun n hn => h2 n ?_⟩
    by_cases ha : n = a
    · subst ha; exact .inr (hq n s (hs n)).2
    · rcases hn with hn | hn
      · exact .inl ((List.mem_cons.mp hn).resolve_left ha)
      · rw [(hf a s).others n ha]; exact .inr hn

/-- So do the turns of all stations in a free order. -/
theorem inFreeOrder_establishes {f : StationId → State → State} {I Q : Station → Prop}
    (hf : ∀ n s, InternalAt n s (f n s)) (hq : ∀ n s, I (s.st n) → I ((f n s).st n) ∧ Q ((f n s).st n)) {s : State}
    (hs : ∀ n, I (s.st n)) : (∀ n, I ((inFreeOrder f s).st n)) ∧ ∀ n, Q ((inFreeOrder f s).st n) := by
  obtain ⟨h1, h2⟩ := atEach_establishes hf hq (takeOrder s).1 (takeOrder s).2 hs
  exact ⟨h1, fun n => h2 n (.inl (mem_stationOrder _ n))⟩

/-- The abandoning or opening of an admission leaves the path. -/
theorem resetPassage_inPath (n : StationId) (s : State) : ((resetPassage n s).st n).inPath = (s.st n).inPath := by
  unfold resetPassage
  split
  · rfl
  · next p hp =>
    split
    · next hh =>
      obtain ⟨⟨i, limit, dc⟩, hv⟩ := Option.isSome_iff_exists.mp hh
      rw [finishPassage, hp]
      dsimp only
      rw [hv]
      simp [openAccountSession, Station.withSession, endPassage]
    · rw [st_congr (returnReservation_stations _), endPassage, st_modSt_self]

/-- No station has a session after its turn in a warm reset, and its path has not grown (R35). -/
theorem resetSession_ends (n : StationId) (s : State) :
    ((resetSession n s).st n).session = none ∧ ((resetSession n s).st n).inPath.length ≤ (s.st n).inPath.length := by
  unfold resetSession
  split
  · next h => exact ⟨by simpa using h, le_rfl⟩
  · next h =>
    dsimp only
    generalize hu : (if (s.st n).state = .closing then credit n s else closeAtOnce .reset n s) = u
    have he : Eases s u := hu ▸ .ite (eases_credit n s) (eases_closeAtOnce _ n s)
    have hsome : (u.st n).session.isSome = true := by
      rw [sessions_isSome (he.stations n).session]
      simpa [Option.isSome_iff_ne_none] using h
    obtain ⟨ses, hses⟩ := Option.isSome_iff_exists.mp hsome
    have hr := st_settleRecord hses
    have hpath := (he.stations n).path
    split
    · rw [st_enter, entered_session, entered_inPath, hr]
      exact ⟨rfl, hpath⟩
    · rw [hr]
      exact ⟨rfl, hpath⟩

/-- No session is left after the turns of a warm reset, and no path holds more than 8 sheets. -/
theorem resetTurns_ends {s : State} (hs : ∀ n, (s.st n).inPath.length ≤ 8) (n : StationId) :
    ((resetTurns s).st n).session = none ∧ ((resetTurns s).st n).inPath.length ≤ 8 := by
  have h0 : ∀ m, ((abortCheck s).st m).inPath.length ≤ 8 := fun m => by rw [abortCheck_st]; exact hs m
  have h1 := (inFreeOrder_establishes (I := fun x => x.inPath.length ≤ 8) (Q := fun _ => True)
    internal_resetPassage (fun m u h => ⟨by rw [resetPassage_inPath]; exact h, trivial⟩) h0).1
  have h2 := (inFreeOrder_establishes (I := fun x => x.inPath.length ≤ 8) (Q := fun _ => True)
    (internal_voidFirst .reset) (fun m u h => ⟨((eases_voidFirst .reset m u).stations m).path.trans h, trivial⟩) h1).1
  have h3 := inFreeOrder_establishes (I := fun x => x.inPath.length ≤ 8) (Q := fun x => x.session = none)
    internal_resetSession (fun m u h => ⟨(resetSession_ends m u).2.trans h, (resetSession_ends m u).1⟩) h2
  exact ⟨h3.2 n, h3.1 n⟩

/-- What a warm reset's first step leaves of a station's session, path and card in passage. -/
structure Station.Cleared (x : Station) : Prop where
  session : x.session = none
  passage : x.passage = none
  prior : x.prior = none
  path : x.inPath.length ≤ 8

/-- A station that has been placed agrees with its state (R35). -/
theorem placeStation_agrees {n : StationId} {s : State} (h : (s.st n).Cleared) :
    ((placeStation n s).st n).Cleared ∧ ((placeStation n s).st n).Agrees := by
  obtain ⟨hs, hp, hr, hl⟩ := h
  unfold placeStation
  split
  · next hd =>
    refine ⟨⟨hs, hp, hr, hl⟩, ⟨?_, hl, fun hq => ?_, fun p hq => ?_⟩⟩
    · rw [hs]; rcases hd with hd | hd <;> rw [hd] <;> rfl
    · rw [hp] at hq; cases hq
    · rw [hr] at hq; cases hq
  · split
    · rw [st_enterIdle]
      refine ⟨⟨by simpa using hs, by simpa using hp, by simpa using hr, by simpa using hl⟩,
        ⟨?_, by simpa using hl, fun hq => ?_, fun p hq => ?_⟩⟩
      · rw [idled_session, idled_state, idleEntry_hasSession, hs]; rfl
      · rw [idled_passage, hp] at hq; cases hq
      · rw [idled_prior, hr] at hq; cases hq
    · rw [st_enter]
      refine ⟨⟨by simpa using hs, by simpa using hp, by simpa using hr, by simpa using hl⟩,
        ⟨?_, by simpa using hl, fun hq => ?_, fun p hq => ?_⟩⟩
      · rw [entered_session, entered_state, hs]; rfl
      · rw [entered_passage, hp] at hq; cases hq
      · rw [entered_prior, hr] at hq; cases hq

/-- The re-arming or raising of LOG_LOW leaves the stations. -/
theorem rearmLogLow_stations (s : State) : (rearmLogLow s).stations = s.stations := by
  unfold rearmLogLow
  split <;> rfl

theorem rearmLogLow_accounts (s : State) : (rearmLogLow s).accounts = s.accounts := by
  unfold rearmLogLow
  split <;> rfl

/-- The stations as the placing of a warm reset finds them (R35). -/
theorem rearmed_st (s : State) (n : StationId) :
    ((rearmLogLow (clearHost (resetBlocks s))).st n) = ((resetTurns s).st n).warm := by
  rw [st_congr (rearmLogLow_stations _), clearHost_st, resetBlocks_eq, clearBlocks_st]

/-- Every station is clear, and agrees with its state, after a warm reset. -/
theorem warmState_agrees {s : State} (hs : ∀ n, (s.st n).inPath.length ≤ 8) (n : StationId) :
    ((warmState s).st n).Cleared ∧ ((warmState s).st n).Agrees := by
  have h := atEach_establishes (I := Station.Cleared) (Q := Station.Agrees) internal_placeStation
    (fun _ _ h => placeStation_agrees h) (List.finRange 16) (rearmLogLow (clearHost (resetBlocks s)))
    (fun m => by
      rw [rearmed_st]
      obtain ⟨h1, h2⟩ := resetTurns_ends hs m
      exact ⟨h1, rfl, rfl, h2⟩)
  exact ⟨h.1 n, h.2 n (.inl (List.mem_finRange n))⟩

/-- The stations of a cold reset agree with their states. -/
theorem coldStation_agrees (line : List Byte) : ({ line := line } : Station).Agrees where
  session := rfl
  path := Nat.zero_le 8
  passage h := nomatch h
  prior _ h := nomatch h

theorem coldState_st (rate : Nat) (lost : Bool) (s : State) (n : StationId) :
    (coldState rate lost s).st n = { line := (s.st n).line } := by
  simp [coldState, State.st]

/-- The stations' agreement is kept by every row. -/
theorem agree_kept : Kept State.Agree where
  toUnits := agree_units
  cold _ n := by rw [coldState_st]; exact coldStation_agrees _
  tables hs n := hs n
  warm hs n := (warmState_agrees (fun m => (hs m).path) n).2
  takes {_ tf timing n s} _ hs := agree_at (internal_takeTariff tf timing n s)
    (by rw [takeTariff, st_modSt_self]; exact { hs n with }) hs

/-- Settles O58: the agreement is kept by what eases a station, by each unit and by the resets. -/
theorem everyCommandKeepsTheStationsInAgreement : Obligations.EveryCommandKeepsTheStationsInAgreement :=
  ⟨fun _ _ _ hs h => agree_kept.exec hs h, fun _ _ hs h => agree_kept.step hs h⟩

end Sys2Proof.Machine
end

section
/-! PROOF. The part stays solvent (O36): every funded entry is backed by a session or an admission in passage, every session's
exposure by its limit, every account's holds by its funds (R49, R72, R107, R108, R112 to R114, R138). -/

namespace Sys2Proof.Machine

/-! ## The invariant, in its parts -/

/-- The station stands behind a funded entry of the account with the hold: by its session, or by an admission in passage. -/
def Station.Owns (x : Station) (i : AccountId) (hold : Nat) : Prop :=
  x.session.map (fun ses => (ses.funding, ses.limit)) = some (.account i, some hold) ∨
    (x.passage.bind Passage.hold).map (fun h => (h.1, h.2.1)) = some (i, hold)

/-- What solvency asks of one station: its session has a limit unless it is FREE, the exposure is within it, and what this
rests on. -/
structure Station.Sound (x : Station) : Prop where
  limits : ∀ ses, x.session = some ses → (ses.funding = .free ↔ ses.limit = none)
  exposure : ∀ ses l, x.session = some ses → ses.limit = some l → x.exposure ≤ 10 * l
  jobs : x.job.isSome = true → x.session.isSome = true
  topups : ∀ card dc req, x.slot = .topup card dc req → x.session.map (fun ses => ses.funding.kind) = some .bank
  tariffs : ∀ tf, x.tariff.active = some tf ∨ x.tariff.next = some tf → tf.Sound
  apart : x.passage.isSome = true → x.session = none

/-- What solvency asks of the stations and the accounts together. -/
structure State.Backed (s : State) : Prop where
  tables : AccountTable.wf s.accounts
  stations : ∀ n, (s.st n).Sound
  owned : ∀ i, ∀ e ∈ (s.account i).funded, (s.st e.station).Owns i e.hold
  once : ∀ i, ((s.account i).funded.map Funded.station).Nodup
  funds : ∀ i, 0 ≤ (s.account i).available

/-- The exposure of a station with a session (R49). -/
theorem exposure_eq {x : Station} {ses : Session} (h : x.session = some ses) :
    x.exposure = ses.gross + x.released * x.ceiling := by
  unfold Station.exposure
  rw [h]

/-- Solvency is the agreement of the stations and the backing of the accounts. -/
theorem solvent_iff (s : State) : s.Solvent ↔ s.Agree ∧ s.Backed := by
  constructor
  · intro h
    refine ⟨h.agrees, ⟨h.tables, fun n => ⟨h.limits n, ?_, h.jobs n, h.topups n, h.tariffs n, ?_⟩, h.owned, h.once,
      h.funds⟩⟩
    · intro ses l hs hl
      rw [exposure_eq hs]
      exact h.exposure n ses l hs hl
    · exact (h.agrees n).session_none_of_passage
  · rintro ⟨ha, hb⟩
    refine ⟨hb.tables, ha, hb.owned, hb.once, hb.funds, fun n => (hb.stations n).limits, ?_,
      fun n => (hb.stations n).jobs, fun n => (hb.stations n).topups, fun n => (hb.stations n).tariffs⟩
    intro n ses l hs hl
    rw [← exposure_eq hs]
    exact (hb.stations n).exposure ses l hs hl

/-! ## A station's entries -/

/-- A station backs one entry alone. -/
theorem Station.Owns.unique {x : Station} (hx : x.Sound) {i j : AccountId} {a b : Nat} (h : x.Owns i a)
    (k : x.Owns j b) : i = j ∧ a = b := by
  have hsep : x.session.isSome = true → x.passage.bind Passage.hold = none := fun hs => by
    cases hp : x.passage with
    | none => rfl
    | some p => rw [hx.apart (by rw [hp]; rfl)] at hs; cases hs
  have hsome : ∀ {i a}, x.session.map (fun ses => (ses.funding, ses.limit)) = some (.account i, some a) →
      x.session.isSome = true := fun h => by
    cases hs : x.session with
    | none => rw [hs] at h; cases h
    | some ses => rfl
  rcases h with h | h
  · rcases k with k | k
    · rw [h] at k
      simp only [Option.some.injEq, Prod.mk.injEq, Funding.account.injEq] at k
      exact k
    · rw [hsep (hsome h)] at k
      cases k
  · rcases k with k | k
    · rw [hsep (hsome k)] at h
      cases h
    · rw [h] at k
      simpa using k

/-- A station without a session and without a hold in passage backs nothing. -/
theorem not_owns {x : Station} (hs : x.session = none) (hp : x.passage.bind Passage.hold = none) (i : AccountId)
    (a : Nat) : ¬ x.Owns i a := by
  rintro (h | h)
  · rw [hs] at h; cases h
  · rw [hp] at h; cases h

/-! ## Changes that ease -/

theorem Session.Eases.free {x y : Session} (h : x.Eases y) : y.funding = .free ↔ x.funding = .free := by
  have hk : ∀ f : Funding, f = .free ↔ f.kind = .free := fun f => by cases f <;> simp [Funding.kind]
  rw [hk, hk, h.kind]

theorem Station.Eases.owns {x y : Station} (h : x.Eases y) {i : AccountId} {a : Nat} (ho : x.Owns i a) : y.Owns i a := by
  unfold Station.Owns at *
  rw [h.hold]
  refine ho.imp_left fun hs => ?_
  have hses := h.session
  generalize x.session = xs, y.session = ys at hs hses
  cases hses with
  | none => exact hs
  | @some ses ses' he =>
    simp only [Option.map_some, Option.some.injEq, Prod.mk.injEq] at hs ⊢
    obtain ⟨hf, hl⟩ := he.drawn (by rw [hs.1]; rfl)
    rw [hf, hl]
    exact hs

theorem Station.Eases.ceiling {x y : Station} (h : x.Eases y) : y.ceiling = x.ceiling := by
  unfold Station.ceiling
  rw [h.active]

theorem Station.Eases.sound {x y : Station} (h : x.Eases y) (hx : x.Sound) : y.Sound := by
  have hback : ∀ ses', y.session = some ses' → ∃ ses, x.session = some ses ∧ ses.Eases ses' := fun ses' hs => by
    have hses := h.session
    rw [hs] at hses
    generalize x.session = xs at hses
    cases hses with
    | some he => exact ⟨_, rfl, he⟩
  refine ⟨fun ses' hs => ?_, fun ses' l' hs hl => ?_, fun hj => ?_, fun card dc req hslot => ?_, fun tf ht => ?_,
    fun hp => ?_⟩
  · obtain ⟨ses, hses, he⟩ := hback ses' hs
    rw [he.free, he.limited]
    exact hx.limits ses hses
  · obtain ⟨ses, hses, he⟩ := hback ses' hs
    cases hl0 : ses.limit with
    | none => rw [he.limited.mpr hl0] at hl; cases hl
    | some l =>
      have h1 := hx.exposure ses l hses hl0
      have h2 := he.limit l hl0
      rw [hl] at h2
      rw [exposure_eq hses] at h1
      rw [exposure_eq hs, h.ceiling]
      have h3 := Nat.mul_le_mul_right x.ceiling h.released
      have h4 := he.gross
      have h5 : l ≤ l' := h2
      omega
  · rw [sessions_isSome h.session]
    exact (h.job hj).elim hx.jobs id
  · rw [sessions_kind h.session]
    exact (h.topup card dc req hslot).elim (fun ⟨card', dc', req', hs⟩ => hx.topups card' dc' req' hs) id
  · rw [h.active, h.next] at ht
    exact hx.tariffs tf ht
  · have hn : x.session = none := (h.passage hp).elim hx.apart And.left
    have hs := sessions_isSome h.session
    rw [hn] at hs
    simpa using hs

theorem Eases.backed {s t : State} (h : Eases s t) (hs : s.Backed) : t.Backed where
  tables := h.tables hs.tables
  stations n := (h.stations n).sound (hs.stations n)
  owned i e he := by
    rw [(h.accounts hs.tables i).funded] at he
    exact (h.stations e.station).owns (hs.owned i e he)
  once i := by rw [(h.accounts hs.tables i).funded]; exact hs.once i
  funds i := by rw [(h.accounts hs.tables i).available]; exact hs.funds i

/-- An operation that changes one station and no account keeps the backing when that station stays sound and backs what it
backed. -/
theorem backed_at {n : StationId} {s t : State} (h : ∀ m, m ≠ n → t.st m = s.st m) (ha : t.accounts = s.accounts)
    (hn : (t.st n).Sound) (ho : ∀ i a, (s.st n).Owns i a → (t.st n).Owns i a) (hs : s.Backed) : t.Backed := by
  have hacc : ∀ i, t.account i = s.account i := fun i => by rw [State.account, State.account, ha]
  refine ⟨by rw [ha]; exact hs.tables, fun m => ?_, fun i e he => ?_, fun i => by rw [hacc]; exact hs.once i,
    fun i => by rw [hacc]; exact hs.funds i⟩
  · by_cases hm : m = n
    · subst hm; exact hn
    · rw [h m hm]; exact hs.stations m
  · rw [hacc] at he
    have hown := hs.owned i e he
    by_cases hm : e.station = n
    · rw [hm] at hown ⊢; exact ho i _ hown
    · rw [h _ hm]; exact hown

/-! ## Tariffs -/

/-- The tariffs of a station after a commit are among those it held (R84). -/
theorem committed_tariffs {x : Station} {tf : Tariff} (h : x.committed.active = some tf ∨ x.committed.next = some tf) :
    x.tariff.active = some tf ∨ x.tariff.next = some tf := by
  unfold Station.committed at h
  split at h
  · exact h
  · next tf' hn =>
    rcases h with h | h
    · exact .inr (hn.trans h)
    · cases h

theorem entered_tariffs {new : StationState} {x : Station} {tf : Tariff}
    (h : (x.entered new).tariff.active = some tf ∨ (x.entered new).tariff.next = some tf) :
    x.tariff.active = some tf ∨ x.tariff.next = some tf := by
  unfold Station.entered at h
  split at h
  · exact h
  · dsimp only at h
    split at h
    · exact committed_tariffs (x := Station.entering new x) h
    · exact h

/-- A tariff that is not changed leaves the exposure. -/
theorem entered_exposure {new : StationState} {x : Station} (h : new.commits = false) :
    (x.entered new).exposure = x.exposure := by
  unfold Station.exposure Station.released Station.ceiling
  rw [entered_session, entered_job, entered_tariff h]

/-- No state that asks for a commit has a session (R6). -/
theorem commits_hasSession {new : StationState} (h : new.hasSession = true) : new.commits = false := by
  cases new with
  | idle | down | disabled | service => cases h
  | _ => rfl

/-- A sound station that enters a state is sound; a commit comes only where there is no session (R84). -/
theorem Station.Sound.entered {x : Station} {new : StationState} (h : x.Sound)
    (hn : x.session = none ∨ new.commits = false) : (x.entered new).Sound := by
  refine ⟨fun ses hs => h.limits ses (by rwa [entered_session] at hs), fun ses l hs hl => ?_, ?_, ?_,
    fun tf ht => h.tariffs tf (entered_tariffs ht), ?_⟩
  · rw [entered_session] at hs
    have hc := hn.resolve_left (by rw [hs]; simp)
    rw [entered_exposure hc]
    exact h.exposure ses l hs hl
  · rw [entered_job, entered_session]; exact h.jobs
  · rw [entered_slot, entered_session]; exact h.topups
  · rw [entered_passage, entered_session]; exact h.apart

theorem entered_owns {new : StationState} {x : Station} {i : AccountId} {a : Nat} :
    (x.entered new).Owns i a ↔ x.Owns i a := by
  unfold Station.Owns
  rw [entered_session, entered_passage]

/-- A price tier is one of those that a pricing section uses (R58). -/
theorem tierIndex_lt {p : Pricing} (h : 1 ≤ p.tiers) (count : Nat) : tierIndex p count < p.tiers := by
  have h1 := List.length_filter_le (fun b => decide (b < count + 1)) (p.breaks.toList.take (p.tiers - 1))
  have h2 := List.length_take_le (p.tiers - 1) p.breaks.toList
  unfold tierIndex
  omega

/-- The first of a non-increasing list is its largest (R80). -/
theorem nonIncreasing_le : ∀ {l : List Nat} {a : Nat}, nonIncreasing (a :: l) = true → ∀ b ∈ a :: l, b ≤ a
  | [], a, _, b, hb => by
    rw [List.mem_singleton] at hb
    exact hb.le
  | c :: l, a, h, b, hb => by
    simp only [nonIncreasing, Bool.and_eq_true, decide_eq_true_eq] at h
    rcases List.mem_cons.mp hb with rfl | hb
    · exact le_rfl
    · exact (nonIncreasing_le h.2 b hb).trans h.1

end Sys2Proof.Machine
end

section
/-! PROOF. The tariff checker lets sound tariffs pass alone (R80), and each unit keeps the backing of the accounts. -/

namespace Sys2Proof.Machine

/-! ## The checker -/

/-- Where the prices in use do not increase, none is above the first (R80). -/
theorem tierPrice_le_first {p : Pricing} (h : pricesOk p = true) (count : Nat) : tierPrice p count ≤ p.prices[0] := by
  have hlen : p.prices.toList = p.prices[0] :: p.prices.toList.tail := by
    obtain ⟨⟨l⟩, hl⟩ := p.prices
    match l, hl with
    | a :: l, _ => rfl
  have hle : tierIndex p count ≤ p.tiers - 1 :=
    (List.length_filter_le _ _).trans (List.length_take_le _ _)
  unfold tierPrice
  rw [List.getD_eq_getElem?_getD]
  cases hk : p.prices.toList[tierIndex p count]? with
  | none => exact Nat.zero_le _
  | some b =>
    rcases Nat.eq_zero_or_pos p.tiers with h0 | hpos
    · rw [show tierIndex p count = 0 by omega, hlen] at hk
      simp only [List.getElem?_cons_zero, Option.some.injEq] at hk
      exact hk.ge
    · have hmem : b ∈ p.prices.toList.take p.tiers := by
        refine List.mem_of_getElem? (i := tierIndex p count) ?_
        rw [List.getElem?_take_of_lt (by omega)]
        exact hk
      obtain ⟨k, hk'⟩ : ∃ k, p.tiers = k + 1 := ⟨p.tiers - 1, by omega⟩
      unfold pricesOk at h
      rw [hlen, hk', List.take_succ_cons] at h hmem
      exact nonIncreasing_le h b hmem

/-- No class's first price is above the ceiling (R80). -/
theorem first_le_ceilingOf (pricing : PerClass Pricing) (c : ClassId) : pricing[c].prices[0] ≤ ceilingOf pricing := by
  unfold ceilingOf
  match c with
  | 0 => exact (Nat.le_max_left _ _).trans (Nat.le_max_left _ _)
  | 1 => exact (Nat.le_max_right _ _).trans (Nat.le_max_left _ _)
  | 2 => exact (Nat.le_max_left _ _).trans (Nat.le_max_right _ _)
  | 3 => exact (Nat.le_max_right _ _).trans (Nat.le_max_right _ _)

theorem firstClassFailing_none {test : Pricing → Bool} {pricing : PerClass Pricing}
    (h : firstClassFailing test pricing = none) (c : ClassId) : test pricing[c] = true := by
  have := List.find?_eq_none.mp h c (List.mem_finRange c)
  simpa using this

/-- A tariff that the checker lets pass is sound (R80). -/
theorem judgeStaged_sound {ts : TariffStore} {tf : Tariff} (h : judgeStaged ts = .ok tf) : tf.Sound := by
  unfold judgeStaged at h
  split at h
  · cases h
  · next hd pricing _ =>
    split at h
    · cases h
    · split at h
      · cases h
      · next hduplex =>
        split at h
        · cases h
        · split at h
          · cases h
          · split at h
            · cases h
            · split at h
              · cases h
              · next hprices =>
                split at h
                · cases h
                · cases h
                  exact ⟨Nat.not_lt.mp hduplex, fun c count =>
                    (tierPrice_le_first (firstClassFailing_none hprices c) count).trans (first_le_ceilingOf pricing c)⟩

/-! ## Openings -/

/-- The station after an opening is sound when its limit fits its funding (R11). -/
theorem Station.Sound.opened {x : Station} (h : x.Sound) (hs : x.session = none) (hp : x.passage = none) {ses : Session}
    (hl : ses.funding = .free ↔ ses.limit = none) (hg : ses.gross = 0) : ((x.withSession ses).entered .opened).Sound := by
  refine Station.Sound.entered ⟨?_, ?_, fun _ => rfl, fun card dc req hslot => ?_, h.tariffs, fun hq => ?_⟩ (.inr rfl)
  · rintro _ ⟨⟩
    exact hl
  · rintro _ l ⟨⟩ -
    have hj : x.job = none := by
      cases hj : x.job with
      | none => rfl
      | some j => have := h.jobs (by rw [hj]; rfl); rw [hs] at this; cases this
    rw [exposure_eq (x := x.withSession ses) rfl, hg]
    simp [Station.released, Station.withSession, hj]
  · have := h.topups card dc req hslot
    rw [hs] at this
    cases this
  · have hq' : x.passage.isSome = true := hq
    rw [hp] at hq'
    cases hq'

theorem openSession_accounts (funding : Funding) (card : CardId) (limit : Option Nat) (discount : Nat) (n : StationId)
    (s : State) : (openSession funding card limit discount n s).accounts = s.accounts := by
  unfold openSession
  dsimp only
  rw [(atStation_enter _ _ _ _).accounts]
  rfl

/-! ## Holds -/

theorem account_putFunded {s : State} (hs : AccountTable.wf s.accounts) (i k : AccountId) (f : Account → Account) :
    (s.modAccount i f).account k = if k = i then f (s.account k) else s.account k := by
  by_cases h : k = i
  · subst h; rw [account_modAccount_self hs, if_pos rfl]
  · rw [account_modAccount_ne s f h, if_neg h]

/-- The holds of a list without one station's entry (R107, R114). -/
theorem held_filter {n : StationId} : ∀ {l : List Funded} {e : Funded}, (l.map Funded.station).Nodup →
    l.find? (fun e => decide (e.station = n)) = some e →
    ((l.filter (fun x => decide (x.station ≠ n))).map Funded.hold).sum + e.hold = (l.map Funded.hold).sum
  | [], _, _, h => nomatch h
  | a :: l, e, hd, h => by
    rw [List.map_cons, List.nodup_cons] at hd
    by_cases ha : a.station = n
    · have hrest : l.filter (fun x => decide (x.station ≠ n)) = l := by
        refine List.filter_eq_self.mpr fun x hx => ?_
        have : a.station ≠ x.station := fun hax => hd.1 (hax ▸ List.mem_map_of_mem hx)
        simpa [ha] using Ne.symm this
      simp only [List.find?_cons, ha, decide_true, Option.some.injEq] at h
      subst h
      rw [List.filter_cons_of_neg (by simp [ha]), hrest, List.map_cons, List.sum_cons, Nat.add_comm]
    · simp only [List.find?_cons, ha, decide_false] at h
      have := held_filter hd.2 h
      rw [List.filter_cons_of_pos (by simp [ha]), List.map_cons, List.map_cons, List.sum_cons, List.sum_cons]
      omega

/-- The holds of a list after the extension of one station's entry, which it has at most once (R113). -/
theorem held_extended (n : StationId) (amount : Nat) : ∀ {l : List Funded}, (l.map Funded.station).Nodup →
    ((l.map (fun e => if e.station = n then { e with hold := e.hold + amount } else e)).map Funded.hold).sum ≤
      (l.map Funded.hold).sum + amount
  | [], _ => Nat.zero_le _
  | a :: l, hd => by
    rw [List.map_cons, List.nodup_cons] at hd
    by_cases ha : a.station = n
    · have hrest : l.map (fun e => if e.station = n then { e with hold := e.hold + amount } else e) = l := by
        refine (List.map_congr_left fun x hx => if_neg fun hax => hd.1 ?_).trans (List.map_id' l)
        exact ha ▸ hax ▸ List.mem_map_of_mem hx
      rw [List.map_cons, hrest, if_pos ha, List.map_cons, List.map_cons, List.sum_cons, List.sum_cons]
      dsimp only
      omega
    · have := held_extended n amount hd.2
      simp only [List.map_cons, ha, if_false, List.sum_cons]
      omega

end Sys2Proof.Machine
end

section
/-! PROOF. Each unit keeps the part solvent (R49, R84, R108, R112 to R114). -/

namespace Sys2Proof.Machine

/-! ## Entries, commits and openings -/

theorem backed_enter {q : Bool} {new : StationState} {n : StationId} {s : State}
    (hn : (s.st n).session.isSome = new.hasSession) (hs : s.Backed) : (enter q new n s).Backed := by
  refine backed_at (internal_enter q new n s).others (atStation_enter q new n s).accounts ?_ ?_ hs
  · rw [st_enter]
    refine (hs.stations n).entered ?_
    cases hnew : new.hasSession with
    | true => exact .inr (commits_hasSession hnew)
    | false =>
      rw [hnew] at hn
      exact .inl (by simpa using hn)
  · intro i a ho
    rw [st_enter]
    exact entered_owns.mpr ho

theorem backed_commit {q : Bool} {n : StationId} {s : State} (hn : (s.st n).session = none) (hs : s.Backed) :
    (commitTariff q n s).Backed := by
  refine backed_at (internal_commitTariff q n s).others (atStation_commitTariff q n s).accounts ?_ ?_ hs
  · rw [st_commitTariff]
    have hx := hs.stations n
    exact { hx with
      exposure := fun ses l h _ => by
        have h' : (s.st n).session = some ses := h
        rw [hn] at h'
        cases h'
      tariffs := fun tf ht => hx.tariffs tf (committed_tariffs ht) }
  · intro i a ho
    rw [st_commitTariff]
    exact ho

theorem atStation_resume (n : StationId) (s : State) : AtStation n s (resume n s) := by
  unfold resume
  split
  · exact .refl n s
  · exact (atStation_modSt _ _ _).trans (atStation_statePanel _ _)

theorem backed_resume {n : StationId} {s : State} (hs : s.Backed) : (resume n s).Backed := by
  refine backed_at (internal_resume n s).others (atStation_resume n s).accounts ?_ ?_ hs
  · unfold resume
    split
    · exact hs.stations n
    · rw [st_statePanel, st_modSt_self]
      exact { hs.stations n with }
  · intro i a ho
    unfold resume
    split
    · exact ho
    · rw [st_statePanel, st_modSt_self]
      exact ho

theorem backed_open {funding : Funding} {card : CardId} {limit : Option Nat} {discount : Nat} {n : StationId} {s : State}
    (hn : (s.st n).session = none) (hp : (s.st n).passage = none) (hl : funding = .free ↔ limit = none)
    (hs : s.Backed) : (openSession funding card limit discount n s).Backed := by
  refine backed_at (internal_openSession funding card limit discount n s).others (openSession_accounts _ _ _ _ _ _)
    ?_ ?_ hs
  · rw [st_openSession]
    exact (hs.stations n).opened hn hp hl rfl
  · intro i a ho
    exact absurd ho (not_owns hn (by rw [hp]; rfl) i a)

/-- An ACCOUNT session takes over the hold of its admission (R102). -/
theorem backed_openOnHold {i : AccountId} {card : CardId} {limit dc : Nat} {n : StationId} {s : State}
    (hh : (s.st n).passage.bind Passage.hold = some (i, limit, dc)) (hs : s.Backed) :
    (openAccountSession i card limit dc n s).Backed := by
  have hx := hs.stations n
  have hsome : (s.st n).passage.isSome = true := by
    cases hp : (s.st n).passage with
    | none => rw [hp] at hh; cases hh
    | some p => rfl
  have hown : (s.st n).Owns i limit := .inr (by rw [hh]; rfl)
  have hend : ((endPassage n s).st n) = { s.st n with passage := none } := by rw [endPassage, st_modSt_self]
  have hx' : ((endPassage n s).st n).Sound := by
    rw [hend]
    exact { hx with apart := fun h => nomatch h }
  refine backed_at (internal_openAccountSession i card limit dc n s).others
    ((openSession_accounts _ _ _ _ _ _).trans rfl) ?_ ?_ hs
  · rw [openAccountSession, st_openSession]
    exact hx'.opened (by rw [hend]; exact hx.apart hsome) (by rw [hend]) (by simp [newSession]) rfl
  · intro j a ho
    obtain ⟨rfl, rfl⟩ := hown.unique hx ho
    rw [openAccountSession, st_openSession]
    exact entered_owns.mpr (.inl rfl)

/-! ## Holds -/

/-- The account with an admission's hold on its list (R112). -/
def Account.admitted (n : StationId) (hold : Nat) (a : Account) : Account :=
  { a with funded := a.funded ++ [{ station := n, hold := hold }], sessions := satAdd max32 a.sessions 1 }

/-- The account with the hold of a station's entry raised (R113). -/
def Account.extended (n : StationId) (amount : Nat) (a : Account) : Account :=
  { a with funded := a.funded.map (fun e => if e.station = n then { e with hold := e.hold + amount } else e) }

/-- An account's funds before its holds (R108). -/
def Account.own (a : Account) : Int := a.balance + (if a.kind = .credit then (a.creditLimit : Int) else 0)

/-- The available funds are the funds less the holds (R108). -/
theorem available_eq (a : Account) : a.available = a.own - a.held := rfl

theorem admitted_available (n : StationId) (hold : Nat) (a : Account) :
    (a.admitted n hold).available = a.available - hold := by
  have h : (a.admitted n hold).held = a.held + hold := by simp [Account.held, Account.admitted]
  have ho : (a.admitted n hold).own = a.own := rfl
  rw [available_eq, available_eq, h, ho]
  omega

theorem extended_available {n : StationId} {amount : Nat} {a : Account} (h : (a.funded.map Funded.station).Nodup) :
    a.available - amount ≤ (a.extended n amount).available := by
  have hheld : (a.extended n amount).held ≤ a.held + amount := held_extended n amount h
  have ho : (a.extended n amount).own = a.own := rfl
  rw [available_eq, available_eq, ho]
  omega

/-- An admission places a hold within the available funds, for a station that is on no list (R112). -/
theorem backed_admit {i : AccountId} {n : StationId} {floor limit dc : Nat} {s t : State}
    (hp : (s.st n).passage.isSome = true) (hh : (s.st n).passage.bind Passage.hold = none)
    (hr : requestAdmission i n floor s = (.admitted limit dc, t)) (hs : s.Backed) : (placeHold i limit dc n t).Backed := by
  obtain ⟨-, -, hfloor, hlimit, -, ht⟩ := requestAdmission_admitted hr
  replace ht : t = s.modAccount i (Account.admitted n limit) := ht
  subst ht
  have hx := hs.stations n
  have hfree : ∀ k, ∀ e ∈ (s.account k).funded, e.station ≠ n := fun k e he hen => by
    have := hs.owned k e he
    rw [hen] at this
    exact not_owns (hx.apart hp) hh k _ this
  have hacc : ∀ k, (placeHold i limit dc n (s.modAccount i (Account.admitted n limit))).account k =
      if k = i then (s.account k).admitted n limit else s.account k :=
    fun k => account_putFunded hs.tables i k (Account.admitted n limit)
  refine ⟨modAccount_wf hs.tables i (Account.admitted n limit), fun m => ?_, fun k e he => ?_, fun k => ?_, fun k => ?_⟩
  · by_cases hm : m = n
    · subst hm
      rw [placeHold, modPassage, st_modSt_self]
      exact { hx with apart := fun h => hx.apart (by simpa using h) }
    · rw [placeHold, modPassage, st_modSt_ne _ _ hm]
      exact hs.stations m
  · have he' : e ∈ (s.account k).funded ∨ (k = i ∧ e = { station := n, hold := limit }) := by
      rw [hacc] at he
      split at he
      · next hk =>
        rcases List.mem_append.mp he with he | he
        · exact .inl he
        · exact .inr ⟨hk, List.mem_singleton.mp he⟩
      · exact .inl he
    rcases he' with he' | ⟨rfl, rfl⟩
    · rw [placeHold, modPassage, st_modSt_ne _ _ (hfree k e he')]
      exact hs.owned k e he'
    · rw [placeHold, modPassage, st_modSt_self]
      obtain ⟨p, hp⟩ := Option.isSome_iff_exists.mp hp
      exact .inr (by simp [hp])
  · rw [hacc]
    split
    · rw [Account.admitted, List.map_append]
      refine List.Nodup.append (hs.once k) (List.nodup_singleton _) ?_
      intro m hm hmn
      obtain ⟨e, he, rfl⟩ := List.mem_map.mp hm
      exact hfree k e he (List.mem_singleton.mp hmn)
    · exact hs.once k
  · rw [hacc]
    split
    · next hk =>
      subst hk
      have hle : (limit : Int) ≤ (s.account k).available := by
        have h0 := hs.funds k
        rw [hlimit]
        omega
      rw [admitted_available]
      omega
    · exact hs.funds k

/-- The session of a station that draws on an account (R113). -/
theorem accountIndex_eq_some {x : Station} {i : AccountId} :
    x.accountIndex = some i ↔ ∃ ses, x.session = some ses ∧ ses.funding = .account i := by
  unfold Station.accountIndex
  cases x.session with
  | none => simp
  | some ses => cases hf : ses.funding <;> simp [hf]

/-- The station of a held extension, its limit raised (R113). -/
theorem st_extendHold (i : AccountId) (n : StationId) (amount : Nat) (s : State) :
    (extendHold i n amount s).st n = { s.st n with
      session := (s.st n).session.map (fun ses => { ses with limit := ses.limit.map (· + amount) }) } := by
  rw [extendHold, modSession, st_modSt_self, modAccount_st]

/-- A hold extension raises the hold and the limit together, within the available funds (R113). -/
theorem backed_extend {i : AccountId} {n : StationId} {amount : Nat} {s : State}
    (hi : (s.st n).accountIndex = some i) (ha : extensionAmount i s = some amount) (hs : s.Backed) :
    (extendHold i n amount s).Backed := by
  obtain ⟨ses, hses, hf⟩ := accountIndex_eq_some.mp hi
  have hx := hs.stations n
  obtain ⟨l, hl⟩ : ∃ l, ses.limit = some l := Option.ne_none_iff_exists'.mp fun h => by
    have := (hx.limits ses hses).mpr h
    rw [hf] at this
    cases this
  have hown : (s.st n).Owns i l := .inl (by rw [hses]; simp [hf, hl])
  obtain ⟨-, hpos, hle⟩ := extensionAmount_le ha
  have hacc : ∀ k, (extendHold i n amount s).account k =
      if k = i then (s.account k).extended n amount else s.account k :=
    fun k => account_putFunded hs.tables i k (Account.extended n amount)
  have hothers : ∀ m, m ≠ n → (extendHold i n amount s).st m = s.st m := fun m hm => by
    rw [extendHold, modSession, st_modSt_ne _ _ hm, modAccount_st]
  refine ⟨modAccount_wf hs.tables i (Account.extended n amount), fun m => ?_, fun k e he => ?_, fun k => ?_, fun k => ?_⟩
  · by_cases hm : m = n
    · subst hm
      rw [st_extendHold]
      refine ⟨fun b hb => ?_, fun b l' hb hl' => ?_, fun hj => ?_, fun card dc req hslot => ?_, hx.tariffs, fun hq => ?_⟩
      · simp only [hses, Option.map_some, Option.some.injEq] at hb
        subst hb
        simp [hf, hl]
      · rw [exposure_eq hb]
        simp only [hses, Option.map_some, Option.some.injEq] at hb
        subst hb
        simp only [hl, Option.map_some, Option.some.injEq] at hl'
        have := hx.exposure ses l hses hl
        rw [exposure_eq hses] at this
        change ses.gross + (s.st m).released * (s.st m).ceiling ≤ _
        omega
      · rw [Option.isSome_map]; exact hx.jobs hj
      · have := hx.topups card dc req hslot
        simpa [hses] using this
      · have := hx.apart hq
        rw [hses] at this
        cases this
    · rw [hothers m hm]; exact hs.stations m
  · rw [hacc] at he
    split at he
    · next hk =>
      subst hk
      obtain ⟨e0, he0, rfl⟩ := List.mem_map.mp he
      have ho := hs.owned k e0 he0
      by_cases hm : e0.station = n
      · rw [if_pos hm]
        dsimp only
        rw [hm] at ho ⊢
        obtain ⟨-, rfl⟩ := hown.unique hx ho
        rw [st_extendHold]
        exact .inl (by simp [hses, hf, hl])
      · rw [if_neg hm, hothers _ hm]
        exact ho
    · next hk =>
      have ho := hs.owned k e he
      by_cases hm : e.station = n
      · rw [hm] at ho
        exact absurd (hown.unique hx ho).1.symm hk
      · rw [hothers _ hm]
        exact ho
  · rw [hacc]
    split
    · have hsame : Funded.station ∘ (fun e : Funded => if e.station = n then { e with hold := e.hold + amount } else e) =
          Funded.station := by
        funext e
        simp only [Function.comp_apply]
        split <;> rfl
      rw [Account.extended, List.map_map, hsame]
      exact hs.once k
    · exact hs.once k
  · rw [hacc]
    split
    · next hk =>
      subst hk
      refine le_trans ?_ (extended_available (hs.once k))
      omega
    · exact hs.funds k

/-! ## Grants and sheets -/

/-- A grant that passes the exposure check keeps the exposure within the limit (R49). -/
theorem backed_grant {n : StationId} {request g : Nat} {oneSet : Bool} {s : State} (hg : (s.st n).passes g = true)
    (hs : s.Backed) : (modJob n (Job.granted request g oneSet) s).Backed := by
  have hx := hs.stations n
  refine backed_at (internal_modJob n _ s).others rfl ?_ (fun i a ho => by rw [modJob, st_modSt_self]; exact ho) hs
  rw [modJob, st_modSt_self]
  refine { hx with exposure := fun ses l hses hl => ?_, jobs := fun hj => hx.jobs (by simpa using hj) }
  have hses' : (s.st n).session = some ses := hses
  rw [exposure_eq (ses := ses) hses]
  unfold Station.passes at hg
  rw [hses'] at hg
  simp only [hl, decide_eq_true_eq] at hg
  rw [exposure_eq hses'] at hg
  have hrel : ({ s.st n with job := (s.st n).job.map (Job.granted request g oneSet) } : Station).released ≤
      (s.st n).released + g := by
    unfold Station.released
    cases (s.st n).job with
    | none => exact Nat.zero_le _
    | some j => exact le_rfl
  refine (Nat.add_le_add_left (Nat.mul_le_mul_right _ hrel) _).trans ?_
  change ses.gross + ((s.st n).released + g) * (s.st n).ceiling ≤ 10 * l
  rw [Nat.add_mul]
  omega

/-- Metering turns released sides into mills within their ceiling (R41, R42, R49). -/
theorem backed_meter {sheet cls sides : Nat} {n : StationId} {s : State} (hs : s.Backed) :
    (meterSheet sheet cls sides n s).2.Backed := by
  have hx := hs.stations n
  have hp := prices_meterSheet sheet cls sides n s
  have hm := meters_meterSheet sheet cls sides n s
  have hle := chargeable_le_released (s.st n) cls sides
  generalize (s.st n).chargeable cls sides = charged at hp hle
  have hc := meters_countSheet cls charged (sides - charged) n s
  have hrel : ((countSheet cls charged (sides - charged) n s).st n).released = (s.st n).released - charged := by
    rw [countSheet, st_modSt_self]
    unfold Station.released
    dsimp only
    cases (s.st n).job with
    | none => exact (Nat.zero_sub _).symm
    | some j => rfl
  have hback : ∀ b, (((meterSheet sheet cls sides n s).2).st n).session = some b →
      ∃ a, (s.st n).session = some a ∧ b.funding = a.funding ∧ b.limit = a.limit ∧
        b.gross ≤ a.gross + charged * (s.st n).ceiling := fun b hb => by
    have hrel' := hc.session
    cases ha : (s.st n).session with
    | none =>
      have := funded_isSome hm.session
      rw [ha, hb] at this
      cases this
    | some a =>
      have hmid : ((countSheet cls charged (sides - charged) n s).st n).session =
          some { a with overrunSides := satAdd max32 a.overrunSides (sides - charged) } := by
        rw [countSheet, st_modSt_self]
        simp [ha]
      have hg := hp.gross (fun tf ht => hx.tariffs tf (.inl (by rwa [hc.tariff] at ht))) _ b hmid hb
      rw [hc.ceiling] at hg
      have hfund := hm.session
      rw [ha, hb] at hfund
      cases hfund with
      | some hfund => exact ⟨a, rfl, hfund.1, hfund.2, hg⟩
  have hother := (internal_meterSheet sheet cls sides n s).others
  have hacc := hp.accounts hs.tables
  refine ⟨hp.tables hs.tables, fun m => ?_, fun i e he => ?_, fun i => ?_, fun i => ?_⟩
  · by_cases hmn : m = n
    · subst hmn
      refine ⟨fun b hb => ?_, fun b l hb hl => ?_, fun hj => ?_, fun card dc req hslot => ?_, fun tf ht => ?_, fun hq => ?_⟩
      · obtain ⟨a, ha, hf, hl, -⟩ := hback b hb
        rw [hf, hl]
        exact hx.limits a ha
      · obtain ⟨a, ha, -, hl', hg⟩ := hback b hb
        have h1 := hx.exposure a l ha (hl' ▸ hl)
        rw [exposure_eq ha] at h1
        rw [exposure_eq hb, hp.released, hrel, hm.ceiling]
        have h2 : ((s.st m).released - charged) * (s.st m).ceiling + charged * (s.st m).ceiling =
            (s.st m).released * (s.st m).ceiling := by rw [← Nat.add_mul, Nat.sub_add_cancel hle]
        omega
      · rw [funded_isSome hm.session]
        exact hx.jobs (by rwa [hm.job] at hj)
      · have := hx.topups card dc req (by rwa [hm.slot] at hslot)
        have hfund := hm.session
        generalize (s.st m).session = xs, ((meterSheet sheet cls sides m s).2.st m).session = ys at this hfund
        cases hfund with
        | none => exact this
        | some hfund => simpa [hfund.1] using this
      · exact hx.tariffs tf (by rwa [hm.tariff] at ht)
      · have := hx.apart (by rwa [hm.passage] at hq)
        have hsome := funded_isSome hm.session
        rw [this] at hsome
        simpa using hsome
    · rw [hother m hmn]; exact hs.stations m
  · rw [(hacc i).funded] at he
    have ho := hs.owned i e he
    by_cases hmn : e.station = n
    · rw [hmn] at ho ⊢
      refine ho.imp (fun h => ?_) (fun h => by rw [hm.passage]; exact h)
      have hfund := hm.session
      generalize (s.st n).session = xs, ((meterSheet sheet cls sides n s).2.st n).session = ys at h hfund
      cases hfund with
      | none => exact h
      | some hfund => simpa [hfund.1, hfund.2] using h
    · rw [hother _ hmn]; exact ho
  · rw [(hacc i).funded]; exact hs.once i
  · rw [(hacc i).available]; exact hs.funds i

theorem backed_append {e : Sheet} {n : StationId} {s : State} (hs : s.Backed) :
    (s.modSt n (fun x => { x with inPath := x.inPath ++ [e] })).Backed := by
  refine backed_at (fun m hm => st_modSt_ne s _ hm) rfl ?_ (fun i a ho => by rw [st_modSt_self]; exact ho) hs
  rw [st_modSt_self]
  exact { hs.stations n with }

/-- An approved top-up raises a BANK session's limit, which no account's hold bounds (R138). -/
theorem eases_topupApproved {card : CardId} {dc tag amount : Nat} {n : StationId} {s : State}
    (hbank : (s.st n).session.map (fun ses => ses.funding.kind) = some .bank) :
    Eases s (topupApproved card dc tag amount n s) := by
  have he : Eases s (endRequest (.active card dc) n s) := eases_endRequest (by simp)
  refine he.trans (eases_modSession fun ses hses => ?_)
  have hb : ses.funding.kind = .bank := by
    have hses' : (s.st n).session = some ses := by simpa [endRequest] using hses
    simpa [hses'] using hbank
  exact {
    kind := by cases hf : ses.funding <;> simp [Funding.approveTag, Funding.kind]
    drawn := fun hk => by rw [hb] at hk; cases hk
    limited := by cases ses.limit <;> simp
    limit := fun l hl => by rw [hl]; exact Nat.le_add_right _ _
    gross := le_rfl }

end Sys2Proof.Machine
end

section
/-! PROOF. Settlements, postings and the resets keep the part solvent; every command keeps it so (O36). -/

namespace Sys2Proof.Machine

/-! ## Postings -/

/-- The lists after a posting: the station's entry is gone from the account's (R114). -/
theorem requestPosting_funded {s : State} (hw : AccountTable.wf s.accounts) (i k : AccountId) (n : StationId)
    (charge : Nat) : ((requestPosting i n charge s).account k).funded =
      if k = i then (s.account k).funded.filter (fun x => decide (x.station ≠ n)) else (s.account k).funded := by
  unfold requestPosting
  split
  · next he =>
    split
    · next hk =>
      subst hk
      have hnone := List.find?_eq_none.mp he
      exact (List.filter_eq_self.mpr fun x hx => by simpa using hnone x hx).symm
    · rfl
  · next e he =>
    have hp : ((s.modAccount i (Account.posted n charge)).account k).funded =
        if k = i then (s.account k).funded.filter (fun x => decide (x.station ≠ n)) else (s.account k).funded := by
      rw [account_putFunded hw]
      split <;> rfl
    dsimp only
    split
    · rw [((eases_startWake i _).accounts (modAccount_wf hw i _) k).funded]
      exact hp
    · exact hp

/-- A posting of no more than the hold lowers no account's available funds (R114). -/
theorem requestPosting_available {s : State} (hs : s.Backed) (i k : AccountId) {n : StationId} {charge : Nat}
    (h : ∀ e ∈ (s.account i).funded, e.station = n → charge ≤ e.hold) :
    (s.account k).available ≤ ((requestPosting i n charge s).account k).available := by
  unfold requestPosting
  split
  · exact le_rfl
  · next e he =>
    have hw := hs.tables
    have hle : charge ≤ e.hold := h e (List.mem_of_find?_eq_some he) (by simpa using List.find?_some he)
    have hp : (s.account k).available ≤ ((s.modAccount i (Account.posted n charge)).account k).available := by
      rw [account_putFunded hw]
      split
      · next hk =>
        subst hk
        have hheld : ((s.account k).posted n charge).held + e.hold = (s.account k).held := held_filter (hs.once k) he
        have ho : ((s.account k).posted n charge).own = (s.account k).own - charge := by
          exact sub_add_eq_add_sub _ _ _
        rw [available_eq, available_eq, ho]
        omega
      · exact le_rfl
    dsimp only
    split
    · rw [((eases_startWake i _).accounts (modAccount_wf hw i _) k).available]
      exact hp
    · exact hp

/-- A posting of no more than the hold keeps the accounts backed, whoever stands behind the entry that leaves. -/
theorem backed_posting {i : AccountId} {n : StationId} {charge : Nat} {s t : State}
    (hacc : t.accounts = (requestPosting i n charge s).accounts)
    (hcharge : ∀ e ∈ (s.account i).funded, e.station = n → charge ≤ e.hold) (hn : ∀ m, (t.st m).Sound)
    (hown : ∀ k, ∀ e ∈ (s.account k).funded, ¬ (k = i ∧ e.station = n) → (t.st e.station).Owns k e.hold)
    (hs : s.Backed) : t.Backed := by
  have hk : ∀ k, t.account k = (requestPosting i n charge s).account k := fun k => by rw [State.account, hacc]; rfl
  refine ⟨?_, hn, fun k e he => ?_, fun k => ?_, fun k => ?_⟩
  · rw [hacc]
    exact (internal_requestPosting i n charge s).tables hs.tables
  · rw [hk, requestPosting_funded hs.tables] at he
    split at he
    · obtain ⟨he, hne⟩ := List.mem_filter.mp he
      exact hown k e he fun h => by simp [h.2] at hne
    · next hki => exact hown k e he fun h => hki h.1
  · rw [hk, requestPosting_funded hs.tables]
    split
    · exact ((List.filter_sublist).map _).nodup (hs.once k)
    · exact hs.once k
  · rw [hk]
    exact (hs.funds k).trans (requestPosting_available hs i k hcharge)

/-! ## Settlements -/

/-- The charge of an ACCOUNT session stays within its limit (R72). -/
theorem charge_le_limit (x : Station) {ses : Session} {i : AccountId} (hf : ses.funding = .account i) :
    (x.charge ses).1 ≤ ses.limit.getD 0 := by
  unfold Station.charge
  split
  · exact Nat.zero_le _
  · rw [hf]
    exact Nat.min_le_right _ _

/-- A station that drops its session is sound (R28, R141). -/
theorem Station.Sound.settled {x : Station} (h : x.Sound) {ses : Session} (hs : x.session = some ses) :
    (x.settled (decide (ses.funding.kind = .bank))).Sound := by
  refine ⟨fun _ h => (nomatch h), fun _ _ h => (nomatch h), fun h => (nomatch h), fun card dc req hslot => ?_, h.tariffs,
    fun _ => rfl⟩
  by_cases hb : ses.funding.kind = .bank
  · simp [Station.settled, hb] at hslot
  · have := h.topups card dc req (by simpa [Station.settled, hb] using hslot)
    simp [hs, hb] at this

/-- A settlement up to the dropping of the session keeps the accounts backed (R28, R114). -/
theorem backed_settleRecord {n : StationId} {s : State} (hs : s.Backed) : (settleRecord n s).Backed := by
  cases hses : (s.st n).session with
  | none => rwa [settleRecord, hses]
  | some ses =>
    have hx := hs.stations n
    have hst := st_settleRecord hses
    have hothers := (internal_settleRecord n s).others
    have hpass : (s.st n).passage.bind Passage.hold = none := by
      cases hp : (s.st n).passage with
      | none => rfl
      | some p =>
        have := hx.apart (by rw [hp]; rfl)
        rw [hses] at this
        cases this
    have hsound : ∀ m, ((settleRecord n s).st m).Sound := fun m => by
      by_cases hm : m = n
      · subst hm; rw [hst]; exact hx.settled hses
      · rw [hothers m hm]; exact hs.stations m
    have hacc : (settleRecord n s).accounts = (postCharge n ses ((s.st n).charge ses).1 s).accounts := by
      rw [settleRecord_eq hses]
      exact offerReserved_accounts _ _
    have howner : ∀ k, ∀ e ∈ (s.account k).funded, e.station = n →
        ses.funding = .account k ∧ ses.limit = some e.hold := fun k e he hen => by
      have ho := hs.owned k e he
      rw [hen] at ho
      rcases ho with ho | ho
      · rw [hses] at ho
        simpa using ho
      · rw [hpass] at ho
        cases ho
    cases hf : ses.funding with
    | account i =>
      refine backed_posting (i := i) (n := n) (charge := ((s.st n).charge ses).1) (by rw [hacc, postCharge, hf]) ?_
        hsound (fun k e he hne => ?_) hs
      · intro e he hen
        have := charge_le_limit (s.st n) hf
        rw [(howner i e he hen).2] at this
        exact this
      · by_cases hen : e.station = n
        · have := (howner k e he hen).1
          rw [hf] at this
          cases this
          exact absurd ⟨rfl, hen⟩ hne
        · rw [hothers _ hen]; exact hs.owned k e he
    | bank a v k =>
      refine backed_at hothers (by rw [hacc, postCharge, hf]) (hsound n) (fun j h ho => ?_) hs
      rcases ho with ho | ho
      · rw [hses] at ho; simp [hf] at ho
      · rw [hpass] at ho; cases ho
    | free =>
      refine backed_at hothers (by rw [hacc, postCharge, hf]) (hsound n) (fun j h ho => ?_) hs
      rcases ho with ho | ho
      · rw [hses] at ho; simp [hf] at ho
      · rw [hpass] at ho; cases ho

/-- A settlement keeps the accounts backed (R28). -/
theorem backed_settle {n : StationId} {s : State} (hs : s.Backed) : (settle n s).Backed := by
  cases hses : (s.st n).session with
  | none => rwa [settle_none hses]
  | some ses =>
    have hr := backed_settleRecord (n := n) hs
    have hst := st_settleRecord hses
    have ha := atStation_settle n s
    have hx := (hs.stations n).settled hses
    have hpass : (s.st n).passage = none := by
      cases hp : (s.st n).passage with
      | none => rfl
      | some p =>
        have := (hs.stations n).apart (by rw [hp]; rfl)
        rw [hses] at this
        cases this
    refine backed_at (fun m hm => ha.others m hm) ha.accounts ?_ (fun i a ho => ?_) hr
    · rw [st_settle hses]
      unfold Station.settles
      dsimp only
      split
      · exact Station.Sound.entered (x := { Station.settled _ _ with disablePending := false }) { hx with } (.inl rfl)
      · split
        · exact Station.Sound.entered (x := { Station.settled _ _ with serviceDue := true }) { hx with } (.inl rfl)
        · split
          · exact hx.entered (.inl rfl)
          · split
            · exact hx.entered (.inl rfl)
            · exact Station.Sound.entered (x := { Station.settled _ _ with serviceDue := false }) { hx with } (.inl rfl)
    · refine absurd ho (not_owns ?_ ?_ i a)
      · rw [hst]; rfl
      · rw [hst]
        show (s.st n).passage.bind _ = none
        rw [hpass]; rfl

/-! ## Account commands -/

theorem backed_write {i : AccountId} {r : List Byte} {s : State} (hs : s.Backed) : (writeRecord i r s).2.Backed := by
  unfold writeRecord
  split
  · exact hs
  · next hfree =>
    split
    · exact hs
    · next w _ =>
      split
      · exact hs
      · next hfunds =>
        have hempty : (s.account i).funded = [] := not_not.mp hfree
        have hkeep : ((s.account i).written w s.clock s.clockSet).funded = (s.account i).funded := by
          unfold Account.written
          dsimp only
          split <;> rfl
        have hown : ((s.account i).written w s.clock s.clockSet).own = w.funds := rfl
        have hacc := account_putFunded hs.tables i (f := Account.written w s.clock s.clockSet)
        refine ⟨modAccount_wf hs.tables i _, hs.stations, fun k e he => ?_, fun k => ?_, fun k => ?_⟩
        · rw [hacc] at he
          split at he
          · next hk =>
            subst hk
            rw [hkeep, hempty] at he
            cases he
          · exact hs.owned k e he
        · rw [hacc]
          split
          · next hk =>
            subst hk
            rw [hkeep]
            exact hs.once k
          · exact hs.once k
        · rw [hacc]
          split
          · next hk =>
            subst hk
            rw [available_eq, hown, Account.held, hkeep, hempty]
            simpa using hfunds
          · exact hs.funds k

/-- An adjustment that is not refused leaves no account overdrawn (R123). -/
theorem backed_adjust {amount : Int} {i : AccountId} {s : State} (h : judgeAdjust amount (s.account i) = .ok)
    (hs : s.Backed) : (adjustBalance amount i s).Backed := by
  have hroom : 0 ≤ (s.account i).available + amount := by
    unfold judgeAdjust at h
    split at h
    · cases h
    · split at h
      · cases h
      · split at h
        · cases h
        · split at h
          · cases h
          · next hlow => exact Int.not_lt.mp hlow
  have hacc := account_putFunded hs.tables i (f := fun a => { a with balance := a.balance + amount })
  have hb : (s.modAccount i (fun a => { a with balance := a.balance + amount })).Backed := by
    refine ⟨modAccount_wf hs.tables i _, hs.stations, fun k e he => ?_, fun k => ?_, fun k => ?_⟩
    · rw [hacc] at he
      split at he
      · exact hs.owned k e he
      · exact hs.owned k e he
    · rw [hacc]
      split
      · exact hs.once k
      · exact hs.once k
    · rw [hacc]
      split
      · next hk =>
        subst hk
        unfold Account.available at hroom ⊢
        have hheld : ({ s.account k with balance := (s.account k).balance + amount } : Account).held =
          (s.account k).held := rfl
        rw [hheld]
        dsimp only
        omega
      · exact hs.funds k
  unfold adjustBalance
  dsimp only
  split
  · exact (eases_startWake i _).backed hb
  · exact hb

/-! ## The units -/

/-- The part is solvent: its stations agree with their states and its accounts are backed. -/
def State.Sound (s : State) : Prop := s.Agree ∧ s.Backed

/-- Solvency is kept by the units. -/
theorem sound_units : Units State.Sound where
  agrees h := h.1
  eases h hs := ⟨agree_units.eases h hs.1, h.backed hs.2⟩
  enters hn hp hs := ⟨agree_units.enters hn hp hs.1, backed_enter hn hs.2⟩
  commits hn hs := ⟨agree_units.commits hn hs.1, backed_commit hn hs.2⟩
  resumes hst hs := ⟨agree_units.resumes hst hs.1, backed_resume hs.2⟩
  opens hn hp hf hl hs := ⟨agree_units.opens hn hp hf hl hs.1, backed_open hn hp hl hs.2⟩
  opensOnHold hh hs := ⟨agree_units.opensOnHold hh hs.1, backed_openOnHold hh hs.2⟩
  admits hp hh hr hs := ⟨agree_units.admits hp hh hr hs.1, backed_admit hp hh hr hs.2⟩
  raisesHold hi ha hs := ⟨agree_units.raisesHold hi ha hs.1, backed_extend hi ha hs.2⟩
  grants hg hs := ⟨agree_units.grants hg hs.1, backed_grant hg hs.2⟩
  meters hs := ⟨agree_units.meters hs.1, backed_meter hs.2⟩
  appends hl hs := ⟨agree_units.appends hl hs.1, backed_append hs.2⟩
  approves hslot hs := ⟨agree_units.approves hslot hs.1,
    (eases_topupApproved ((hs.2.stations _).topups _ _ _ hslot)).backed hs.2⟩
  settles hs := ⟨agree_units.settles hs.1, backed_settle hs.2⟩
  posts {i n charge s} hp hs := by
    refine ⟨agree_units.posts hp hs.1, backed_posting rfl (fun e he hen => ?_) (fun m => ?_) (fun k e he _ => ?_) hs.2⟩
    · unfold Account.postable at hp
      split at hp
      · cases hp
      · next e' he' =>
        have hmem := List.mem_of_find?_eq_some he'
        have hst : e'.station = n := by simpa using List.find?_some he'
        have heq : e = e' := List.inj_on_of_nodup_map (hs.2.once i) he hmem (hen.trans hst.symm)
        rw [heq]
        simpa using hp
    · rw [st_congr (requestPosting_stations i n charge s)]; exact hs.2.stations m
    · rw [st_congr (requestPosting_stations i n charge s)]; exact hs.2.owned k e he
  writes hs := ⟨agree_units.writes hs.1, backed_write hs.2⟩
  adjusts h hs := ⟨agree_units.adjusts h hs.1, backed_adjust h hs.2⟩

/-! ## The resets -/

/-- The record of an account after every wake walk has ended (R111). -/
theorem lookup_endWalks : ∀ {t : AccountTable}, AccountTable.wf t → ∀ i,
    lookupAccount (endWalks t) i = { lookupAccount t i with walk := none }
  | [], _, _ => rfl
  | (j, a) :: t, h, i => by
    obtain ⟨hsort, hmem⟩ := h
    obtain ⟨hj, hsort⟩ := List.pairwise_cons.mp hsort
    have ih := lookup_endWalks (t := t) ⟨hsort, fun e he => hmem e (List.mem_cons_of_mem _ he)⟩ i
    have hcons : endWalks ((j, a) :: t) = if { a with walk := none } = ({} : Account) then endWalks t
        else (j, { a with walk := none }) :: endWalks t := by
      unfold endWalks
      rw [List.map_cons, List.filter_cons]
      by_cases ha : { a with walk := none } = ({} : Account) <;> simp [ha]
    have hbelow : i = j → lookupAccount t i = {} := fun hij =>
      lookupAccount_below fun e he => hij ▸ hj e he
    rw [hcons]
    by_cases hij : i = j
    · split
      · next ha =>
        rw [ih, hbelow hij, lookupAccount, if_pos hij, ha]
      · rw [lookupAccount, if_pos hij, lookupAccount, if_pos hij]
    · split
      · rw [ih, lookupAccount, if_neg hij]
      · rw [lookupAccount, if_neg hij, ih, lookupAccount, if_neg hij]

theorem resetPassage_noHold (n : StationId) (s : State) :
    ((resetPassage n s).st n).passage.bind Passage.hold = none := by
  unfold resetPassage
  split
  · next h => rw [h]; rfl
  · split
    · rw [finishPassage_passage]; rfl
    · rw [st_congr (returnReservation_stations _), endPassage, st_modSt_self]; rfl

theorem resetSession_noHold {n : StationId} {s : State} (h : (s.st n).passage.bind Passage.hold = none) :
    ((resetSession n s).st n).passage.bind Passage.hold = none := by
  unfold resetSession
  split
  · exact h
  · next hsome =>
    dsimp only
    generalize hu : (if (s.st n).state = .closing then credit n s else closeAtOnce .reset n s) = u
    have he : Eases s u := hu ▸ .ite (eases_credit n s) (eases_closeAtOnce _ n s)
    have hh := (he.stations n).hold.trans h
    have hset : ((settleRecord n u).st n).passage.bind Passage.hold = none := by
      cases hses : (u.st n).session with
      | none => rw [settleRecord, hses]; exact hh
      | some ses => rw [st_settleRecord hses]; exact hh
    split
    · rw [st_enter, entered_passage]; exact hset
    · exact hset

theorem sound_resetPassage {n : StationId} {s : State} (hs : s.Sound) : (resetPassage n s).Sound := by
  unfold resetPassage
  split
  · exact hs
  · next p hp =>
    split
    · exact keep_finishPassage sound_units hs
    · next hh =>
      refine sound_units.eases ((eases_endPassage ?_).trans (eases_returnReservation _)) hs
      rw [hp]
      simpa using hh

theorem backed_resetSession {n : StationId} {s : State} (hs : s.Backed) : (resetSession n s).Backed := by
  have hends := (resetSession_ends n s).1
  unfold resetSession at hends ⊢
  split
  · exact hs
  · next hsome =>
    rw [if_neg hsome] at hends
    dsimp only at hends ⊢
    generalize hu : (if (s.st n).state = .closing then credit n s else closeAtOnce .reset n s) = u at hends ⊢
    have he : Eases s u := hu ▸ .ite (eases_credit n s) (eases_closeAtOnce _ n s)
    have hk := backed_settleRecord (n := n) (he.backed hs)
    split
    · next hd =>
      rw [if_pos hd, st_enter, entered_session] at hends
      exact backed_enter (by rw [hends]; rfl) hk
    · exact hk

theorem eases_abortCheck (s : State) : Eases s (abortCheck s) := by
  have ha : (abortCheck s).accounts = s.accounts := by rw [abortCheck_rest]
  refine ⟨fun n => ?_, by rw [ha]; exact id, fun _ i => by rw [State.account, State.account, ha]; exact .refl _⟩
  rw [abortCheck_st]
  refine { Station.Eases.refl (s.st n) with active := ?_, next := ?_ }
  · dsimp only; split <;> rfl
  · dsimp only; split <;> rfl

/-- The turns of a warm reset keep the accounts backed, and leave no entry on any list (R35). -/
theorem backed_resetTurns {s : State} (hs : s.Sound) :
    (resetTurns s).Backed ∧ ∀ i, ((resetTurns s).account i).funded = [] := by
  have h0 : (abortCheck s).Sound := sound_units.eases (eases_abortCheck s) hs
  have h1 : (inFreeOrder resetPassage (abortCheck s)).Sound :=
    atEach_keeps (fun _ _ h => sound_resetPassage h) _ _ (sound_units.eases (eases_takeOrder _) h0)
  have h2 : (inFreeOrder (voidFirst .reset) (inFreeOrder resetPassage (abortCheck s))).Backed :=
    atEach_keeps (fun n u h => (eases_voidFirst .reset n u).backed h) _ _ ((eases_takeOrder _).backed h1.2)
  have h3 : (resetTurns s).Backed :=
    atEach_keeps (fun _ _ h => backed_resetSession h) _ _ ((eases_takeOrder _).backed h2)
  have p1 := (inFreeOrder_establishes (I := fun _ => True) (Q := fun x => x.passage.bind Passage.hold = none)
    internal_resetPassage (fun m u _ => ⟨trivial, resetPassage_noHold m u⟩) (s := abortCheck s) fun _ => trivial).2
  have p2 := (inFreeOrder_establishes (I := fun x => x.passage.bind Passage.hold = none) (Q := fun _ => True)
    (internal_voidFirst .reset)
    (fun m u h => ⟨((eases_voidFirst .reset m u).stations m).hold.trans h, trivial⟩) p1).1
  have p3 := (inFreeOrder_establishes (I := fun x => x.passage.bind Passage.hold = none) (Q := fun _ => True)
    internal_resetSession (fun m u h => ⟨resetSession_noHold h, trivial⟩) p2).1
  refine ⟨h3, fun i => List.eq_nil_iff_forall_not_mem.mpr fun e he => ?_⟩
  exact not_owns (resetTurns_ends (fun m => (hs.1 m).path) e.station).1 (p3 e.station) i e.hold (h3.owned i e he)

theorem backed_enterIdle {q : Bool} {n : StationId} {s : State} (hn : (s.st n).session = none) (hs : s.Backed) :
    (enterIdle q n s).Backed := by
  have hservice : ∀ t : State, (t.st n).session = none → t.Backed → (enterService q n t).Backed := fun t hn ht =>
    backed_enter (s := raiseFor .service n t) (by rw [st_raiseFor, hn]; rfl) ((eases_raiseFor _ _ t).backed ht)
  unfold enterIdle
  split
  · exact hservice _ (by rw [st_modSt_self]; exact hn) ((eases_modSt { Station.Eases.refl _ with }).backed hs)
  · split
    · exact hservice _ hn hs
    · split
      · exact backed_enter (by rw [hn]; rfl) hs
      · exact backed_enter (by rw [hn]; rfl) hs

theorem backed_placeStation {n : StationId} {s : State} (hn : (s.st n).session = none) (hs : s.Backed) :
    (placeStation n s).Backed := by
  unfold placeStation
  split
  · exact hs
  · split
    · exact backed_enterIdle hn hs
    · exact backed_enter (by rw [hn]; rfl) hs

/-- The state in which a warm reset places its stations is backed: no session, no hold and no entry is left (R35, R111). -/
theorem backed_rearmed {s : State} (hs : s.Sound) : (rearmLogLow (clearHost (resetBlocks s))).Backed := by
  obtain ⟨hb, hempty⟩ := backed_resetTurns hs
  have hacc : (rearmLogLow (clearHost (resetBlocks s))).accounts = endWalks (resetTurns s).accounts := by
    rw [rearmLogLow_accounts]; rfl
  have hk : ∀ i, (rearmLogLow (clearHost (resetBlocks s))).account i =
      { (resetTurns s).account i with walk := none } := fun i => by
    rw [State.account, hacc, lookup_endWalks hb.tables]; rfl
  refine ⟨by rw [hacc]; exact endWalks_wf hb.tables, fun n => ?_, fun i e he => ?_, fun i => ?_, fun i => ?_⟩
  · rw [rearmed_st]
    have hn := (resetTurns_ends (fun m => (hs.1 m).path) n).1
    have hx := hb.stations n
    refine ⟨fun ses h => ?_, fun ses l h _ => ?_, fun h => (nomatch h), fun _ _ _ h => (nomatch h), hx.tariffs,
      fun h => (nomatch h)⟩
    · have h' : ((resetTurns s).st n).session = some ses := h
      rw [hn] at h'; cases h'
    · have h' : ((resetTurns s).st n).session = some ses := h
      rw [hn] at h'; cases h'
  · rw [hk] at he
    have he' : e ∈ ((resetTurns s).account i).funded := he
    rw [hempty] at he'
    cases he'
  · rw [hk]; exact hb.once i
  · rw [hk]; exact hb.funds i

theorem placeStation_session (n : StationId) (s : State) : ((placeStation n s).st n).session = (s.st n).session := by
  unfold placeStation
  split
  · rfl
  · split
    · rw [st_enterIdle, idled_session]
    · rw [st_enter, entered_session]

/-- The tariffs of a station after a checked tariff has been taken (R82). -/
def Station.taken (tf : Tariff) (timing : Timing) (x : Station) : StationTariff :=
  if x.holdsSession then
    match timing with
    | .now => { x.tariff with status := .rejectedBusy }
    | .atIdle => { x.tariff with next := some tf, status := .pending }
  else { active := some tf, next := none, status := .applied }

theorem st_takeTariff (tf : Tariff) (timing : Timing) (n : StationId) (s : State) :
    (takeTariff tf timing n s).st n = { s.st n with tariff := (s.st n).taken tf timing } := by
  rw [takeTariff, st_modSt_self]
  rfl

/-- A sound tariff is taken by a sound station: its active one stays while it holds a session (R82). -/
theorem Station.Sound.takes {x : Station} (h : x.Sound) {tf : Tariff} (ht : tf.Sound) (timing : Timing) :
    ({ x with tariff := x.taken tf timing } : Station).Sound := by
  refine { h with exposure := fun ses l hs hl => ?_, tariffs := fun tf' ht' => ?_ }
  · have hs' : x.session = some ses := hs
    have hact : (x.taken tf timing).active = x.tariff.active := by
      unfold Station.taken
      rw [if_pos (by simp [Station.holdsSession, hs'])]
      cases timing <;> rfl
    have hexp : ({ x with tariff := x.taken tf timing } : Station).exposure = x.exposure := by
      unfold Station.exposure Station.ceiling Station.released
      dsimp only
      rw [hact]
    rw [hexp]
    exact h.exposure ses l hs' hl
  · have hcases : x.tariff.active = some tf' ∨ x.tariff.next = some tf' ∨ tf' = tf := by
      simp only [Station.taken] at ht'
      split at ht'
      · cases timing with
        | now => exact ht'.imp_right .inl
        | atIdle =>
          refine ht'.imp_right fun h => .inr ?_
          simpa using h.symm
      · rcases ht' with ht' | ht'
        · exact .inr (.inr (by simpa using ht'.symm))
        · cases ht'
    rcases hcases with hc | hc | rfl
    · exact h.tariffs tf' (.inl hc)
    · exact h.tariffs tf' (.inr hc)
    · exact ht

/-- Solvency is kept by every row. -/
theorem sound_kept : Kept State.Sound where
  toUnits := sound_units
  cold {rate lost s} hs := by
    refine ⟨agree_kept.cold hs.1, ⟨reset_accounts_wf, fun n => ?_, fun i e he => (nomatch he), fun i => List.nodup_nil,
      fun i => le_rfl⟩⟩
    rw [coldState_st]
    exact ⟨fun _ h => (nomatch h), fun _ _ h => (nomatch h), fun h => (nomatch h), fun _ _ _ h => (nomatch h),
      fun _ h => h.elim (fun h => nomatch h) (fun h => nomatch h), fun _ => rfl⟩
  tables {s} hs := ⟨agree_kept.tables hs.1, ⟨reset_accounts_wf, hs.2.stations, fun i e he => (nomatch he),
    fun i => List.nodup_nil, fun i => le_rfl⟩⟩
  warm {s} hs := by
    refine ⟨agree_kept.warm hs.1, ?_⟩
    have hclear : ∀ n, ((rearmLogLow (clearHost (resetBlocks s))).st n).session = none := fun n => by
      rw [rearmed_st]
      exact (resetTurns_ends (fun m => (hs.1 m).path) n).1
    have hplace : ∀ n u, (u.Backed ∧ ∀ m, (u.st m).session = none) →
        (placeStation n u).Backed ∧ ∀ m, ((placeStation n u).st m).session = none := fun n u ⟨hb, hn⟩ => by
      refine ⟨backed_placeStation (hn n) hb, fun m => ?_⟩
      by_cases hm : m = n
      · subst hm; rw [placeStation_session]; exact hn m
      · rw [(internal_placeStation n u).others m hm]; exact hn m
    exact (atEach_keeps (P := fun u => u.Backed ∧ ∀ m, (u.st m).session = none) hplace _ _
      ⟨backed_rearmed hs, hclear⟩).1
  takes {ts tf timing n s} hj hs := by
    refine ⟨agree_kept.takes hj hs.1, ?_⟩
    have hx := hs.2.stations n
    refine backed_at (internal_takeTariff tf timing n s).others rfl ?_
      (fun i a ho => by rw [st_takeTariff]; exact ho) hs.2
    rw [st_takeTariff]
    exact hx.takes (judgeStaged_sound hj) timing

/-- Settles O36: solvency is kept by what eases a station, by each unit and by the resets. -/
theorem availableFundsStayNonNegative : Obligations.AvailableFundsStayNonNegative := by
  refine ⟨fun c s t hs h => ?_, fun s t hs h => ?_⟩
  · exact (solvent_iff t).mpr (sound_kept.exec ((solvent_iff s).mp hs) h)
  · exact (solvent_iff t).mpr (sound_kept.step ((solvent_iff s).mp hs) h)

end Sys2Proof.Machine
end

section
/-! PROOF. The step, the state right after reset, cold reset, the table initialization and the shop clock (O1 to O5),
and TARIFF-QUERY (O21). -/

namespace Sys2Proof.Machine

/-- Settles O1, by the definition of a step. -/
theorem stepRunsFrontCommand : Obligations.StepRunsFrontCommand := by
  intro c rest s h
  rw [step, h]

/-- A station right after reset has its cold reset values (R2, R34). -/
theorem reset_st (n : StationId) : State.reset.st n = {} := by
  simp [State.reset, State.st]

/-- Settles O2, by evaluation at each station, account and rule. -/
theorem resetStateOfEveryBlock : Obligations.ResetStateOfEveryBlock := by
  refine ⟨fun n => ?_, fun i => ?_, rfl, rfl, fun k => ?_, rfl, rfl, rfl, rfl, rfl, rfl, rfl, rfl, rfl, rfl, rfl, rfl, rfl,
    rfl, rfl, rfl, rfl, rfl, rfl, rfl, rfl, rfl, rfl, fun src => ?_, rfl, rfl, rfl, rfl⟩
  · rw [reset_st]
    decide
  · exact ⟨rfl, rfl, rfl, rfl, rfl, rfl, rfl, rfl, rfl, rfl, rfl, rfl, rfl⟩
  · simp [State.reset]
  · cases src <;> exact ⟨rfl, rfl⟩

/-- The stations after reset agree with their states (R34). -/
theorem reset_agree : State.reset.Agree := fun n => by
  rw [reset_st]
  exact coldStation_agrees []

/-- No account has an entry after reset (R107). -/
theorem reset_backed : State.reset.Backed where
  tables := reset_accounts_wf
  stations n := by
    rw [reset_st]
    exact ⟨fun _ h => (nomatch h), fun _ _ h => (nomatch h), fun h => (nomatch h), fun _ _ _ h => (nomatch h),
      fun _ h => h.elim (fun h => nomatch h) (fun h => nomatch h), fun _ => rfl⟩
  owned _ _ h := nomatch h
  once _ := List.nodup_nil
  funds _ := le_rfl

/-- Settles O3. -/
theorem resetMeetsTheInvariants : Obligations.ResetMeetsTheInvariants :=
  ⟨⟨Nat.zero_le 256, trivial⟩, reset_accounts_wf, ⟨Nat.zero_le 4096, by simp [State.reset], List.Pairwise.nil⟩, reset_inRange,
    (solvent_iff _).mpr ⟨reset_agree, reset_backed⟩, reset_agree⟩

/-- Settles O4, by the state that a cold reset leaves. -/
theorem coldResetResult : Obligations.ColdResetResult := by
  intro strap1 strap0 lost s
  refine ⟨coldState (strapRate strap1 strap0) lost s, rfl, fun n => ?_, rfl, rfl, rfl, rfl, rfl, rfl, rfl, rfl, rfl,
    fun _ => rfl, rfl, rfl, rfl, rfl, rfl, rfl, rfl, rfl, rfl, rfl, rfl, ?_, rfl, rfl⟩
  · rw [coldState_st, reset_st]
  · cases strap1 <;> cases strap0 <;> rfl

/-- Settles O5, by the states that the two rows leave. -/
theorem tableInitializationAndClock : Obligations.TableInitializationAndClock := by
  refine ⟨fun s h => ⟨initializeTables s, ?_, fun _ => rfl, rfl, rfl, rfl⟩, fun s h => ?_⟩
  · show execTableInitializationComplete s = _
    rw [execTableInitializationComplete, h]
    rfl
  · show Host.Outcome.next { s with clock := (s.clock + 1) % 4294967296 } = _
    congr 2
    split <;> omega

/-! ## TARIFF-QUERY (R87) -/

/-- A command's byte that names a station. -/
theorem onStation_at {p : List Byte} {off : Nat} {n : StationId} (h : fieldAt p off 1 = n.val) (s : State)
    (k : StationId → Handled) : onStation p off s k = k n := by
  rw [onStation, stationOf, h, dif_pos n.isLt]

/-- A command's byte above 15 names no station. -/
theorem onStation_beyond {p : List Byte} {off : Nat} (h : 15 < fieldAt p off 1) (s : State)
    (k : StationId → Handled) : onStation p off s k = refuse .badParameter s := by
  rw [onStation, stationOf, dif_neg (by omega)]

/-- A byte of a payload is read as its number. -/
@[simp] theorem fieldAt_zero_cons (b : Byte) (p : List Byte) : fieldAt (b :: p) 0 1 = b.toNat := by
  simp [fieldAt, natOf]

@[simp] theorem fieldAt_one_cons (a b : Byte) (p : List Byte) : fieldAt (a :: b :: p) 1 1 = b.toNat := by
  simp [fieldAt, natOf]

/-- The rows of TARIFF-QUERY at the head of the queue answer what their rules give, each for its target and for those
that select none. -/
theorem runCommand_tariffQuery {s : State} {tag target station : Byte} {rest : List Frame} {form : Nat}
    {rule : List Byte → State → Handled} {status : Status} {data : List Byte}
    (h : Executing s ⟨0x0F#8, tag, [target, station]⟩ rest) (hf : target.toNat = form ∨ 3 < target.toNat)
    (hr : rule [target, station] s = (status, data, s)) :
    runCommand (ofForm 0x0F form) rule s = answered s rest ⟨0x0F#8, tag, [target, station]⟩ status data := by
  refine runCommand_answers h ?_ rfl (fun ht => absurd ht Bool.false_ne_true) hr rfl
  have hform : formOf 0x0F [target, station] = if target.toNat < 4 then some target.toNat else none := by
    simp [formOf]
  have hcode : ofCode 0x0F ⟨0x0F#8, tag, [target, station]⟩ = true := rfl
  rw [ofForm, hcode, hform]
  obtain hf | hf := hf
  · split <;> simp [hf]
  · rw [if_neg (by omega)]
    simp

/-- Settles O21: the four rules leave the state, and the operands out of range are refused. -/
theorem tariffQueryResults : Obligations.TariffQueryResults := by
  refine fun s tag station rest => ⟨fun h => ?_, fun h => ?_, fun h => ⟨fun n hn => ?_, fun hb => ?_⟩,
    fun h => ⟨fun n hn => ?_, fun hb => ?_⟩, fun target ht h => ?_⟩
  · exact congrArg Host.Outcome.next (runCommand_tariffQuery h (.inl rfl) rfl)
  · exact congrArg Host.Outcome.next (runCommand_tariffQuery h (.inl rfl) rfl)
  · refine congrArg Host.Outcome.next (runCommand_tariffQuery h (.inl rfl) ?_)
    exact onStation_at (by simpa using hn.symm) s _
  · refine congrArg Host.Outcome.next (runCommand_tariffQuery h (.inl rfl) ?_)
    exact onStation_beyond (by simpa using hb) s _
  · refine congrArg Host.Outcome.next (runCommand_tariffQuery h (.inl rfl) ?_)
    exact onStation_at (by simpa using hn.symm) s _
  · refine congrArg Host.Outcome.next (runCommand_tariffQuery h (.inl rfl) ?_)
    exact onStation_beyond (by simpa using hb) s _
  · refine congrArg Host.Outcome.next (runCommand_tariffQuery h (.inr ht) ?_)
    rw [ruleTariffQueryStatus, tariffQuery, if_neg (by simp; omega)]
    rfl

end Sys2Proof.Machine
end

section
/-! PROOF. The host link: its receiver byte by byte (O7), and its transmitter (O11). -/

namespace Sys2Proof.Machine

/-! ## The receiver (R190, R191) -/

/-- Counting one more is counting up to the top. -/
theorem satAdd_one (n : Nat) : satAdd max32 n 1 = min 4294967295 (n + 1) := rfl

/-- Within a frame that is still short, bytes are only gathered (R190). -/
theorem bytes_gather (h : HostLink) (len : Byte) (xs : List Byte) :
    ∀ rest : List Byte, rest.length + xs.length < len.toNat + 4 →
      xs.foldl HostLink.byte { h with rx := .inFrame (len :: rest) } = { h with rx := .inFrame (len :: rest ++ xs) } := by
  induction xs with
  | nil => simp
  | cons x xs ih =>
    intro rest hlen
    rw [List.length_cons] at hlen
    have hshort : ¬ (len :: rest ++ [x]).length = len.toNat + 5 := by simp; omega
    have hbyte : HostLink.byte { h with rx := .inFrame (len :: rest) } x =
        { h with rx := .inFrame (len :: (rest ++ [x])) } := if_neg hshort
    rw [List.foldl_cons, hbyte, ih (rest ++ [x]) (by simp; omega)]
    simp

/-- A whole frame that arrives at a hunting receiver is judged with its last byte (R190). -/
theorem hostBytes_frame {h : HostLink} (hx : h.rx = .hunting) {len last : Byte} {mid : List Byte}
    (hlow : len.toNat ≤ 240) (hmid : mid.length = len.toNat + 3) :
    hostBytes (0xA5#8 :: len :: (mid ++ [last])) h = h.complete (len :: mid ++ [last]) := by
  have hself : { h with rx := .hunting } = h := by rw [← hx]
  have hstart : h.byte 0xA5#8 = { h with rx := .inFrame [] } := by simp [HostLink.byte, hx]
  have hlen : HostLink.byte { h with rx := .inFrame [] } len = { h with rx := .inFrame [len] } :=
    if_neg (Nat.not_lt.mpr hlow)
  have hwhole : (len :: mid ++ [last]).length = len.toNat + 5 := by simp [hmid]
  have hlast : HostLink.byte { h with rx := .inFrame (len :: mid) } last =
      ({ h with rx := .hunting } : HostLink).complete (len :: mid ++ [last]) := if_pos hwhole
  rw [hostBytes, List.foldl_cons, hstart, List.foldl_cons, hlen, List.foldl_append,
    bytes_gather h len mid [] (by simp [hmid])]
  exact hlast.trans (by rw [hself])

/-- A frame of a payload of up to 240 bytes, with some check bytes, is judged as it stands (R190, R205). -/
theorem hostBytes_payload {h : HostLink} (hx : h.rx = .hunting) (type tag high low : Byte) {payload : List Byte}
    (hp : payload.length ≤ 240) :
    hostBytes (0xA5#8 :: be1 payload.length ++ [type, tag] ++ payload ++ [high, low]) h =
      if natOf [high, low] = (crc16 (be1 payload.length ++ [type, tag] ++ payload)).toNat then
        h.offer { type := type, tag := tag, payload := payload }
      else { h with crcFailures := satAdd max32 h.crcFailures 1 } := by
  have hlen : (BitVec.ofNat 8 payload.length).toNat = payload.length := by simp; omega
  have hframe := hostBytes_frame (mid := [type, tag] ++ payload ++ [high]) (last := low) hx (hlen.trans_le hp)
    (by simp; omega)
  have hbytes : 0xA5#8 :: be1 payload.length ++ [type, tag] ++ payload ++ [high, low] =
      0xA5#8 :: BitVec.ofNat 8 payload.length :: ([type, tag] ++ payload ++ [high] ++ [low]) := by simp [be1]
  have hbody : BitVec.ofNat 8 payload.length :: ([type, tag] ++ payload ++ [high]) ++ [low] =
      (be1 payload.length ++ [type, tag] ++ payload) ++ [high, low] := by simp [be1]
  rw [hbytes, hframe, hbody, HostLink.complete]
  have hk : (be1 payload.length ++ [type, tag] ++ payload ++ [high, low]).length - 2 =
      (be1 payload.length ++ [type, tag] ++ payload).length := by
    rw [List.length_append]
    exact Nat.add_sub_cancel _ 2
  rw [hk, List.take_left, List.drop_left]
  rfl

/-- The two check bytes of a frame are its check (R205). -/
theorem natOf_check (c : BitVec 16) : ∃ high low : Byte, be2 c.toNat = [high, low] ∧ natOf [high, low] = c.toNat :=
  ⟨_, _, rfl, natOf_be2 c.isLt⟩

/-- Settles O7, byte by byte through the receiver. -/
theorem hostReceiverJudgesFrames : Obligations.HostReceiverJudgesFrames := by
  refine ⟨fun s type tag payload hp hx => congrArg Host.Outcome.next ?_,
    fun s type tag high low payload hp hx hc => congrArg Host.Outcome.next ?_,
    fun s len hl hx => congrArg Host.Outcome.next ?_, fun s bytes hx => congrArg Host.Outcome.next ?_⟩
  · obtain ⟨high, low, hbytes, hcheck⟩ := natOf_check (crc16 (be1 payload.length ++ [type, tag] ++ payload))
    have hwhole : hostFrame type tag payload = 0xA5#8 :: be1 payload.length ++ [type, tag] ++ payload ++ [high, low] := by
      rw [← hbytes]
      rfl
    rw [State.modHost, hwhole, hostBytes_payload hx type tag high low hp, if_pos hcheck]
    rfl
  · rw [State.modHost, hostBytes_payload hx type tag high low hp, if_neg hc, satAdd_one]
  · have hstart : s.host.byte 0xA5#8 = { s.host with rx := .inFrame [] } := by simp [HostLink.byte, hx]
    have hlen : HostLink.byte { s.host with rx := .inFrame [] } len =
        ({ s.host with rx := .inFrame [] } : HostLink).abandon := if_pos hl
    rw [State.modHost, hostBytes, List.foldl_cons, hstart, List.foldl_cons, hlen, List.foldl_nil, HostLink.abandon, satAdd_one,
      ← hx]
  · rw [State.modHost, HostLink.gap, hx]
    rfl

/-! ## The transmitter (R197, R200, R206) -/

/-- The arbiter's choice between the best source so far and the next in source order (R200). -/
def Notices.better (ns : Notices) (best : Option NoticeSource) (src : NoticeSource) : Option NoticeSource :=
  if ns.sendable src then
    match best with
    | none => some src
    | some b => if ns.sources[b.index].level < ns.sources[src.index].level then some src else some b
  else best

/-- The arbiter takes the sources in their order (R200). -/
theorem nextNotice_eq (ns : Notices) : nextNotice ns = noticeOrder.foldl ns.better none := rfl

/-- Sources before a higher one leave none, or a lower one, as the best so far. -/
theorem better_below {ns : Notices} {level : Nat} (l : List NoticeSource)
    (hl : ∀ x ∈ l, ns.sendable x = true → ns.sources[x.index].level < level) :
    ∀ best : Option NoticeSource, (∀ b ∈ best, ns.sources[b.index].level < level) →
      ∀ b ∈ l.foldl ns.better best, ns.sources[b.index].level < level := by
  induction l with
  | nil => exact fun _ h => h
  | cons x l ih =>
    obtain ⟨hx, hl⟩ := List.forall_mem_cons.mp hl
    intro best hbest
    refine ih hl _ fun b hb => ?_
    unfold Notices.better at hb
    split at hb
    case isFalse => exact hbest b hb
    case isTrue hs =>
      split at hb
      · obtain rfl := Option.some.inj hb
        exact hx hs
      · split at hb
        · obtain rfl := Option.some.inj hb
          exact hx hs
        · exact hbest b hb

/-- A best source stays the best as long as none higher follows. -/
theorem better_stays {ns : Notices} {src : NoticeSource} (l : List NoticeSource)
    (hl : ∀ x ∈ l, ns.sendable x = true → ns.sources[x.index].level ≤ ns.sources[src.index].level) :
    l.foldl ns.better (some src) = some src := by
  induction l with
  | nil => rfl
  | cons x l ih =>
    obtain ⟨hx, hl⟩ := List.forall_mem_cons.mp hl
    have hkeep : ns.better (some src) x = some src := by
      unfold Notices.better
      split
      case isFalse => rfl
      case isTrue hs => exact if_neg (Nat.not_lt.mpr (hx hs))
    rw [List.foldl_cons, hkeep, ih hl]

/-- The sources stand in the arbiter's list in their order. -/
theorem noticeOrder_ordered : noticeOrder.Pairwise (fun a b => a.index < b.index) := by decide

theorem mem_noticeOrder (src : NoticeSource) : src ∈ noticeOrder := by cases src <;> decide

/-- The arbiter chooses the sendable source of the highest level, the lowest number within it (R200). -/
theorem nextNotice_of_best {ns : Notices} {src : NoticeSource} (hs : ns.sendable src = true)
    (hbest : ∀ x, ns.sendable x = true → ns.sources[x.index].level < ns.sources[src.index].level ∨
      (ns.sources[x.index].level = ns.sources[src.index].level ∧ src.index ≤ x.index)) :
    nextNotice ns = some src := by
  obtain ⟨before, after, horder⟩ := List.append_of_mem (mem_noticeOrder src)
  have hordered := noticeOrder_ordered
  rw [horder, List.pairwise_append] at hordered
  obtain ⟨-, -, hbefore⟩ := hordered
  have hlower : ∀ x ∈ before, ns.sendable x = true → ns.sources[x.index].level < ns.sources[src.index].level := by
    intro x hx hsx
    obtain h | ⟨-, h⟩ := hbest x hsx
    · exact h
    · exact absurd (hbefore x hx src (by simp)) (not_lt.mpr h)
  have hfirst := better_below before hlower none (fun _ h => nomatch h)
  have htaken : ns.better (before.foldl ns.better none) src = some src := by
    unfold Notices.better
    rw [if_pos hs]
    split
    case h_1 => rfl
    case h_2 b hb => exact if_pos (hfirst b hb)
  rw [nextNotice_eq, horder, List.foldl_append, List.foldl_cons, htaken]
  refine better_stays after fun x _ hsx => ?_
  obtain h | ⟨h, -⟩ := hbest x hsx
  · exact h.le
  · exact h.le

/-- A source is sendable when it is pending and not masked (R197). -/
theorem sendable_iff (ns : Notices) (src : NoticeSource) : ns.sendable src = true ↔
    ns.sources[src.index].pending = true ∧ (src = .logLow ∨ ns.maskLevel ≤ ns.sources[src.index].level) := by
  simp [Notices.sendable]

/-- A reply has further segments when its data goes beyond the segment that is begun (R206). -/
theorem Reply.segments_iff (r : Reply) : r.segments ≤ r.begun + 1 ↔ ¬ 238 * (r.begun + 1) < r.data.length := by
  unfold Reply.segments
  omega

/-- The next segment of the oldest reply, where no RESET has been executed (R200, R206). -/
theorem sendReply_eq (r : Reply) (rest : List Reply) {h : HostLink} (hp : h.resetPhase = .none) :
    h.sendReply r rest = { h with
      line := hostFrame r.type r.tag (be1 r.status.code ++
        be1 (r.begun + (if 238 * (r.begun + 1) < r.data.length then 128 else 0)) ++
        (r.data.drop (238 * r.begun)).take 238)
      replies := if 238 * (r.begun + 1) < r.data.length then { r with begun := r.begun + 1 } :: rest else rest } := by
  have hlast := r.segments_iff
  have hmore : r.begun + 1 < r.segments ↔ 238 * (r.begun + 1) < r.data.length := by rw [← not_le, hlast, not_not]
  unfold HostLink.sendReply Reply.nextSegment
  rw [Nat.mul_comm r.begun 238]
  by_cases hm : 238 * (r.begun + 1) < r.data.length
  · simpa [hp, hmore.mpr hm, hlast, if_pos hm] using hm
  · simpa [hp, mt hmore.mp hm, hlast, if_neg hm] using Nat.not_lt.mp hm

/-- Settles O11: the reply list first, and with none in it the arbiter's choice. -/
theorem transmitterChoosesNextFrame : Obligations.TransmitterChoosesNextFrame := by
  refine ⟨fun s r rest hp hr => congrArg Host.Outcome.next ?_,
    fun s src hp hr hs hm hbest => congrArg Host.Outcome.next ?_⟩
  · rw [transmitNext, if_neg (by simp [hp]), hr]
    exact congrArg (fun h => { s with host := h }) (sendReply_eq r rest hp)
  · have hnext : nextNotice s.notices = some src :=
      nextNotice_of_best ((sendable_iff _ _).mpr ⟨hs, hm⟩) fun x hx =>
        hbest x ((sendable_iff _ _).mp hx).1 ((sendable_iff _ _).mp hx).2
    rw [transmitNext, if_neg (by simp [hp]), hr]
    simp only [hnext]
    rfl

end Sys2Proof.Machine
end

section
/-! PROOF. The judgements of a host command before its own rule (O8), the general commands (O9) and the notice commands
(O10). -/

namespace Sys2Proof.Machine

/-! ## The row of a frame (R192) -/

/-- How a row executes the command of a frame: by a rule, or as an account run. -/
inductive Runs (f : Frame) (row : State → Result) : Prop
  | command (mine : Frame → Bool) (rule : List Byte → State → Handled) (hm : mine f = true)
      (hrow : ∀ s, row s = .next (runCommand mine rule s))
  | accounts (code : Nat) (rule : Run → List Byte → State → RunStep) (hc : ofCode code f = true)
      (hrun : code = 0x17 ∨ code = 0x19) (hrow : ∀ s, row s = .next (runAccounts code rule s))

/-- A frame whose payload selects a form, or none, is of the row of that form. -/
theorem ofForm_of {code form : Nat} {f : Frame} (hc : f.type.toNat = code)
    (hf : formOf code f.payload = some form ∨ formOf code f.payload = none) : ofForm code form f = true := by
  have hcode : ofCode code f = true := decide_eq_true hc
  obtain hf | hf := hf <;> simp [ofForm, hcode, hf]

/-- TARIFF-QUERY has four forms, and the other commands of several forms fewer. -/
theorem formOf_bound (code : Nat) (p : List Byte) {k : Nat} (h : formOf code p = some k) :
    k < 4 ∧ (code = 0x16 → k < 2) ∧ (code = 0x1E → k < 2) ∧ (code = 0x22 → k < 3) := by
  unfold formOf at h
  split at h
  case h_1 => split at h <;> simp_all
  case h_2 => split at h <;> simp_all; omega
  case h_3 => split at h <;> simp_all; omega
  case h_4 => simp_all; omega
  case h_5 => simp_all; omega
  case h_6 => split at h <;> simp_all; omega
  case h_7 => simp at h

/-- The row of TARIFF-QUERY's frame. -/
theorem runs_tariffQuery {f : Frame} (hc : f.type.toNat = 0x0F) : Runs f (exec (rowOf f)) := by
  have hb := fun k => formOf_bound 0x0F f.payload (k := k)
  have hrow : rowOf f = match formOf 0x0F f.payload with
    | some 1 => .tariffQueryStaged | some 2 => .tariffQueryActive | some 3 => .tariffQueryNext
    | _ => .tariffQueryStatus := by
    unfold rowOf
    rw [hc]
    rfl
  rw [hrow]
  split
  case h_1 h => exact .command _ ruleTariffQueryStaged (ofForm_of hc (.inl h)) fun _ => rfl
  case h_2 h => exact .command _ ruleTariffQueryActive (ofForm_of hc (.inl h)) fun _ => rfl
  case h_3 h => exact .command _ ruleTariffQueryNext (ofForm_of hc (.inl h)) fun _ => rfl
  case h_4 h1 h2 h3 =>
    refine .command _ ruleTariffQueryStatus (ofForm_of (form := 0) hc ?_) fun _ => rfl
    cases hf : formOf 0x0F f.payload with
    | none => exact .inr rfl
    | some k =>
      obtain ⟨hk, -⟩ := hb k hf
      have h1' : k ≠ 1 := fun e => h1 (e ▸ hf)
      have h2' : k ≠ 2 := fun e => h2 (e ▸ hf)
      have h3' : k ≠ 3 := fun e => h3 (e ▸ hf)
      exact .inl (congrArg some (by omega))

/-- The row of AUDIT-CONTROL's frame. -/
theorem runs_auditControl {f : Frame} (hc : f.type.toNat = 0x22) : Runs f (exec (rowOf f)) := by
  have hrow : rowOf f = match formOf 0x22 f.payload with
    | some 1 => .auditControlStop | some 2 => .auditControlClear | _ => .auditControlStart := by
    unfold rowOf
    rw [hc]
    rfl
  rw [hrow]
  split
  case h_1 h => exact .command _ ruleAuditStop (ofForm_of hc (.inl h)) fun _ => rfl
  case h_2 h => exact .command _ ruleAuditClear (ofForm_of hc (.inl h)) fun _ => rfl
  case h_3 h1 h2 =>
    refine .command _ ruleAuditStart (ofForm_of (form := 0) hc ?_) fun _ => rfl
    cases hf : formOf 0x22 f.payload with
    | none => exact .inr rfl
    | some k =>
      obtain ⟨-, -, -, hk⟩ := formOf_bound 0x22 f.payload hf
      have h1' : k ≠ 1 := fun e => h1 (e ▸ hf)
      have h2' : k ≠ 2 := fun e => h2 (e ▸ hf)
      exact .inl (congrArg some (by have := hk rfl; omega))

/-- A payload that does not select form 1 of a command with two forms selects form 0, or none. -/
theorem formOf_zero {code : Nat} {p : List Byte} (hcode : code = 0x16 ∨ code = 0x1E) (h : formOf code p ≠ some 1) :
    formOf code p = some 0 ∨ formOf code p = none := by
  cases hf : formOf code p with
  | none => exact .inr rfl
  | some k =>
    obtain ⟨-, hquery, hfetch, -⟩ := formOf_bound code p hf
    have hk : k < 2 := hcode.elim hquery hfetch
    have hne : k ≠ 1 := fun e => h (e ▸ hf)
    exact .inl (congrArg some (by omega))

/-- The row of BINDING-QUERY's frame. -/
theorem runs_bindingQuery {f : Frame} (hc : f.type.toNat = 0x16) : Runs f (exec (rowOf f)) := by
  have hrow : rowOf f = if formOf 0x16 f.payload = some 1 then .bindingQueryByPosition else .bindingQueryByCard := by
    unfold rowOf
    rw [hc]
    rfl
  rw [hrow]
  split
  case isTrue h => exact .command _ ruleBindingByPosition (ofForm_of hc (.inl h)) fun _ => rfl
  case isFalse h => exact .command _ ruleBindingByCard (ofForm_of hc (formOf_zero (.inl rfl) h)) fun _ => rfl

/-- The row of AUTH-FETCH's frame. -/
theorem runs_authFetch {f : Frame} (hc : f.type.toNat = 0x1E) : Runs f (exec (rowOf f)) := by
  have hrow : rowOf f = if formOf 0x1E f.payload = some 1 then .authFetchOutstanding else .authFetchNew := by
    unfold rowOf
    rw [hc]
    rfl
  rw [hrow]
  split
  case isTrue h => exact .command _ ruleAuthFetchOutstanding (ofForm_of hc (.inl h)) fun _ => rfl
  case isFalse h => exact .command _ ruleAuthFetchNew (ofForm_of hc (formOf_zero (.inr rfl) h)) fun _ => rfl

/-- Each of the thirty-eight commands has a row that executes it (R192, R206). -/
theorem runs_rowOf {f : Frame} (h : isCommand f.type = true) : Runs f (exec (rowOf f)) := by
  have hrange : 1 ≤ f.type.toNat ∧ f.type.toNat ≤ 38 := by simpa [isCommand] using h
  by_cases hq : f.type.toNat = 0x0F
  · exact runs_tariffQuery hq
  by_cases hb : f.type.toNat = 0x16
  · exact runs_bindingQuery hb
  by_cases hf : f.type.toNat = 0x1E
  · exact runs_authFetch hf
  by_cases ha : f.type.toNat = 0x22
  · exact runs_auditControl ha
  by_cases hw : f.type.toNat = 0x17
  · have hrow : rowOf f = .accountWriteRecords none := by
      unfold rowOf
      rw [hw]
      rfl
    exact hrow ▸ .accounts 0x17 _ (decide_eq_true hw) (.inl rfl) fun _ => rfl
  by_cases hr : f.type.toNat = 0x19
  · have hrow : rowOf f = .accountRead none := by
      unfold rowOf
      rw [hr]
      rfl
    exact hrow ▸ .accounts 0x19 _ (decide_eq_true hr) (.inr rfl) fun _ => rfl
  -- every other command has one row, which is of its code
  unfold rowOf
  split
  case h_15 h => exact absurd h hq
  case h_22 h => exact absurd h hb
  case h_23 h => exact absurd h hw
  case h_25 h => exact absurd h hr
  case h_30 h => exact absurd h hf
  case h_34 h => exact absurd h ha
  case h_39 =>
    simp only [imp_false] at *
    omega
  all_goals exact .command _ _ (decide_eq_true ‹_›) fun _ => rfl

/-! ## The judgements before a command's rule (R192) -/

/-- A frame that is refused before its own rule is answered with that status alone. -/
theorem judge_refused {f : Frame} {s : State} {status : Status} (rule : List Byte → State → Handled)
    (h : refusedBefore f s = some status) : judge rule f s = refuse status s := by
  simp [judge, h]

/-- A row answers a command that is refused before its own rule with the refusal, and changes nothing else. -/
theorem Runs.refused {f : Frame} {row : State → Result} (h : Runs f row) {s : State} {rest : List Frame}
    {status : Status} (he : Executing s f rest) (hr : refusedBefore f s = some status) :
    row s = .next (answered s rest f status []) := by
  obtain ⟨-, -, -, hq⟩ := id he
  cases h with
  | command mine rule hm hrow =>
    rw [hrow, runCommand_head rule (headCommand_eq he) hm, judge_refused rule hr]
    exact congrArg _ (complete_eq_answered hq status [])
  | accounts code rule hc hrun hrow =>
    have hstep : judgeRun rule f {} s = .ended (refuse status s) := by simp [judgeRun, hr]
    rw [hrow, runAccounts, headRun_begins he]
    simp only [hc, if_true, hstep]
    exact congrArg _ (complete_eq_answered hq status [])

/-- A row changes nothing where no command may execute and no run is executing. -/
theorem Runs.idle {f : Frame} {row : State → Result} (h : Runs f row) {s : State} (hh : s.headCommand = none)
    (hrun : s.host.run = none) : row s = .next s := by
  cases h with
  | command mine rule hm hrow => rw [hrow, runCommand_none mine rule hh]
  | accounts code rule hc hcode hrow =>
    have hhead : s.headRun = none := by simp [State.headRun, hrun, hh]
    rw [hrow, runAccounts, hhead]

/-- The row of UNKNOWN_COMMAND changes nothing where no command may execute. -/
theorem execUnknownCommand_idle {s : State} (hh : s.headCommand = none) : exec .unknownCommand s = .next s := by
  show execUnknownCommand s = _
  rw [execUnknownCommand, hh]

/-- The row of a type that names no command is UNKNOWN_COMMAND's (R192). -/
theorem rowOf_unknown {f : Frame} (h : ¬ isCommand f.type = true) : rowOf f = .unknownCommand := by
  have hrange : f.type.toNat = 0 ∨ 38 < f.type.toNat := by
    simp [isCommand] at h
    omega
  unfold rowOf
  split
  case h_39 => rfl
  all_goals omega

/-- Settles O8: the refusals before a command's rule, and the rows while no command may execute. -/
theorem hostCommandJudgements : Obligations.HostCommandJudgements := by
  refine ⟨fun s f rest he hu => ?_, fun s f rest he hc hs => ?_, fun s f rest he hlow hhigh hs ht => ?_,
    fun s f rest hq hrun hfull => ?_, fun s f rest hq hrun hw hr => ?_⟩
  · have hnot : ¬ isCommand f.type = true := by
      obtain hz | hz := hu
      · simp [isCommand, hz]
      · simp [isCommand]
        omega
    obtain ⟨hn, -, -, hq⟩ := id he
    show execUnknownCommand s = _
    rw [execUnknownCommand, headCommand_eq he]
    simp [hnot, complete, State.modHost, hq, hn]
  · exact (runs_rowOf hc).refused he (by simp [refusedBefore, hs])
  · have hc : isCommand f.type = true := by
      simp [isCommand]
      omega
    have htouch : touchesTables f.type = true := by simp [touchesTables, hlow, hhigh]
    exact (runs_rowOf hc).refused he (by simp [refusedBefore, hs, htouch, ht])
  · have hh : s.headCommand = none := by
      obtain hl | hp := hfull
      · simp [State.headCommand, State.mayExecute, Nat.not_lt.mpr hl]
      · simp [State.headCommand, State.mayExecute, hp]
    by_cases hc : isCommand f.type = true
    · exact (runs_rowOf hc).idle hh hrun
    · rw [rowOf_unknown hc]
      exact execUnknownCommand_idle hh
  · have hh := headCommand_running hrun
    by_cases hc : isCommand f.type = true
    · cases runs_rowOf hc with
      | command mine rule hm hrow => rw [hrow, runCommand_none mine rule hh]
      | accounts code rule hcode hrunCode hrow =>
        have htype : f.type.toNat = code := of_decide_eq_true hcode
        obtain rfl | rfl := hrunCode
        · exact absurd (BitVec.eq_of_toNat_eq htype) hw
        · exact absurd (BitVec.eq_of_toNat_eq htype) hr
    · rw [rowOf_unknown hc]
      exact execUnknownCommand_idle hh

/-! ## The general commands (R193 to R195) -/

/-- Four bytes read back as the number they were written from (R204). -/
theorem natOf_be4 {n : Nat} (h : n < 4294967296) : natOf (be4 n) = n := by
  simp [natOf, be4, be2, be1]
  omega

@[simp] theorem length_be4 (n : Nat) : (be4 n).length = 4 := by simp [be4]

/-- The first four bytes of a payload. -/
theorem fieldAt_be4 {n : Nat} (h : n < 4294967296) (y : List Byte) : fieldAt (be4 n ++ y) 0 4 = n :=
  (fieldAt_head (length_be4 n) y).trans (natOf_be4 h)

theorem fieldAt_be4_alone {n : Nat} (h : n < 4294967296) : fieldAt (be4 n) 0 4 = n := by
  simpa using fieldAt_be4 h []

/-- The design revision is some number from 1 to 255 (R193). -/
theorem designRevision_range : 1 ≤ Config.designRevision ∧ Config.designRevision ≤ 255 := by
  unfold Config.designRevision
  omega

/-- Settles O9. -/
theorem generalCommandResults : Obligations.GeneralCommandResults := by
  refine ⟨⟨Config.designRevision, designRevision_range.1, designRevision_range.2,
      fun s tag rest h => congrArg Host.Outcome.next ?_⟩,
    fun s tag rest seconds hsec h => congrArg Host.Outcome.next ?_, fun s tag rest h => congrArg Host.Outcome.next ?_⟩
  · refine runCommand_answers h rfl rfl (fun ht => absurd ht Bool.false_ne_true) ?_ rfl
    have hkind : s.host.lastReset.code = if s.host.lastReset = .warm then 1 else 0 := by
      cases s.host.lastReset <;> rfl
    simp only [ruleIdentify, report, identifyData, beFlag, beTime, hkind, List.append_assoc]
  · refine runCommand_answers h rfl rfl (fun ht => absurd ht Bool.false_ne_true) ?_ rfl
    rw [ruleSetTime, fieldAt_be4_alone hsec]
    rfl
  · obtain ⟨-, -, -, hq⟩ := id h
    rw [runCommand_head ruleReset (headCommand_eq h) rfl,
      judge_rule (f := ⟨0x03#8, tag, []⟩) rfl (fun ht => absurd ht Bool.false_ne_true)]
    exact complete_eq_answered (t := s.modHost (fun x => { x with resetPhase := .replyListed })) hq .ok []

/-! ## The notice commands (R197, R198) -/

/-- A source after its levels are replaced (R197). -/
theorem withLevels_source (levels : List Nat) (ns : Notices) (i : Fin 12) : (ns.withLevels levels).sources[i] =
    if i.val = 0 then ns.sources[i] else { ns.sources[i] with level := levels.getD (i.val - 1) 0 } := by
  simp [Notices.withLevels]

/-- A byte of a list, as a number. -/
theorem getD_toNat (l : List Byte) (k : Nat) : (l.map BitVec.toNat).getD k 0 = (l.getD k 0#8).toNat := by
  simp only [List.getD_eq_getElem?_getD, List.getElem?_map]
  cases l[k]? <;> rfl

/-- Settles O10. -/
theorem noticeCommandResults : Obligations.NoticeCommandResults := by
  refine ⟨fun s tag rest levels hlen h => ⟨fun hall => ?_, fun hany => ?_⟩, fun s tag mask rest h => ?_,
    fun s tag rest h => congrArg Host.Outcome.next ?_⟩
  · refine ⟨s.notices.withLevels (levels.map BitVec.toNat), congrArg Host.Outcome.next ?_, rfl, fun i => ?_⟩
    · refine runCommand_answers h rfl (by simp [sizeAllowed, hlen]) (fun ht => absurd ht Bool.false_ne_true) ?_ rfl
      rw [ruleNoticeConfig, if_neg (by simpa using hall)]
      rfl
    · rw [withLevels_source, getD_toNat]
      split
      · exact ⟨rfl, rfl, rfl⟩
      · exact ⟨rfl, rfl, rfl⟩
  · refine congrArg Host.Outcome.next
      (runCommand_answers h rfl (by simp [sizeAllowed, hlen]) (fun ht => absurd ht Bool.false_ne_true) ?_ rfl)
    obtain ⟨l, hl, hbig⟩ := hany
    exact if_pos (List.any_eq_true.mpr ⟨l.toNat, List.mem_map_of_mem hl, decide_eq_true hbig⟩)
  · refine congrArg Host.Outcome.next ?_
    split
    case isTrue hm =>
      refine runCommand_answers h rfl rfl (fun ht => absurd ht Bool.false_ne_true) ?_ rfl
      rw [ruleNoticeMask, fieldAt_zero_cons, if_neg (Nat.not_lt.mpr hm)]
      rfl
    case isFalse hm =>
      refine runCommand_answers h rfl rfl (fun ht => absurd ht Bool.false_ne_true) ?_ rfl
      rw [ruleNoticeMask, fieldAt_zero_cons, if_pos (Nat.not_le.mp hm)]
      rfl
  · exact runCommand_answers h rfl rfl (fun ht => absurd ht Bool.false_ne_true) rfl rfl

end Sys2Proof.Machine
end

section
/-! PROOF. The station commands that set and report: STATION-CONFIG (O12), STATION-QUERY and STATION-LIST (O15), and the
audit commands (O41). -/

namespace Sys2Proof.Machine

/-! ## STATION-CONFIG (R3, R207) -/

/-- The payload that carries a station's settings (R207). -/
def settingsPayload (n : StationId) (c : Settings) : List Byte :=
  be1 n.val ++ be1 c.window ++ be1 c.startMode.code ++ be2 c.idleTime ++ be2 c.recoveryTime ++
    be2 c.confirmTime ++ be1 c.jamLimit ++ be1 c.auditThreshold ++ be1 c.probeMinutes ++
    be1 (if c.auditLock then 1 else 0)

/-- One byte is a payload's field of one byte. -/
theorem fieldAt_be1_alone {n : Nat} (h : n < 256) : fieldAt (be1 n) 0 1 = n := by
  simpa using fieldAt_be1 h []

/-- The code of a start mode is read back as the mode, and is one byte. -/
theorem startModeOf_code (m : StartMode) : startModeOf m.code = some m ∧ m.code < 256 := by
  cases m <;> exact ⟨rfl, by decide⟩

/-- Settings in range are read back from their payload (R207). -/
theorem settingsOf_payload (n : StationId) {c : Settings} (h : c.InRange) :
    settingsOf (settingsPayload n c) = some c := by
  obtain ⟨hw, hi, hr, hcf, hj, ht, hp⟩ := h
  obtain ⟨hmode, hmode256⟩ := startModeOf_code c.startMode
  have window : fieldAt (settingsPayload n c) 1 1 = c.window := by
    simp [settingsPayload, fieldAt_append, fieldAt_be1 (show c.window < 256 by omega)]
  have mode : fieldAt (settingsPayload n c) 2 1 = c.startMode.code := by
    simp [settingsPayload, fieldAt_append, fieldAt_be1 hmode256]
  have idle : fieldAt (settingsPayload n c) 3 2 = c.idleTime := by
    simp [settingsPayload, fieldAt_append, fieldAt_be2 (show c.idleTime < 65536 by omega)]
  have recovery : fieldAt (settingsPayload n c) 5 2 = c.recoveryTime := by
    simp [settingsPayload, fieldAt_append, fieldAt_be2 (show c.recoveryTime < 65536 by omega)]
  have confirm : fieldAt (settingsPayload n c) 7 2 = c.confirmTime := by
    simp [settingsPayload, fieldAt_append, fieldAt_be2 (show c.confirmTime < 65536 by omega)]
  have jam : fieldAt (settingsPayload n c) 9 1 = c.jamLimit := by
    simp [settingsPayload, fieldAt_append, fieldAt_be1 (show c.jamLimit < 256 by omega)]
  have threshold : fieldAt (settingsPayload n c) 10 1 = c.auditThreshold := by
    simp [settingsPayload, fieldAt_append, fieldAt_be1 (show c.auditThreshold < 256 by omega)]
  have probe : fieldAt (settingsPayload n c) 11 1 = c.probeMinutes := by
    simp [settingsPayload, fieldAt_append, fieldAt_be1 (show c.probeMinutes < 256 by omega)]
  have lock : decide (fieldAt (settingsPayload n c) 12 1 ≠ 0) = c.auditLock := by
    have hflag : (if c.auditLock then 1 else 0 : Nat) < 256 := by split <;> decide
    have action_auditControl : fieldAt (settingsPayload n c) 12 1 = if c.auditLock then 1 else 0 := by
      simp [settingsPayload, fieldAt_append, fieldAt_be1_alone hflag]
    rw [action_auditControl]
    cases c.auditLock <;> rfl
  rw [settingsOf, mode, hmode]
  simp only [window, idle, recovery, confirm, jam, threshold, probe, lock]
  exact if_pos ⟨hw.1, hw.2, hi.1, hi.2, hr.1, hr.2, hcf.1, hcf.2, hj.1, hj.2, hp⟩

/-- The first byte of a settings payload is the station's. -/
theorem station_settingsPayload (n : StationId) (c : Settings) : fieldAt (settingsPayload n c) 0 1 = n.val := by
  simp only [settingsPayload, List.append_assoc]
  exact fieldAt_be1 (by omega) _

/-- Fields out of range are no settings (R3). -/
theorem settingsOf_none {p : List Byte}
    (h : fieldAt p 1 1 < 2 ∨ 16 < fieldAt p 1 1 ∨ 1 < fieldAt p 2 1 ∨ fieldAt p 3 2 < 30 ∨
      900 < fieldAt p 3 2 ∨ fieldAt p 5 2 < 60 ∨ 1800 < fieldAt p 5 2 ∨ fieldAt p 7 2 < 10 ∨ 300 < fieldAt p 7 2 ∨
      fieldAt p 9 1 < 1 ∨ 9 < fieldAt p 9 1 ∨ (fieldAt p 11 1 ≠ 1 ∧ fieldAt p 11 1 ≠ 5)) : settingsOf p = none := by
  unfold settingsOf
  split
  case h_1 => rfl
  case h_2 mode hmode =>
    have hcode : fieldAt p 2 1 ≤ 1 := by
      by_contra hc
      unfold startModeOf at hmode
      split at hmode
      · omega
      · omega
      · exact nomatch hmode
    dsimp only
    exact if_neg (by omega)

/-- Settles O12: the payload of settings in range is read back, and one out of range is refused. -/
theorem stationConfigResult : Obligations.StationConfigResult := by
  refine ⟨fun s tag rest n c => fun h hc => congrArg Host.Outcome.next ?_,
    fun s tag rest p h hlen hbad => congrArg Host.Outcome.next ?_⟩
  · have hrule : ruleStationConfig (settingsPayload n c) s =
        if (s.st n).holdsSession then refuse .busy s else done (s.modSt n (fun x => { x with settings := c })) := by
      rw [ruleStationConfig, onStation_at (station_settingsPayload n c), settingsOf_payload n hc]
    have hsize : sizeAllowed 0x04#8 (settingsPayload n c).length = true := by simp [settingsPayload, sizeAllowed]
    by_cases hb : (s.st n).state = .authorizing ∨ (s.st n).session.isSome
    · rw [if_pos hb]
      exact runCommand_answers h rfl hsize (fun ht => absurd ht Bool.false_ne_true)
        (hrule.trans (if_pos (by simpa [Station.holdsSession] using hb))) rfl
    · rw [if_neg hb]
      exact runCommand_answers h rfl hsize (fun ht => absurd ht Bool.false_ne_true)
        (hrule.trans (if_neg (by simpa [Station.holdsSession] using hb))) rfl
  · refine runCommand_answers h rfl (by simp [sizeAllowed, hlen]) (fun ht => absurd ht Bool.false_ne_true) ?_ rfl
    obtain hst | hrange := hbad
    · exact onStation_beyond hst s _
    · rw [ruleStationConfig, onStation, settingsOf_none hrange]
      split <;> rfl

/-! ## STATION-QUERY and STATION-LIST (R32, R33) -/

/-- The mask of a station holds that station alone. -/
theorem getLsbD_maskOf (m n : StationId) : inMask (maskOf m) n = decide (m = n) := by
  revert m n
  decide

/-- The bitmap gathered from a list of stations holds those with the changed flag. -/
theorem inMask_gathered (s : State) (l : List StationId) (m : Mask) (n : StationId) :
    inMask (l.foldl (fun m n => if (s.st n).changed then m ||| maskOf n else m) m) n =
      (inMask m n || (decide (n ∈ l) && (s.st n).changed)) := by
  induction l generalizing m with
  | nil => simp
  | cons k l ih =>
    rw [List.foldl_cons, ih]
    have hmask : inMask (if (s.st k).changed then m ||| maskOf k else m) n =
        (inMask m n || (decide (k = n) && (s.st k).changed)) := by
      by_cases hc : (s.st k).changed = true
      · simp [hc, ← getLsbD_maskOf, inMask]
      · simp [hc]
    rw [hmask]
    by_cases hk : k = n
    · subst hk
      cases (s.st k).changed <;> simp
    · simp [hk, Ne.symm hk]

/-- The changed bitmap holds the stations with the changed flag (R33). -/
theorem inMask_changedBitmap (s : State) (n : StationId) : inMask (changedBitmap s) n = (s.st n).changed := by
  rw [changedBitmap, inMask_gathered]
  simp [inMask]

/-- Settles O15. -/
theorem stationReports : Obligations.StationReports := by
  refine ⟨fun s tag byte rest h => ⟨fun n hn => congrArg Host.Outcome.next ?_, fun hb => congrArg Host.Outcome.next ?_⟩,
    fun s tag rest h => ?_⟩
  · refine runCommand_answers h rfl rfl (fun ht => absurd ht Bool.false_ne_true) ?_ rfl
    exact onStation_at (by simpa using hn.symm) s _
  · refine runCommand_answers h rfl rfl (fun ht => absurd ht Bool.false_ne_true) ?_ rfl
    exact onStation_beyond (by simpa using hb) s _
  · refine ⟨{ s with stations := s.stations.map (fun x => { x with changed := false }) }, changedBitmap s,
      congrArg Host.Outcome.next ?_, inMask_changedBitmap s, rfl, fun n => by simp [State.st]⟩
    refine runCommand_answers h rfl rfl (fun ht => absurd ht Bool.false_ne_true) ?_ rfl
    simp [ruleStationList, report, stationListData, be1, List.map_eq_flatMap]

/-! ## The audit commands (R184 to R188) -/

/-- Turns that change one station each change nothing but the stations. -/
theorem atEach_stations {f : StationId → State → State}
    (hf : ∀ n s, f n s = { s with stations := (f n s).stations }) (l : List StationId) (s : State) :
    atEach l f s = { s with stations := (atEach l f s).stations } := by
  refine atEach_keeps (P := fun t => t = { s with stations := t.stations }) ?_ l s rfl
  intro n t ht
  have h := hf n t
  rw [ht] at h ⊢
  exact h

/-- The mask that a payload begins with reads back as the mask (R204). -/
theorem maskAt_be2_append (m : Mask) (y : List Byte) : maskAt (be2 m.toNat ++ y) 0 = m := by
  rw [maskAt, fieldAt_be2 m.isLt, BitVec.ofNat_toNat, BitVec.setWidth_eq]

/-- The action byte of an AUDIT-CONTROL payload. -/
theorem action_auditControl (mask : Mask) (action : Byte) :
    fieldAt (be2 mask.toNat ++ [action]) 2 1 = action.toNat := by simp [fieldAt_append]

/-- The form that an AUDIT-CONTROL payload selects is its action. -/
theorem formOf_auditControl (mask : Mask) (action : Byte) : formOf 0x22 (be2 mask.toNat ++ [action]) =
    if action.toNat < 3 then some action.toNat else none := by
  simp [formOf, action_auditControl]

/-- AUDIT-CONTROL's row of the form that its payload selects, or of any where it selects none, answers what its rule
gives. -/
theorem runCommand_auditControl {s t : State} {tag action : Byte} {rest : List Frame} {mask : Mask} {form : Nat}
    {rule : List Byte → State → Handled} {status : Status}
    (h : Executing s ⟨0x22#8, tag, be2 mask.toNat ++ [action]⟩ rest) (hf : action.toNat = form ∨ 2 < action.toNat)
    (hr : rule (be2 mask.toNat ++ [action]) s = (status, [], t)) (hh : t.host = s.host) :
    runCommand (ofForm 0x22 form) rule s =
      answered t rest ⟨0x22#8, tag, be2 mask.toNat ++ [action]⟩ status [] := by
  refine runCommand_answers h (ofForm_of rfl ?_) rfl (fun ht => absurd ht Bool.false_ne_true) hr hh
  show formOf 0x22 (be2 mask.toNat ++ [action]) = _ ∨ _
  rw [formOf_auditControl]
  obtain rfl | hf := hf
  · split <;> simp
  · exact .inr (if_neg (by omega))

/-- The action and the mask of an AUDIT-CONTROL payload select the stations to act at. -/
theorem auditControl_acts {action : Byte} {mask : Mask} (hm : mask ≠ 0#16) (act : StationId → State → State)
    (s : State) : auditControl action.toNat act (be2 mask.toNat ++ [action]) s =
      done (atEach (stationsOf mask) act s) := by
  rw [auditControl, action_auditControl, maskAt_be2_append, if_neg (by simp [hm])]

/-- A mask of no station, or an action that is none of the three, is refused. -/
theorem auditControl_refused {k : Nat} {action : Byte} {mask : Mask} (h : action.toNat ≠ k ∨ mask = 0#16)
    (act : StationId → State → State) (s : State) :
    auditControl k act (be2 mask.toNat ++ [action]) s = refuse .badParameter s := by
  rw [auditControl, action_auditControl, maskAt_be2_append, if_pos h]

theorem atStation_auditStop (n : StationId) (s : State) : AtStation n s (auditStop n s) := atStation_modSt s n _
theorem atStation_auditClear (n : StationId) (s : State) : AtStation n s (auditClear n s) := atStation_modSt s n _

/-- START changes nothing but its station. -/
theorem auditStart_stations (n : StationId) (s : State) :
    auditStart n s = { s with stations := (auditStart n s).stations } := by
  unfold auditStart
  dsimp only
  split <;> rfl

/-- A PROBE is listed once it has been produced (R202). -/
theorem mem_listProbe (l : List OutRecord) : OutRecord.probe ∈ listProbe l := by
  unfold listProbe
  split
  case isTrue h => simpa using h
  case isFalse => simp

/-- A station at which the audit has been started (R184). -/
theorem st_auditStart (n : StationId) (s : State) :
    ((auditStart n s).st n).audit = { state := .baseline, meterRequest := true } ∧
      ((auditStart n s).st n).state = (s.st n).state ∧
      ((s.st n).state ≠ .disabled → OutRecord.probe ∈ ((auditStart n s).st n).sendList) := by
  unfold auditStart
  dsimp only
  split
  case isTrue h => exact ⟨by simp [Audit.zeroed], by simp, fun hne => absurd h hne⟩
  case isFalse h => exact ⟨by simp [sendProbe, Audit.zeroed], by simp [sendProbe], fun _ => by simp [sendProbe, mem_listProbe]⟩

/-- Settles O41. -/
theorem auditCommandResults : Obligations.AuditCommandResults := by
  refine ⟨fun s tag rest mask hm => ⟨fun h => ?_, fun h => ?_, fun h => ?_⟩,
    fun s tag byte rest h => ⟨fun n hn => congrArg Host.Outcome.next ?_, fun hb => congrArg Host.Outcome.next ?_⟩,
    fun s tag action rest mask h hbad => ?_⟩
  · have hframe := atEach_stations auditStart_stations (stationsOf mask) s
    refine ⟨atEach (stationsOf mask) auditStart s, congrArg Host.Outcome.next ?_, hframe, fun n => ?_⟩
    · exact runCommand_auditControl h (.inl rfl) (auditControl_acts (action := 0#8) hm auditStart s) (by rw [hframe])
    · split
      case isTrue hn =>
        obtain ⟨u, hu, ht⟩ := atEach_st_of_mem atStation_auditStart s (nodup_stationsOf mask) (mem_stationsOf.mpr hn)
        rw [ht, ← hu]
        exact st_auditStart n u
      case isFalse hn => exact atEach_st_of_notMem atStation_auditStart s (mt mem_stationsOf.mp hn)
  · have hframe := atEach_stations (fun n s => rfl) (f := auditStop) (stationsOf mask) s
    refine ⟨atEach (stationsOf mask) auditStop s, congrArg Host.Outcome.next ?_, hframe, fun n => ?_⟩
    · exact runCommand_auditControl h (.inl rfl) (auditControl_acts (action := 1#8) hm auditStop s) (by rw [hframe])
    · by_cases hn : inMask mask n = true
      · obtain ⟨u, hu, ht⟩ := atEach_st_of_mem atStation_auditStop s (nodup_stationsOf mask) (mem_stationsOf.mpr hn)
        rw [ht, ← hu]
        by_cases ho : (u.st n).audit.state = .off <;> simp [auditStop, hn, ho]
      · rw [if_neg (fun hc => hn hc.1)]
        exact atEach_st_of_notMem atStation_auditStop s (mt mem_stationsOf.mp hn)
  · have hframe := atEach_stations (fun n s => rfl) (f := auditClear) (stationsOf mask) s
    refine ⟨atEach (stationsOf mask) auditClear s, congrArg Host.Outcome.next ?_, hframe, fun n => ?_⟩
    · exact runCommand_auditControl h (.inl rfl) (auditControl_acts (action := 2#8) hm auditClear s) (by rw [hframe])
    · split
      case isTrue hn =>
        obtain ⟨u, hu, ht⟩ := atEach_st_of_mem atStation_auditClear s (nodup_stationsOf mask) (mem_stationsOf.mpr hn)
        rw [ht, ← hu]
        cases hl : (u.st n).audit.latest <;> simp [auditClear, Audit.zeroed, hl]
      case isFalse hn => exact atEach_st_of_notMem atStation_auditClear s (mt mem_stationsOf.mp hn)
  · refine runCommand_answers h rfl rfl (fun ht => absurd ht Bool.false_ne_true) ?_ rfl
    exact onStation_at (by simpa using hn.symm) s _
  · refine runCommand_answers h rfl rfl (fun ht => absurd ht Bool.false_ne_true) ?_ rfl
    exact onStation_beyond (by simpa using hb) s _
  · have hbad' : ∀ k : Nat, k ≤ 2 → action.toNat ≠ k ∨ mask = 0#16 := fun k hk => hbad.imp (by omega) id
    show exec (match formOf 0x22 (be2 mask.toNat ++ [action]) with
      | some 1 => .auditControlStop | some 2 => .auditControlClear | _ => .auditControlStart) s = _
    rw [formOf_auditControl]
    split
    case h_1 hf =>
      refine congrArg Host.Outcome.next
        (runCommand_auditControl h (.inl ?_) (auditControl_refused (hbad' 1 (by decide)) auditStop s) rfl)
      split at hf
      · exact Option.some.inj hf
      · exact nomatch hf
    case h_2 hf =>
      refine congrArg Host.Outcome.next
        (runCommand_auditControl h (.inl ?_) (auditControl_refused (hbad' 2 (by decide)) auditClear s) rfl)
      split at hf
      · exact Option.some.inj hf
      · exact nomatch hf
    case h_3 hstop hclear =>
      refine congrArg Host.Outcome.next
        (runCommand_auditControl h ?_ (auditControl_refused (hbad' 0 (by decide)) auditStart s) rfl)
      by_contra hc
      have hrange : action.toNat = 1 ∨ action.toNat = 2 := by omega
      obtain h1 | h2 := hrange
      · exact hstop (by rw [h1]; rfl)
      · exact hclear (by rw [h2]; rfl)

end Sys2Proof.Machine
end

section
/-! PROOF. The card rule commands (O23) and the binding commands (O24): rules, card IDs and bindings read back from the
payloads that carry them. -/

namespace Sys2Proof.Machine

/-! ## Card rules (R93, R94, R209) -/

/-- A list is read entry by entry, when each entry is read back. -/
theorem mapM_map_eq_some {α β γ : Type} {enc : α → β} {dec : β → Option γ} {val : α → γ} :
    ∀ {l : List α}, (∀ x ∈ l, dec (enc x) = some (val x)) → (l.map enc).mapM dec = some (l.map val)
  | [], _ => by simp
  | x :: l, h => by
    obtain ⟨hx, hl⟩ := List.forall_mem_cons.mp h
    simp [hx, mapM_map_eq_some hl]

/-- A list with an entry that is not read is not read. -/
theorem mapM_eq_none_of_mem {α β : Type} {dec : α → Option β} {x : α} (hx : dec x = none) :
    ∀ {l : List α}, x ∈ l → l.mapM dec = none
  | y :: l, h => by
    cases hy : dec y with
    | none => simp [hy]
    | some b =>
      have hl : x ∈ l := (List.mem_cons.mp h).resolve_left fun e => by
        rw [← e, hx] at hy
        exact nomatch hy
      simp [hy, mapM_eq_none_of_mem hx hl]

/-- A digit of a pattern is read back from its byte. -/
theorem patternDigitOf_code {d : PatternDigit} (h : ∀ k, d = .digit k → k ≤ 9) :
    patternDigitOf (BitVec.ofNat 8 d.code) = some d := by
  cases d with
  | wildcard => rfl
  | digit k =>
    have hk := h k rfl
    have hval : (BitVec.ofNat 8 k).toNat = k := by simp; omega
    simp [patternDigitOf, PatternDigit.code, hval, hk]

/-- The bytes of a pattern, one to a digit. -/
theorem flatMap_code (l : List PatternDigit) :
    l.flatMap (fun d => be1 d.code) = l.map (fun d => BitVec.ofNat 8 d.code) := by
  simp [be1, List.map_eq_flatMap]

/-- The eight bytes of a pattern in a rule's payload (R209). -/
def patternBytes (r : Rule) : List Byte := ((r.pattern.flatMap (fun d => be1 d.code)) ++ zeros 8).take 8

theorem length_patternBytes (r : Rule) : (patternBytes r).length = 8 := by
  simp [patternBytes, zeros]

/-- The pattern's bytes begin with its digits. -/
theorem take_patternBytes {r : Rule} (h : r.pattern.length ≤ 8) :
    (patternBytes r).take r.pattern.length = r.pattern.map (fun d => BitVec.ofNat 8 d.code) := by
  rw [patternBytes, flatMap_code, List.take_take, Nat.min_eq_left h, List.take_append_of_le_length (by simp),
    List.take_of_length_le (by simp)]

/-- A rule's payload, its parts in order (R209). -/
theorem beRule_eq (k : Nat) (r : Rule) : beRule k r = be1 k ++ (beFlag r.enabled ++ (be1 r.length ++ (be1 r.offset ++
    (be1 r.pattern.length ++ (patternBytes r ++ (be1 r.action.code ++ be1 r.discountClass)))))) := by
  simp [beRule, patternBytes]

theorem length_beRule (k : Nat) (r : Rule) : (beRule k r).length = 15 := by
  simp [beRule_eq, beFlag, length_patternBytes]

/-- The code of a card action is read back as the action, and is one byte. -/
theorem cardActionOf_code (a : CardAction) : cardActionOf a.code = some a ∧ a.code < 256 := by
  cases a <;> exact ⟨rfl, by decide⟩

/-- The codes of the card actions are 0 to 3. -/
theorem cardActionOf_range {n : Nat} {a : CardAction} (h : cardActionOf n = some a) : n ≤ 3 := by
  unfold cardActionOf at h
  split at h
  case h_5 => exact nomatch h
  all_goals omega

/-- A rule fits when its length, offset, pattern and discount class are in range (R93). -/
theorem Rule.fits_iff (r : Rule) : r.fits = true ↔ (r.length = 0 ∨ (8 ≤ r.length ∧ r.length ≤ 19)) ∧ r.offset ≤ 18 ∧
    r.offset + r.pattern.length ≤ 19 ∧ (r.length = 0 ∨ r.offset + r.pattern.length ≤ r.length) ∧
    r.discountClass ≤ 7 := by
  simp only [Rule.fits, Bool.and_eq_true, Bool.or_eq_true, decide_eq_true_eq, and_assoc]

/-- A rule whose fields are in range is read back from its payload (R93, R209). -/
theorem ruleOf_beRule (k : Nat) {r : Rule} (hlen : r.length = 0 ∨ (8 ≤ r.length ∧ r.length ≤ 19)) (hoff : r.offset ≤ 18)
    (hlow : 1 ≤ r.pattern.length) (hhigh : r.pattern.length ≤ 8)
    (hdigits : ∀ d, PatternDigit.digit d ∈ r.pattern → d ≤ 9) (hclass : r.discountClass ≤ 7)
    (hfit : r.offset + r.pattern.length ≤ 19) (hin : r.length ≠ 0 → r.offset + r.pattern.length ≤ r.length) :
    ruleOf (beRule k r) = some r := by
  obtain ⟨haction, haction256⟩ := cardActionOf_code r.action
  have henabled : fieldAt (beRule k r) 1 1 = if r.enabled then 1 else 0 := by
    have h : (if r.enabled then 1 else 0 : Nat) < 256 := by split <;> decide
    simp [beRule_eq, beFlag, fieldAt_append, fieldAt_be1 h]
  have hlength : fieldAt (beRule k r) 2 1 = r.length := by
    simp [beRule_eq, beFlag, fieldAt_append, fieldAt_be1 (show r.length < 256 by omega)]
  have hoffset : fieldAt (beRule k r) 3 1 = r.offset := by
    simp [beRule_eq, beFlag, fieldAt_append, fieldAt_be1 (show r.offset < 256 by omega)]
  have hcount : fieldAt (beRule k r) 4 1 = r.pattern.length := by
    simp [beRule_eq, beFlag, fieldAt_append, fieldAt_be1 (show r.pattern.length < 256 by omega)]
  have hcode : fieldAt (beRule k r) 13 1 = r.action.code := by
    simp [beRule_eq, beFlag, fieldAt_append, length_patternBytes, fieldAt_be1 haction256]
  have hdiscount : fieldAt (beRule k r) 14 1 = r.discountClass := by
    simp [beRule_eq, beFlag, fieldAt_append, length_patternBytes,
      fieldAt_be1_alone (show r.discountClass < 256 by omega)]
  have hdrop : (beRule k r).drop 5 = patternBytes r ++ (be1 r.action.code ++ be1 r.discountClass) := by
    simp [beRule_eq, beFlag, be1]
  have hpattern : patternOf (beRule k r) = some r.pattern := by
    unfold patternOf
    rw [hcount]
    refine (if_pos ⟨hlow, hhigh⟩).trans ?_
    rw [hdrop, List.take_append_of_le_length (by rw [length_patternBytes]; exact hhigh), take_patternBytes hhigh]
    refine (mapM_map_eq_some fun d hd => patternDigitOf_code fun j hj => hdigits j (hj ▸ hd)).trans ?_
    rw [List.map_id']
  have hflag : decide (fieldAt (beRule k r) 1 1 = 1) = r.enabled := by
    rw [henabled]
    cases r.enabled <;> rfl
  rw [ruleOf, hcode, haction, hpattern]
  simp only [hflag, hlength, hoffset, hdiscount]
  refine if_pos ⟨?_, ?_⟩
  · rw [henabled]
    split <;> decide
  · have hin' : r.length = 0 ∨ r.offset + r.pattern.length ≤ r.length := by
      by_cases hz : r.length = 0
      · exact .inl hz
      · exact .inr (hin hz)
    exact (Rule.fits_iff r).mpr ⟨hlen, hoff, hfit, hin', hclass⟩

/-- Reading a list keeps its length. -/
theorem length_of_mapM {α β : Type} {dec : α → Option β} :
    ∀ {l : List α} {r : List β}, l.mapM dec = some r → r.length = l.length
  | [], r, h => by
    obtain rfl : [] = r := by simpa using h
    rfl
  | x :: l, r, h => by
    obtain ⟨y, hy, t, ht, rfl⟩ : ∃ y, dec x = some y ∧ ∃ t, l.mapM dec = some t ∧ y :: t = r := by
      simpa [Option.bind_eq_some_iff] using h
    rw [List.length_cons, List.length_cons, length_of_mapM ht]

/-- The length of a payload's pattern (R209). -/
theorem length_of_patternOf {p : List Byte} {pattern : List PatternDigit} (hlen : p.length = 15)
    (h : patternOf p = some pattern) : pattern.length = fieldAt p 4 1 := by
  unfold patternOf at h
  dsimp only at h
  split at h
  case isTrue hr =>
    rw [length_of_mapM h, List.length_take, List.length_drop, hlen]
    omega
  case isFalse => exact nomatch h

/-- A byte of a payload that is no digit of a pattern. -/
theorem patternDigitOf_none {p : List Byte} {off : Nat} (ho : off < p.length) (h9 : 9 < fieldAt p off 1)
    (h15 : fieldAt p off 1 ≠ 15) : patternDigitOf p[off] = none := by
  have hfield : fieldAt p off 1 = p[off].toNat := by
    rw [fieldAt, List.drop_eq_getElem_cons ho, List.take_succ_cons, List.take_zero]
    simp [natOf]
  rw [hfield] at h9 h15
  have hne : p[off] ≠ 0x0F#8 := fun e => h15 (by rw [e]; rfl)
  simp [patternDigitOf, Nat.not_le.mpr h9, hne]

/-- A pattern with a byte that is neither a digit nor the wildcard, or of a length out of range, is none (R209). -/
theorem patternOf_none {p : List Byte} (hlen : p.length = 15) (h : fieldAt p 4 1 = 0 ∨ 8 < fieldAt p 4 1 ∨
    ∃ k, k < fieldAt p 4 1 ∧ 9 < fieldAt p (5 + k) 1 ∧ fieldAt p (5 + k) 1 ≠ 15) : patternOf p = none := by
  unfold patternOf
  dsimp only
  split
  case isFalse => rfl
  case isTrue hr =>
    obtain h | h | ⟨k, hk, h9, h15⟩ := h
    · omega
    · omega
    · refine mapM_eq_none_of_mem (patternDigitOf_none (by omega) h9 h15) ?_
      rw [List.mem_take_iff_getElem]
      exact ⟨k, by simp; omega, by simp⟩

/-- Fields out of range are no rule (R93). -/
theorem ruleOf_none {p : List Byte} (hlen : p.length = 15)
    (h : 1 < fieldAt p 1 1 ∨ (fieldAt p 2 1 ≠ 0 ∧ (fieldAt p 2 1 < 8 ∨ 19 < fieldAt p 2 1)) ∨
      18 < fieldAt p 3 1 ∨ fieldAt p 4 1 = 0 ∨ 8 < fieldAt p 4 1 ∨ 3 < fieldAt p 13 1 ∨ 7 < fieldAt p 14 1 ∨
      19 < fieldAt p 3 1 + fieldAt p 4 1 ∨
      (fieldAt p 2 1 ≠ 0 ∧ fieldAt p 2 1 < fieldAt p 3 1 + fieldAt p 4 1) ∨
      (∃ k, k < fieldAt p 4 1 ∧ 9 < fieldAt p (5 + k) 1 ∧ fieldAt p (5 + k) 1 ≠ 15)) : ruleOf p = none := by
  unfold ruleOf
  split
  case h_2 => rfl
  case h_1 action pattern haction hpattern =>
    have hcode := cardActionOf_range haction
    have hsound : ¬ (fieldAt p 4 1 = 0 ∨ 8 < fieldAt p 4 1 ∨
        ∃ k, k < fieldAt p 4 1 ∧ 9 < fieldAt p (5 + k) 1 ∧ fieldAt p (5 + k) 1 ≠ 15) := fun hbad => by
      rw [patternOf_none hlen hbad] at hpattern
      exact nomatch hpattern
    have hcount := length_of_patternOf hlen hpattern
    refine if_neg fun ⟨henabled, hfits⟩ => ?_
    obtain ⟨hlength, hoffset, hfit, hin, hclass⟩ := (Rule.fits_iff _).mp hfits
    dsimp only at hlength hoffset hfit hin hclass
    obtain h | h | h | h | h | h | h | h | h | h := h
    · omega
    · omega
    · omega
    · exact hsound (.inl h)
    · exact hsound (.inr (.inl h))
    · omega
    · omega
    · omega
    · omega
    · exact hsound (.inr (.inr h))

/-- Settles O23: a rule and a default action read back from their payloads, and the ranges. -/
theorem cardRuleCommandResults : Obligations.CardRuleCommandResults := by
  refine ⟨fun s tag rest k r h hlen hoff hlow hhigh hdigits hclass hfit hin => congrArg Host.Outcome.next ?_,
    fun s tag rest p h hlen hbad => congrArg Host.Outcome.next ?_,
    fun s tag rest k h => congrArg Host.Outcome.next ?_, fun s tag number rest h hb => congrArg Host.Outcome.next ?_,
    fun s tag action cls rest h hb => congrArg Host.Outcome.next ?_,
    fun s tag rest o h hc => congrArg Host.Outcome.next ?_⟩
  · have hnumber : fieldAt (beRule k.val r) 0 1 = k.val := by
      rw [beRule_eq]
      exact fieldAt_be1 (by omega) _
    refine runCommand_answers h rfl (by simp [length_beRule, sizeAllowed]) (fun ht => absurd ht Bool.false_ne_true) ?_ rfl
    unfold ruleRuleWrite
    simp only [hnumber, k.isLt, dif_pos, ruleOf_beRule k.val hlen hoff hlow hhigh hdigits hclass hfit hin]
    rfl
  · refine runCommand_answers h rfl (by simp [hlen, sizeAllowed]) (fun ht => absurd ht Bool.false_ne_true) ?_ rfl
    obtain hnumber | hrule := hbad
    · exact dif_neg (show ¬ fieldAt p 0 1 < 32 by omega)
    · rw [ruleRuleWrite, ruleOf_none hlen hrule]
      split <;> rfl
  · refine runCommand_answers h rfl rfl (fun ht => absurd ht Bool.false_ne_true) ?_ rfl
    have hnumber : fieldAt (be1 k.val) 0 1 = k.val := fieldAt_be1_alone (by omega)
    unfold ruleRuleRead
    simp only [hnumber, k.isLt, dif_pos]
    rfl
  · refine runCommand_answers h rfl rfl (fun ht => absurd ht Bool.false_ne_true) ?_ rfl
    exact dif_neg (by simp; omega)
  · refine runCommand_answers h rfl rfl (fun ht => absurd ht Bool.false_ne_true) ?_ rfl
    unfold ruleDefaultAction
    split
    case h_1 => rfl
    case h_2 a ha =>
      rw [fieldAt_zero_cons] at ha
      have hcode := cardActionOf_range ha
      exact if_pos (by simp; omega)
  · refine runCommand_answers h rfl rfl (fun ht => absurd ht Bool.false_ne_true) ?_ rfl
    obtain ⟨haction, haction256⟩ := cardActionOf_code o.action
    have hcode : fieldAt (be1 o.action.code ++ be1 o.discountClass) 0 1 = o.action.code := fieldAt_be1 haction256 _
    have hdiscount : fieldAt (be1 o.action.code ++ be1 o.discountClass) 1 1 = o.discountClass := by
      simp [fieldAt_append, fieldAt_be1_alone (show o.discountClass < 256 by omega)]
    show ruleDefaultAction (be1 o.action.code ++ be1 o.discountClass) s = _
    rw [ruleDefaultAction, hcode, haction]
    exact (if_neg (by omega)).trans (by rw [hdiscount]; rfl)

/-! ## Card IDs (R204) -/

/-- Half-bytes packed two to a byte are read back, when there is an even number of them. -/
theorem halves_packHalves : ∀ {l : List Nat}, l.length % 2 = 0 → (∀ d ∈ l, d < 16) →
    (packHalves l).flatMap halves = l
  | [], _, _ => rfl
  | [_], h, _ => absurd h (by simp)
  | a :: b :: t, h, hd => by
    obtain ⟨ha, hb, ht⟩ := by simpa only [List.forall_mem_cons] using hd
    have hbyte : halves (BitVec.ofNat 8 (a * 16 + b)) = [a, b] := by
      simp [halves]
      omega
    have ih := halves_packHalves (l := t) (by simp at h; omega) ht
    rw [packHalves, be1, List.cons_append, List.nil_append, List.flatMap_cons, hbyte, ih]
    rfl

theorem length_packHalves : ∀ {l : List Nat}, l.length % 2 = 0 → (packHalves l).length = l.length / 2
  | [], _ => rfl
  | [_], h => absurd h (by simp)
  | a :: b :: t, h => by
    rw [packHalves, be1, List.cons_append, List.nil_append, List.length_cons,
      length_packHalves (l := t) (by simp at h; omega), List.length_cons, List.length_cons]
    omega

/-- The twenty half-bytes of a card ID's field. -/
def cardHalves (card : CardId) : List Nat := (card ++ List.replicate 20 15).take 20

theorem length_cardHalves (card : CardId) : (cardHalves card).length = 20 := by simp [cardHalves]

theorem beCardId_eq (card : CardId) : beCardId card = BitVec.ofNat 8 card.length :: packHalves (cardHalves card) := rfl

theorem length_beCardId (card : CardId) : (beCardId card).length = 11 := by
  rw [beCardId_eq, List.length_cons, length_packHalves (by simp [length_cardHalves]), length_cardHalves]

/-- A card ID is 8 to 19 decimal digits. -/
theorem cardId_wf_iff (card : CardId) : CardId.wf card = true ↔
    8 ≤ card.length ∧ card.length ≤ 19 ∧ ∀ d ∈ card, d ≤ 9 := by
  simp [CardId.wf, and_assoc]

/-- A card ID is read back from its field (R204). -/
theorem cardIdOf_beCardId {card : CardId} (h : CardId.wf card = true) : cardIdOf (beCardId card) = some card := by
  obtain ⟨hlow, hhigh, hdigits⟩ := (cardId_wf_iff card).mp h
  have hhalves : ∀ d ∈ cardHalves card, d < 16 := by
    intro d hd
    obtain hd | hd := List.mem_append.mp (List.mem_of_mem_take hd)
    · have := hdigits d hd
      omega
    · obtain ⟨-, rfl⟩ := List.mem_replicate.mp hd
      decide
  have hcount : (BitVec.ofNat 8 card.length).toNat = card.length := by simp; omega
  have hpacked : (packHalves (cardHalves card)).take 10 = packHalves (cardHalves card) :=
    List.take_of_length_le (by rw [length_packHalves (by simp [length_cardHalves]), length_cardHalves])
  have hread : (((packHalves (cardHalves card)).take 10).flatMap halves).take card.length = card := by
    rw [hpacked, halves_packHalves (by simp [length_cardHalves]) hhalves, cardHalves, List.take_take,
      Nat.min_eq_left (by omega), List.take_left]
  rw [beCardId_eq, cardIdOf]
  simp only [hcount, hread]
  exact if_pos ⟨hlow, hhigh, trivial, by simpa using hdigits⟩

/-- A command that carries a card ID after `off` bytes. -/
theorem onCard_at {p : List Byte} {off : Nat} {card : CardId} (h : CardId.wf card = true)
    (hp : (p.drop off).take 11 = beCardId card) (s : State) (k : CardId → Handled) : onCard p off s k = k card := by
  rw [onCard, hp, cardIdOf_beCardId h]

/-! ## Bindings (R96 to R99) -/

/-- A card is bound when a binding carries it (R95). -/
theorem bound_iff (s : State) (card : CardId) : s.bound card = true ↔ ∃ b ∈ s.bindings, b.card = card := by
  simp [State.bound]

theorem not_bound {s : State} {card : CardId} (h : ∀ b ∈ s.bindings, b.card ≠ card) : ¬ s.bound card = true := by
  rw [bound_iff]
  exact fun ⟨b, hb, he⟩ => h b hb he

/-- An insertion adds its binding and keeps the others (R96). -/
theorem insertBinding_perm (b : Binding) : ∀ l : List Binding, (insertBinding b l).Perm (b :: l)
  | [] => .refl _
  | c :: t => by
    unfold insertBinding
    split
    · exact .refl _
    · exact ((insertBinding_perm b t).cons c).trans (.swap b c t)

/-- The binding that carries a card, with its place in the table (R99). -/
theorem bindingAt_eq {card : CardId} {l before after : List Binding} {b : Binding} (hl : l = before ++ b :: after)
    (hb : b.card = card) (hne : ∀ x ∈ before, x.card ≠ card) : bindingAt card l = some (b, before.length) := by
  have hlen : before.length < l.length := by simp [hl]
  unfold bindingAt
  rw [List.find?_eq_some_iff_getElem]
  refine ⟨decide_eq_true hb, before.length, by simpa using hlen, ?_, fun j hj => ?_⟩
  · simp [hl]
  · have hj' : j < l.length := by omega
    have hget : l[j] = before[j] := by simp [hl, hj]
    simp [hget, hne before[j] (List.getElem_mem hj)]

/-- A card that no binding carries has no place in the table. -/
theorem bindingAt_none {card : CardId} {l : List Binding} (h : ∀ b ∈ l, b.card ≠ card) : bindingAt card l = none := by
  unfold bindingAt
  rw [List.find?_eq_none]
  intro e he
  simpa using h e.1 (List.of_mem_zip he).1

/-- The rows of BINDING-QUERY answer what their rules give for a payload that selects their form, or none. -/
theorem runCommand_bindingQuery {s : State} {tag : Byte} {rest : List Frame} {p : List Byte} {form : Nat}
    {rule : List Byte → State → Handled} {status : Status} {data : List Byte}
    (h : Executing s ⟨0x16#8, tag, p⟩ rest) (ht : s.tablesReady = true) (hlen : p.length = 12 ∨ p.length = 4)
    (hf : formOf 0x16 p = some form ∨ formOf 0x16 p = none) (hr : rule p s = (status, data, s)) :
    runCommand (ofForm 0x16 form) rule s = answered s rest ⟨0x16#8, tag, p⟩ status data :=
  runCommand_answers h (ofForm_of rfl hf) (by simpa [sizeAllowed] using hlen) (fun _ => ht) hr rfl

/-- The payload of BINDING-QUERY BY_CARD selects that form, and carries the card after its selector. -/
theorem byCard_payload {bytes : List Byte} (hlen : bytes.length = 11) : (be1 0 ++ bytes).length = 12 ∧
    fieldAt (be1 0 ++ bytes) 0 1 = 0 ∧ ((be1 0 ++ bytes).drop 1).take 11 = bytes :=
  ⟨by simp [hlen], fieldAt_be1 (by decide) _, by simp [be1, List.take_of_length_le, hlen]⟩

/-- The payload of BINDING-QUERY BY_POSITION and its fields. -/
theorem byPosition_payload {start count : Nat} (hs : start < 65536) (hc : count < 256) :
    (be1 1 ++ be2 start ++ be1 count).length = 4 ∧ fieldAt (be1 1 ++ be2 start ++ be1 count) 0 1 = 1 ∧
      fieldAt (be1 1 ++ be2 start ++ be1 count) 1 2 = start ∧
      fieldAt (be1 1 ++ be2 start ++ be1 count) 3 1 = count := by
  refine ⟨by simp, ?_, ?_, ?_⟩
  · rw [List.append_assoc]
    exact fieldAt_be1 (by decide) _
  · simp [fieldAt_append, fieldAt_be2 hs]
  · simp [fieldAt_append, fieldAt_be1_alone hc]

/-- The payload of BINDING-QUERY BY_CARD selects form 0. -/
theorem formOf_byCard {bytes : List Byte} (hlen : bytes.length = 11) : formOf 0x16 (be1 0 ++ bytes) = some 0 := by
  obtain ⟨h12, h0, -⟩ := byCard_payload hlen
  unfold formOf
  rw [h12]
  exact if_pos h0

/-- The payload of BINDING-QUERY BY_POSITION selects form 1. -/
theorem formOf_byPosition {start count : Nat} (hs : start < 65536) (hc : count < 256) :
    formOf 0x16 (be1 1 ++ be2 start ++ be1 count) = some 1 := by
  obtain ⟨h4, h1, -, -⟩ := byPosition_payload hs hc
  unfold formOf
  rw [h4]
  exact if_pos h1

/-- BIND-CARD's payload carries the card and then the account (R96). -/
theorem bindCard_payload {bytes index : List Byte} (hb : bytes.length = 11) (hi : index.length = 2) :
    ((bytes ++ index).drop 0).take 11 = bytes ∧ fieldAt (bytes ++ index) 11 2 = natOf index ∧
      (bytes ++ index).length = 13 := by
  refine ⟨?_, ?_, by simp [hb, hi]⟩
  · rw [List.drop_zero, List.take_append_of_le_length (by omega), List.take_of_length_le (by omega)]
  · rw [fieldAt, ← hb, List.drop_left, List.take_of_length_le (by omega)]

/-- An account index read from a field. -/
theorem accountOf_val (i : AccountId) : accountOf i.val = some i := dif_pos i.isLt

/-- BIND-CARD of a card and an account that the payload carries (R96). -/
theorem ruleBindCard_eq {card : CardId} (h : CardId.wf card = true) (i : AccountId) (s : State) :
    ruleBindCard (beCardId card ++ be2 i.val) s =
      if s.bound card then refuse .duplicate s
      else if 4096 ≤ s.bindings.length then refuse .tableFull s
      else done { s with bindings := insertBinding { card := card, account := i, lost := false } s.bindings } := by
  obtain ⟨hcard, hindex, -⟩ := bindCard_payload (length_beCardId card) (length_be2 i.val)
  rw [ruleBindCard, onCard_at h hcard, hindex, natOf_be2 (Nat.lt_trans i.isLt (by decide)), accountOf_val]

/-- A payload that is a card ID carries that card. -/
theorem take_beCardId (card : CardId) : ((beCardId card).drop 0).take 11 = beCardId card := by
  rw [List.drop_zero, List.take_of_length_le (by rw [length_beCardId])]

/-- Settles O24: the card ID, the account and the positions read back from the payloads, and the rules' cases. -/
theorem bindingCommandResults : Obligations.BindingCommandResults := by
  refine ⟨fun s tag rest card i hwf ht h => ?_, fun s tag rest card hwf ht h => ?_,
    fun s tag rest bytes index hb hi ht hbad => ⟨fun h => congrArg Host.Outcome.next ?_,
      fun hnone h => congrArg Host.Outcome.next ?_, fun hnone h => congrArg Host.Outcome.next ?_⟩,
    fun s tag rest card hwf ht h => ⟨fun hne => congrArg Host.Outcome.next ?_,
      fun before b after hl hbc hne => congrArg Host.Outcome.next ?_⟩,
    fun s tag rest start count ht hs hlow hhigh h => congrArg Host.Outcome.next ?_,
    fun s tag rest start count ht hs hc hbad h => congrArg Host.Outcome.next ?_⟩
  · have hsize : sizeAllowed 0x13#8 (beCardId card ++ be2 i.val).length = true := by
      simp [length_beCardId, sizeAllowed]
    refine ⟨fun hd => congrArg Host.Outcome.next ?_, fun hne hfull => congrArg Host.Outcome.next ?_,
      fun hne hroom => ⟨_, congrArg Host.Outcome.next ?_, insertBinding_perm _ _⟩⟩
    · exact runCommand_answers h rfl hsize (fun _ => ht)
        ((ruleBindCard_eq hwf i s).trans (if_pos ((bound_iff s card).mpr hd))) rfl
    · exact runCommand_answers h rfl hsize (fun _ => ht)
        ((ruleBindCard_eq hwf i s).trans ((if_neg (not_bound hne)).trans (if_pos hfull))) rfl
    · exact runCommand_answers h rfl hsize (fun _ => ht)
        ((ruleBindCard_eq hwf i s).trans ((if_neg (not_bound hne)).trans (if_neg (Nat.not_le.mpr hroom)))) rfl
  · have hsize : sizeAllowed 0x14#8 (beCardId card).length = true := by simp [length_beCardId, sizeAllowed]
    have hrule : ruleUnbindCard (beCardId card) s = if s.bound card then
        done { s with bindings := s.bindings.filter (fun b => decide (b.card ≠ card)) } else refuse .notFound s :=
      onCard_at hwf (take_beCardId card) s _
    refine ⟨fun hne => congrArg Host.Outcome.next ?_, fun hb => congrArg Host.Outcome.next ?_⟩
    · exact runCommand_answers h rfl hsize (fun _ => ht) (hrule.trans (if_neg (not_bound hne))) rfl
    · exact runCommand_answers h rfl hsize (fun _ => ht) (hrule.trans (if_pos ((bound_iff s card).mpr hb))) rfl
  · obtain ⟨hcard, hindex, hlen⟩ := bindCard_payload hb hi
    refine runCommand_answers h rfl (by simp [hb, hi, sizeAllowed]) (fun _ => ht) ?_ rfl
    show ruleBindCard (bytes ++ index) s = _
    rw [ruleBindCard, onCard, hcard]
    obtain hnone | hbeyond := hbad
    · rw [hnone]
      rfl
    · have hacc : accountOf (natOf index) = none := dif_neg (by omega)
      rw [hindex, hacc]
      split <;> rfl
  · refine runCommand_answers h rfl (by simp [hb, sizeAllowed]) (fun _ => ht) ?_ rfl
    show ruleUnbindCard bytes s = _
    rw [ruleUnbindCard, onCard, List.drop_zero, List.take_of_length_le hb.le, hnone]
    rfl
  · obtain ⟨h12, h0, hcard⟩ := byCard_payload hb
    refine runCommand_bindingQuery h ht (.inl h12) (.inl (formOf_byCard hb)) ?_
    rw [ruleBindingByCard, if_pos ⟨h12, h0⟩, onCard, hcard, hnone]
    rfl
  · obtain ⟨h12, h0, hcard⟩ := byCard_payload (length_beCardId card)
    refine runCommand_bindingQuery h ht (.inl h12) (.inl (formOf_byCard (length_beCardId card))) ?_
    rw [ruleBindingByCard, if_pos ⟨h12, h0⟩, onCard_at hwf hcard, bindingAt_none hne]
  · obtain ⟨h12, h0, hcard⟩ := byCard_payload (length_beCardId card)
    refine runCommand_bindingQuery h ht (.inl h12) (.inl (formOf_byCard (length_beCardId card))) ?_
    rw [ruleBindingByCard, if_pos ⟨h12, h0⟩, onCard_at hwf hcard, bindingAt_eq hl hbc hne]
    subst hbc
    rfl
  · obtain ⟨h4, h1, hstart, hcount⟩ := byPosition_payload (show start < 65536 by omega) (show count < 256 by omega)
    refine runCommand_bindingQuery h ht (.inr h4)
      (.inl (formOf_byPosition (show start < 65536 by omega) (show count < 256 by omega))) ?_
    rw [ruleBindingByPosition, hstart, hcount, if_pos ⟨h4, h1, hs, hlow, hhigh⟩]
    rfl
  · obtain ⟨h4, h1, hstart, hcount⟩ := byPosition_payload hs hc
    refine runCommand_bindingQuery h ht (.inr h4) (.inl (formOf_byPosition hs hc)) ?_
    rw [ruleBindingByPosition, hstart, hcount, if_neg (by omega)]
    rfl

end Sys2Proof.Machine
end

section
/-! PROOF. The commit (O22), the card router's answers (O26), the rating engine's answers (O53) and the shared counters
(O54). -/

namespace Sys2Proof.Machine

/-! ## The commit (R84, R85) -/

/-- A raise for a station leaves the source pending with the station in its bitmap (R196). -/
theorem raiseFor_raised (src : NoticeSource) (n : StationId) (s : State) :
    ((raiseFor src n s).source src).pending = true ∧ inMask ((raiseFor src n s).source src).bitmap n = true := by
  rw [raiseFor, raiseMask_source]
  have hself : (maskOf n).getLsbD n.val = true := by simpa [inMask] using getLsbD_maskOf n n
  exact ⟨rfl, by simp [inMask, hself]⟩

/-- The apply status after a commit (R84). -/
theorem afterCommit_eq (a : ApplyStatus) : a.afterCommit =
    if a = .inProgress then .inProgress else if a = .aborted then .aborted else .applied := by
  cases a <;> rfl

/-- Settles O22. -/
theorem commitResult : Obligations.CommitResult := by
  intro s n hst
  have hcommits : (s.st n).state.commits = true := by
    obtain h | h | h | h := hst <;> rw [h] <;> rfl
  have hrow : exec (.commit n) s = .next (commitTariff false n s) := if_pos hcommits
  refine ⟨fun hnone => ?_, fun tf hnext => ?_⟩
  · rw [hrow, commitTariff, hnone]
  · obtain ⟨others, rest⟩ := atStation_commitTariff false n s
    refine ⟨commitTariff false n s, hrow, ⟨others, rest⟩, ?_, ?_⟩
    · rw [st_commitTariff, Station.committed, hnext]
      simp only [afterCommit_eq]
    · rw [commitTariff, hnext]
      exact raiseFor_raised .tariff n _

/-! ## The card router (R92, R95, R105) -/

/-- The rules that match a card. -/
theorem mem_matchingRules (s : State) (card : CardId) (r : Rule) :
    r ∈ matchingRules s card ↔ ∃ k : Fin 32, s.rules[k] = r ∧ r.matchesCard card = true := by
  rw [matchingRules, List.mem_filter, Vector.mem_toList_iff, Vector.mem_iff_getElem]
  constructor
  · rintro ⟨⟨i, hi, rfl⟩, hm⟩
    exact ⟨⟨i, hi⟩, rfl, hm⟩
  · rintro ⟨k, rfl, hm⟩
    exact ⟨⟨k.val, k.isLt, rfl⟩, hm⟩

/-- Some rule has the action. -/
def anyHas (rules : List Rule) (a : CardAction) : Bool := rules.any (fun r => decide (r.action = a))

theorem anyHas_iff (rules : List Rule) (a : CardAction) : anyHas rules a = true ↔ ∃ r ∈ rules, r.action = a := by
  simp [anyHas]

/-- The winning action is the first of the four that a rule has (R92). -/
theorem winningAction_eq (rules : List Rule) : winningAction rules =
    if anyHas rules .refuse then some .refuse else if anyHas rules .bank then some .bank
    else if anyHas rules .account then some .account else if anyHas rules .free then some .free else none := by
  have hfind : winningAction rules = [CardAction.refuse, .bank, .account, .free].find? (anyHas rules) := rfl
  rw [hfind]
  simp only [List.find?_cons, List.find?_nil]
  cases anyHas rules .refuse <;> cases anyHas rules .bank <;> cases anyHas rules .account <;>
    cases anyHas rules .free <;> rfl

/-- A rule has the winning action, and no rule has one before it in the order of R92. -/
theorem winningAction_first {rules : List Rule} {a : CardAction} (h : winningAction rules = some a) :
    (∃ r ∈ rules, r.action = a) ∧ ∀ r ∈ rules, (r.action = .refuse → a = .refuse) ∧
      (r.action = .bank → a = .refuse ∨ a = .bank) ∧ (r.action = .account → a ≠ .free) := by
  have hnot : ∀ {b : CardAction} {r : Rule}, r ∈ rules → ¬ anyHas rules b = true → r.action ≠ b :=
    fun hr hb he => hb ((anyHas_iff rules _).mpr ⟨_, hr, he⟩)
  rw [winningAction_eq] at h
  split at h
  case isTrue hrefuse =>
    obtain rfl := Option.some.inj h
    exact ⟨(anyHas_iff _ _).mp hrefuse, fun r hr => ⟨fun _ => rfl, fun _ => .inl rfl, fun _ => by decide⟩⟩
  case isFalse hrefuse =>
    split at h
    case isTrue hbank =>
      obtain rfl := Option.some.inj h
      exact ⟨(anyHas_iff _ _).mp hbank,
        fun r hr => ⟨fun he => absurd he (hnot hr hrefuse), fun _ => .inr rfl, fun _ => by decide⟩⟩
    case isFalse hbank =>
      split at h
      case isTrue haccount =>
        obtain rfl := Option.some.inj h
        exact ⟨(anyHas_iff _ _).mp haccount, fun r hr => ⟨fun he => absurd he (hnot hr hrefuse),
          fun he => absurd he (hnot hr hbank), fun _ => by decide⟩⟩
      case isFalse haccount =>
        split at h
        case isTrue hfree =>
          obtain rfl := Option.some.inj h
          exact ⟨(anyHas_iff _ _).mp hfree, fun r hr => ⟨fun he => absurd he (hnot hr hrefuse),
            fun he => absurd he (hnot hr hbank), fun he => absurd he (hnot hr haccount)⟩⟩
        case isFalse => exact nomatch h

/-- An action wins where a rule matches. -/
theorem winningAction_none {rules : List Rule} (h : winningAction rules = none) : rules = [] := by
  unfold winningAction at h
  rw [List.find?_eq_none] at h
  cases rules with
  | nil => rfl
  | cons r t =>
    have hr := h r.action (by cases r.action <;> simp)
    simp at hr

/-- The lowest-numbered matching rule of an action is the first in the list of the matching rules. -/
theorem lowest_of_find {s : State} {card : CardId} {a : CardAction} {r : Rule}
    (h : (matchingRules s card).find? (fun r => decide (r.action = a)) = some r) :
    ∃ k : Fin 32, s.rules[k] = r ∧ r.matchesCard card = true ∧ r.action = a ∧
      ∀ j : Fin 32, j < k → s.rules[j].matchesCard card = true → s.rules[j].action ≠ a := by
  rw [matchingRules, List.find?_filter, List.find?_eq_some_iff_getElem] at h
  obtain ⟨hr, i, hi, hget, hlow⟩ := h
  obtain ⟨hm, ha⟩ : r.matchesCard card = true ∧ r.action = a := by simpa using hr
  have hi' : i < 32 := by simpa using hi
  refine ⟨⟨i, hi'⟩, by simpa using hget, hm, ha, fun j hj hmj => ?_⟩
  have hmj' : s.rules[j.val].matchesCard card = true := hmj
  simpa [hmj'] using hlow j.val hj

/-- A classification without a matching rule is the default action (R92). -/
theorem classify_default {s : State} {card : CardId} (h : ∀ k : Fin 32, s.rules[k].matchesCard card = false) :
    classify s card = s.defaultAction := by
  have hnil : matchingRules s card = [] := by
    by_contra hne
    obtain ⟨r, hr⟩ := List.exists_mem_of_ne_nil _ hne
    obtain ⟨k, rfl, hm⟩ := (mem_matchingRules s card r).mp hr
    exact Bool.false_ne_true ((h k).symm.trans hm)
  rw [classify, hnil]
  rfl

/-- A classification takes the first action in the order of R92, with the discount class of the lowest-numbered matching
rule that has it. -/
theorem classify_matching {s : State} {card : CardId} (h : ∃ k : Fin 32, s.rules[k].matchesCard card = true) :
    (∀ k : Fin 32, s.rules[k].matchesCard card = true →
      (s.rules[k].action = .refuse → (classify s card).action = .refuse) ∧
      (s.rules[k].action = .bank → (classify s card).action = .refuse ∨ (classify s card).action = .bank) ∧
      (s.rules[k].action = .account → (classify s card).action ≠ .free)) ∧
    ∃ k : Fin 32, s.rules[k].matchesCard card = true ∧ s.rules[k].action = (classify s card).action ∧
      s.rules[k].discountClass = (classify s card).discountClass ∧
      ∀ j : Fin 32, j < k → s.rules[j].matchesCard card = true → s.rules[j].action ≠ (classify s card).action := by
  obtain ⟨k, hk⟩ := h
  have hmem := (mem_matchingRules s card _).mpr ⟨k, rfl, hk⟩
  cases hw : winningAction (matchingRules s card) with
  | none => exact absurd (winningAction_none hw ▸ hmem) List.not_mem_nil
  | some a =>
    obtain ⟨⟨r, hr, hra⟩, hfirst⟩ := winningAction_first hw
    cases hf : (matchingRules s card).find? (fun r => decide (r.action = a)) with
    | none => exact absurd hra (by simpa using List.find?_eq_none.mp hf r hr)
    | some q =>
      have hclass : classify s card = { action := a, discountClass := q.discountClass } := by
        rw [classify]
        simp only [hw, hf]
      obtain ⟨j, rfl, hm, ha, hlow⟩ := lowest_of_find hf
      rw [hclass]
      exact ⟨fun i hi => hfirst _ ((mem_matchingRules s card _).mpr ⟨i, rfl, hi⟩), j, hm, ha, rfl, hlow⟩

/-! ### What the asker keeps (R105) -/

/-- What an asker keeps stays at its station. -/
theorem atAsker_others {asker : Option StationId} {keep : StationId → State → State} {s : State}
    (hk : ∀ n, AtStation n s (keep n s)) {m : StationId} (h : asker ≠ some m) : (atAsker asker keep s).st m = s.st m := by
  cases asker with
  | none => rfl
  | some n => exact (hk n).others m fun e => h (by rw [e])

/-- What an asker keeps is a change of its station alone. -/
theorem atAsker_stations {asker : Option StationId} {keep : StationId → State → State} {s : State}
    (hk : ∀ n, keep n s = { s with stations := (keep n s).stations }) :
    atAsker asker keep s = { s with stations := (atAsker asker keep s).stations } := by
  cases asker with
  | none => rfl
  | some n => exact hk n

theorem atStation_keepOutcome (card : CardId) (o : CardOutcome) (n : StationId) (s : State) :
    AtStation n s (keepOutcome card o n s) := by
  unfold keepOutcome
  split
  · exact atStation_modSt s n _
  · exact .refl n s

theorem keepOutcome_stations (card : CardId) (o : CardOutcome) (n : StationId) (s : State) :
    keepOutcome card o n s = { s with stations := (keepOutcome card o n s).stations } := by
  unfold keepOutcome
  split <;> rfl

theorem atStation_keepBinding (card : CardId) (b : Option Binding) (n : StationId) (s : State) :
    AtStation n s (keepBinding card b n s) := by
  unfold keepBinding
  split
  · exact atStation_modSt s n _
  · exact .refl n s

theorem keepBinding_stations (card : CardId) (b : Option Binding) (n : StationId) (s : State) :
    keepBinding card b n s = { s with stations := (keepBinding card b n s).stations } := by
  unfold keepBinding
  split <;> rfl

/-- A station is locked out while its audit lock is on and its audit out of step (R101). -/
theorem lockedOut_iff (x : Station) :
    x.lockedOut = true ↔ x.settings.auditLock = true ∧ x.audit.state = .outOfStep := by
  simp [Station.lockedOut]

/-- A station awaits the outcome of the card in passage that has passed its checks (R101). -/
theorem awaitsOutcome_iff (x : Station) (card : CardId) : x.awaitsOutcome card = true ↔
    ∃ p, x.passage = some p ∧ p.card = card ∧ p.hold = none ∧ p.outcome = none ∧ ¬ x.lockedOut = true ∧
      x.tariff.active.isSome = true := by
  unfold Station.awaitsOutcome
  cases x.passage with
  | none => simp
  | some p => simp [and_assoc]

/-- A station awaits the binding of the card in passage whose outcome is ACCOUNT (R102). -/
theorem awaitsBinding_iff (x : Station) (card : CardId) : x.awaitsBinding card = true ↔
    ∃ p, x.passage = some p ∧ p.card = card ∧ p.hold = none ∧ p.outcome.map CardOutcome.action = some .account ∧
      p.found = none := by
  unfold Station.awaitsBinding
  cases x.passage with
  | none => simp
  | some p => simp [and_assoc]

/-- A binding found is one of the table's, and carries the card (R95). -/
theorem lookupBinding_some {s : State} {card : CardId} {b : Binding} (h : lookupBinding s card = some b) :
    b ∈ s.bindings ∧ b.card = card := by
  unfold lookupBinding at h
  split at h
  · exact ⟨List.mem_of_find?_eq_some h, by simpa using List.find?_some h⟩
  · exact nomatch h

/-- Settles O26. -/
theorem cardRouterAnswers : Obligations.CardRouterAnswers := by
  refine ⟨fun s asker card => ?_, fun s asker card => ?_⟩
  · have hframe := atAsker_stations (asker := asker) fun n => keepOutcome_stations card (classify s card) n s
    refine ⟨_, classify s card, rfl, ?_, fun m hm => ?_, fun n hn => ?_, classify_default, classify_matching⟩
    · rw [answerWith, hframe]
    · exact atAsker_others (fun n => atStation_keepOutcome card (classify s card) n s) hm
    · subst hn
      show (∀ p, _ → _ → _ → _ → _ → _ → (keepOutcome card (classify s card) n s).st n = _) ∧
        (_ → (keepOutcome card (classify s card) n s).st n = _)
      refine ⟨fun p hp hc hh ho ht hl => ?_, fun hno => ?_⟩
      · have hawait : (s.st n).awaitsOutcome card = true :=
          (awaitsOutcome_iff _ _).mpr ⟨p, hp, hc, hh, ho, fun h => hl ((lockedOut_iff _).mp h), ht⟩
        rw [keepOutcome, if_pos hawait, modPassage, st_modSt_self, hp]
        rfl
      · have hawait : ¬ (s.st n).awaitsOutcome card = true := fun h => by
          obtain ⟨p, hp, hc, hh, ho, hl, ht⟩ := (awaitsOutcome_iff _ _).mp h
          obtain hno | hno | hno := hno
          · have := hno p hp
            simp [hc, hh, ho] at this
          · simp [hno] at ht
          · exact hl ((lockedOut_iff _).mpr hno)
        rw [keepOutcome, if_neg hawait]
  · have hframe := atAsker_stations (asker := asker) fun n => keepBinding_stations card (lookupBinding s card) n s
    refine ⟨_, lookupBinding s card, rfl, ?_, fun m hm => ?_, fun n hn => ?_, fun ht => ?_, fun ht => ?_,
      fun x hx => lookupBinding_some hx⟩
    · rw [answerWith, hframe]
    · exact atAsker_others (fun n => atStation_keepBinding card (lookupBinding s card) n s) hm
    · subst hn
      show (∀ p, _ → _ → _ → _ → _ → (keepBinding card (lookupBinding s card) n s).st n = _) ∧
        (_ → (keepBinding card (lookupBinding s card) n s).st n = _)
      refine ⟨fun p hp hc hh hf ho => ?_, fun hno => ?_⟩
      · have hawait : (s.st n).awaitsBinding card = true := (awaitsBinding_iff _ _).mpr ⟨p, hp, hc, hh, ho, hf⟩
        rw [keepBinding, if_pos hawait, modPassage, st_modSt_self, hp]
        rfl
      · have hawait : ¬ (s.st n).awaitsBinding card = true := fun h => by
          obtain ⟨p, hp, hc, hh, ho, hf⟩ := (awaitsBinding_iff _ _).mp h
          have := hno p hp
          simp [hc, hh, ho, hf] at this
        rw [keepBinding, if_neg hawait]
    · simp [lookupBinding, ht]
    · simp [lookupBinding, ht]

/-! ## The rating engine (R62 to R72) -/

/-- A charge of a session that is not FREE (R67 to R72). -/
theorem settlementCharge_eq (t : Tariff) {kind : FundingKind} (hk : kind ≠ .free) (gross discount limit sideTotal : Nat) :
    settlementCharge t kind gross discount limit sideTotal =
      (min (if minimumApplies t gross discount sideTotal then t.header.minimum else roundedCents gross discount) limit,
        minimumApplies t gross discount sideTotal) := by
  cases kind with
  | free => exact absurd rfl hk
  | account => rfl
  | bank => rfl

/-- A request of the rating engine at a station with an active tariff (R55). -/
theorem withTariff_active {s : State} {n : StationId} {tf : Tariff} (h : (s.st n).tariff.active = some tf)
    (k : Tariff → Answer) : withTariff n k s = answerWith (k tf) s := by
  rw [withTariff, h]

/-- Settles O53. -/
theorem ratingEngineAnswers : Obligations.RatingEngineAnswers := by
  intro s n tf h
  refine ⟨fun c kind count gross => ?_, fun dc => congrArg Host.Outcome.next ?_,
    fun gross discount limit sideTotal => ⟨congrArg Host.Outcome.next (withTariff_active h _),
      fun kind hk => congrArg Host.Outcome.next ?_⟩⟩
  · refine (congrArg Host.Outcome.next (withTariff_active h _)).trans ?_
    cases kind <;> rfl
  · have hd : discountPercent tf dc.val = tf.header.discounts[dc] := by simp [discountPercent]
    rw [withTariff_active h, hd]
    rfl
  · rw [withTariff_active h, chargeAnswer, settlementCharge_eq tf hk]
    by_cases hm : 1 ≤ sideTotal ∧ (gross - gross * discount / 100 + 5) / 10 < tf.header.minimum
    · rw [if_pos hm]
      simp [answerWith, minimumApplies, roundedCents, netMills, hm]
    · rw [if_neg hm]
      have hfalse : minimumApplies tf gross discount sideTotal = false := by
        rw [minimumApplies, roundedCents, netMills, ← Bool.not_eq_true]
        simpa using hm
      simp [answerWith, hfalse, roundedCents, netMills]

/-! ## The shared counters (R2, R129) -/

/-- The tag that follows `t` after `k` others, from 1 again after 65,535 (R129). -/
def tagAfter (t k : Nat) : Nat := (t - 1 + k) % 65535 + 1

theorem tagAfter_zero {t : Nat} (h1 : 1 ≤ t) (h2 : t ≤ 65535) : tagAfter t 0 = t := by
  unfold tagAfter
  omega

theorem tagAfter_next {t : Nat} (h1 : 1 ≤ t) (h2 : t ≤ 65535) (k : Nat) : tagAfter (nextTag t) k = tagAfter t (k + 1) := by
  unfold nextTag tagAfter
  split <;> omega

/-- A search passes over tags that are used, and ends at a tag that is not, or after all its tries (R129). -/
theorem freeTag_passed (used : List Nat) : ∀ (k t : Nat), 1 ≤ t → t ≤ 65535 →
    ∃ p, p ≤ k ∧ freeTag used k t = tagAfter t p ∧ (∀ j, j < p → tagAfter t j ∈ used) ∧
      (p < k → tagAfter t p ∉ used)
  | 0, t, h1, h2 => ⟨0, le_rfl, (tagAfter_zero h1 h2).symm, fun _ hj => absurd hj (Nat.not_lt_zero _),
      fun h => absurd h (Nat.not_lt_zero _)⟩
  | k + 1, t, h1, h2 => by
    unfold freeTag
    split
    case isTrue hu =>
      obtain ⟨hn1, hn2⟩ := nextTag_range t
      obtain ⟨p, hp, he, hpassed, hfree⟩ := freeTag_passed used k (nextTag t) hn1 hn2
      refine ⟨p + 1, by omega, he.trans (tagAfter_next h1 h2 p), fun j hj => ?_, fun h => ?_⟩
      · cases j with
        | zero =>
          rw [tagAfter_zero h1 h2]
          simpa using hu
        | succ j =>
          rw [← tagAfter_next h1 h2]
          exact hpassed j (by omega)
      · rw [← tagAfter_next h1 h2]
        exact hfree (by omega)
    case isFalse hu =>
      refine ⟨0, Nat.zero_le _, (tagAfter_zero h1 h2).symm, fun _ hj => absurd hj (Nat.not_lt_zero _), fun _ => ?_⟩
      rw [tagAfter_zero h1 h2]
      simpa using hu

/-- The tags that follow one another are all different, up to 65,535 of them. -/
theorem tagAfter_inj {t j k : Nat} (hj : j < 65535) (hk : k < 65535) (h : tagAfter t j = tagAfter t k) : j = k := by
  unfold tagAfter at h
  omega

/-- So many tries as tags are used always find a free one (R129). -/
theorem freeTag_free {used : List Nat} (hlen : used.length < 65535) {t : Nat} (h1 : 1 ≤ t) (h2 : t ≤ 65535) :
    ∃ p, freeTag used used.length t = tagAfter t p ∧ tagAfter t p ∉ used ∧ ∀ j, j < p → tagAfter t j ∈ used := by
  obtain ⟨p, hp, he, hpassed, hfree⟩ := freeTag_passed used used.length t h1 h2
  refine ⟨p, he, ?_, hpassed⟩
  obtain hlt | heq := Nat.lt_or_eq_of_le hp
  · exact hfree hlt
  · intro hmem
    -- otherwise one more different tag is used than there are used tags
    have hnodup : ((List.range (p + 1)).map (tagAfter t)).Nodup :=
      List.nodup_range.map_on fun j hj k hk h =>
        tagAfter_inj (by have := List.mem_range.mp hj; omega) (by have := List.mem_range.mp hk; omega) h
    have hsub : (List.range (p + 1)).map (tagAfter t) ⊆ used := by
      intro x hx
      obtain ⟨j, hj, rfl⟩ := List.mem_map.mp hx
      have hj' := List.mem_range.mp hj
      by_cases hjp : j = p
      · exact hjp ▸ hmem
      · exact hpassed j (by omega)
    have hcount := (hnodup.subperm hsub).length_le
    simp at hcount
    omega

/-- A tag is outstanding when some station's request carries it (R129). -/
theorem mem_outstandingTags (s : State) (tag : Nat) :
    tag ∈ outstandingTags s ↔ ∃ m, (s.st m).slot.request.map Request.tag = some tag := by
  rw [outstandingTags, List.mem_filterMap]
  constructor
  · rintro ⟨x, hx, he⟩
    obtain ⟨i, hi, rfl⟩ := Vector.mem_iff_getElem.mp (Vector.mem_toList_iff.mp hx)
    exact ⟨⟨i, hi⟩, he⟩
  · rintro ⟨m, he⟩
    exact ⟨s.st m, Vector.mem_toList_iff.mpr (Vector.mem_iff_getElem.mpr ⟨m.val, m.isLt, rfl⟩), he⟩

theorem length_outstandingTags (s : State) : (outstandingTags s).length ≤ 16 := by
  refine (List.length_filterMap_le _ _).trans ?_
  simp

/-- Settles O54: the search for a tag passes over outstanding ones alone. -/
theorem sharedCountersAreTaken : Obligations.SharedCountersAreTaken := by
  refine ⟨fun s h1 h2 => ?_, fun s => rfl⟩
  have hlen := length_outstandingTags s
  obtain ⟨p, he, hfree, hpassed⟩ := freeTag_free (used := outstandingTags s) (by omega) h1 h2
  obtain ⟨hlow, hhigh⟩ := freeTag_range (outstandingTags s) (outstandingTags s).length s.tagCounter h1 h2
  rw [he] at hlow hhigh
  refine ⟨tagAfter s.tagCounter p, congrArg Host.Outcome.next ?_, hlow, hhigh, fun m hm => ?_, p, rfl, fun j hj => ?_⟩
  · have hnext : nextTag (tagAfter s.tagCounter p) =
        if tagAfter s.tagCounter p = 65535 then 1 else tagAfter s.tagCounter p + 1 := by
      unfold nextTag
      split <;> split <;> omega
    simp only [takeTag, he, hnext, answerWith]
  · exact hfree ((mem_outstandingTags s _).mpr ⟨m, hm⟩)
  · exact (mem_outstandingTags s _).mp (hpassed j hj)

end Sys2Proof.Machine
end

section
/-! PROOF. AUTH-FETCH (O37), the log commands (O40), the probe tick and link silence (O50), and the log's requests (O52). -/

namespace Sys2Proof.Machine

/-! ## AUTH-FETCH (R132, R211) -/

/-- A request that has been marked is fetched, and no other station's is touched. -/
theorem unfetched_marked {l : List StationId} (hl : l.Nodup) (s : State) (n : StationId) :
    (atEach l markFetched s).unfetched n = (s.unfetched n && !decide (n ∈ l)) := by
  have hat : ∀ (m : StationId) (u : State), AtStation m u (markFetched m u) := fun m u => atStation_modSt u m _
  by_cases hn : n ∈ l
  · obtain ⟨u, hu, ht⟩ := atEach_st_of_mem hat s hl hn
    have hfetched : (markFetched n u).unfetched n = false := by
      unfold State.unfetched markFetched
      rw [st_modSt_self]
      cases (u.st n).slot <;> rfl
    have hcongr : (atEach l markFetched s).unfetched n = (markFetched n u).unfetched n := by
      unfold State.unfetched
      rw [ht]
    rw [hcongr, hfetched]
    simp [hn]
  · have hcongr : (atEach l markFetched s).unfetched n = s.unfetched n := by
      unfold State.unfetched
      rw [atEach_st_of_notMem hat s hn]
    simp [hcongr, hn]

/-- In a list without repeats, what is not among its first entries is the rest. -/
theorem filter_notMem_take {α : Type} [DecidableEq α] (k : Nat) : ∀ {l : List α}, l.Nodup →
    l.filter (fun x => !decide (x ∈ l.take k)) = l.drop k := by
  intro l hl
  obtain ⟨-, hdrop, hdisj⟩ := List.nodup_append.mp ((List.take_append_drop k l).symm ▸ hl)
  have hsplit : l.filter (fun x => !decide (x ∈ l.take k)) =
      (l.take k).filter (fun x => !decide (x ∈ l.take k)) ++ (l.drop k).filter (fun x => !decide (x ∈ l.take k)) := by
    rw [← List.filter_append, List.take_append_drop]
  have htake : (l.take k).filter (fun x => !decide (x ∈ l.take k)) = [] := by
    rw [List.filter_eq_nil_iff]
    intro x hx
    simp [hx]
  have hrest : (l.drop k).filter (fun x => !decide (x ∈ l.take k)) = l.drop k := by
    rw [List.filter_eq_self]
    intro x hx
    simpa using fun hxt => hdisj x hxt x hx rfl
  rw [hsplit, htake, hrest, List.nil_append]

/-- Settles O37. -/
theorem authFetchResults : Obligations.AuthFetchResults := by
  refine ⟨fun s tag rest h hnodup => ?_, fun s tag position rest h => congrArg Host.Outcome.next ?_⟩
  · have hl : (newRequests s).Nodup := (hnodup.filter _).take
    have hframe := atEach_stations (f := markFetched) (fun n s => rfl) (newRequests s) s
    have hleft : ((atEach (newRequests s) markFetched s).fetchOrder.filter
        (atEach (newRequests s) markFetched s).unfetched).length = (s.fetchOrder.filter s.unfetched).length - 4 := by
      have hfetch : (atEach (newRequests s) markFetched s).fetchOrder = s.fetchOrder := by rw [hframe]
      have hfun : (atEach (newRequests s) markFetched s).unfetched =
          fun n => s.unfetched n && !decide (n ∈ newRequests s) := funext (unfetched_marked hl s)
      have hcomm : (fun n => s.unfetched n && !decide (n ∈ newRequests s)) =
          fun n => !decide (n ∈ newRequests s) && s.unfetched n := funext fun n => Bool.and_comm _ _
      rw [hfetch, hfun, hcomm, ← List.filter_filter, newRequests, filter_notMem_take 4 (hnodup.filter _), List.length_drop]
    refine ⟨atEach (newRequests s) markFetched s, congrArg Host.Outcome.next ?_, hframe, fun n => ?_⟩
    · refine runCommand_answers h (ofForm_of rfl (.inl rfl)) rfl (fun ht => absurd ht Bool.false_ne_true) ?_ (by rw [hframe])
      show report (authFetchData (atEach (newRequests s) markFetched s) (newRequests s)) _ = _
      rw [report, authFetchData, hleft]
      simp [newRequests]
    · have hat : ∀ (m : StationId) (u : State), AtStation m u (markFetched m u) := fun m u => atStation_modSt u m _
      split
      case isTrue hn =>
        obtain ⟨u, hu, ht⟩ := atEach_st_of_mem hat s hl hn
        rw [ht, ← hu, markFetched, st_modSt_self]
      case isFalse hn => exact atEach_st_of_notMem hat s hn
  · have hform : formOf 0x1E [position] = some 1 := rfl
    split
    case isTrue hp =>
      refine runCommand_answers h (ofForm_of rfl (.inl hform)) rfl (fun ht => absurd ht Bool.false_ne_true) ?_ rfl
      show ruleAuthFetchOutstanding [position] s = _
      rw [ruleAuthFetchOutstanding, fieldAt_zero_cons, if_pos ⟨rfl, hp⟩]
      rfl
    case isFalse hp =>
      refine runCommand_answers h (ofForm_of rfl (.inl hform)) rfl (fun ht => absurd ht Bool.false_ne_true) ?_ rfl
      show ruleAuthFetchOutstanding [position] s = _
      rw [ruleAuthFetchOutstanding, fieldAt_zero_cons, if_neg (fun hc => hp hc.2)]
      rfl

/-! ## LOG-READ and LOG-DROP (R170, R171, R173) -/

/-- A drop is taken when its count is in range and its number is the head's (R171). -/
theorem dropTaken_iff (count number : Nat) (l : Log) : dropTaken count number l = true ↔
    1 ≤ count ∧ count ≤ 256 ∧ l.records.head?.map LogRecord.number = some number ∧ count ≤ l.records.length := by
  simp [dropTaken, and_assoc]

/-- The count and the number of a LOG-DROP payload. -/
theorem logDrop_payload {count number : Nat} (hc : count < 65536) (hn : number < 4294967296) :
    fieldAt (be2 count ++ be4 number) 0 2 = count ∧ fieldAt (be2 count ++ be4 number) 2 4 = number :=
  ⟨fieldAt_be2 hc _, by simp [fieldAt_append, fieldAt_be4_alone hn]⟩

/-- Settles O40. -/
theorem logReadAndDropResults : Obligations.LogReadAndDropResults := by
  refine ⟨fun s tag count rest h => congrArg Host.Outcome.next ?_, fun s tag rest count number hc hn h => ?_⟩
  · split
    case isTrue hr =>
      refine runCommand_answers h rfl rfl (fun ht => absurd ht Bool.false_ne_true) ?_ rfl
      show ruleLogRead [count] s = _
      rw [ruleLogRead, fieldAt_zero_cons, if_pos hr, report, logReadData, List.length_take]
      rfl
    case isFalse hr =>
      refine runCommand_answers h rfl rfl (fun ht => absurd ht Bool.false_ne_true) ?_ rfl
      show ruleLogRead [count] s = _
      rw [ruleLogRead, fieldAt_zero_cons, if_neg hr]
      rfl
  · obtain ⟨hcount, hnumber⟩ := logDrop_payload hc hn
    have hrule : ruleLogDrop (be2 count ++ be4 number) s = if dropTaken count number s.log then
        report (logDropData (dropRecords count s).log) (dropRecords count s) else (.badParameter, logDropData s.log, s) := by
      rw [ruleLogDrop, hcount, hnumber]
    refine ⟨fun hbad => congrArg Host.Outcome.next ?_, fun hlow hhigh hhead hlen =>
      ⟨dropRecords count s, congrArg Host.Outcome.next ?_, ?_, ?_, ?_, ?_, ?_⟩⟩
    · refine runCommand_answers h rfl (by simp [sizeAllowed]) (fun ht => absurd ht Bool.false_ne_true)
        (hrule.trans (if_neg fun htaken => ?_)) rfl
      obtain ⟨h1, h256, hhead, hlen⟩ := (dropTaken_iff _ _ _).mp htaken
      obtain hb | hb | hb | hb := hbad
      · omega
      · omega
      · exact hb hhead
      · omega
    · refine runCommand_answers h rfl (by simp [sizeAllowed]) (fun ht => absurd ht Bool.false_ne_true)
        (hrule.trans (if_pos ((dropTaken_iff _ _ _).mpr ⟨hlow, hhigh, hhead, hlen⟩))) ?_
      rw [dropRecords, logLowCheck_frame]
    · rw [dropRecords, logLowCheck_frame]
    · simp [dropRecords]
    · simp [dropRecords]
    · simp [dropRecords]
    · rw [dropRecords, logLowCheck_armed]
      simp [Log.unreserved]

end Sys2Proof.Machine
end

section
/-! PROOF. What entries raise, what an opening and a first request leave alone; the probe tick and link silence (O50), and
the log's requests (O52). -/

namespace Sys2Proof.Machine

/-! ## What an entry raises (R9, R17, R53, R160) -/

@[simp] theorem statePanel_notices (n : StationId) (s : State) : (statePanel n s).notices = s.notices := by
  unfold statePanel
  split <;> rfl

/-- A commit keeps every pending notice pending. -/
theorem commitTariff_pending_mono {q : Bool} {n : StationId} {s : State} {src : NoticeSource}
    (h : (s.source src).pending = true) : ((commitTariff q n s).source src).pending = true := by
  unfold commitTariff
  split
  · exact h
  · dsimp only
    split
    · exact h
    · exact raiseMask_pending_mono _ h

/-- An entry to a state with a notice leaves the notice pending. -/
theorem enter_raises {q : Bool} {new : StationState} {n : StationId} {s : State} {src : NoticeSource}
    (h : (s.st n).state ≠ new) (hsrc : new.entryNotice = some src) : ((enter q new n s).source src).pending = true := by
  have hpanel : ((statePanel n (raiseEntry new n (s.modSt n (Station.entering new)))).source src).pending = true := by
    unfold State.source
    rw [statePanel_notices, raiseEntry, hsrc]
    exact (raiseFor_raised src n _).1
  unfold enter
  rw [if_neg h]
  dsimp only
  split
  · exact commitTariff_pending_mono hpanel
  · exact hpanel

/-! ## Without an admission in passage -/

/-- Without an admission in passage there is none to finish (R101). -/
theorem finishPassage_none {n : StationId} {s : State} (h : (s.st n).passage = none) : finishPassage n s = s := by
  rw [finishPassage, h]

/-! ## Probes and silence (R8, R9, R160) -/

theorem atStation_probeStation (n : StationId) (s : State) : AtStation n s (probeStation n s) := by
  unfold probeStation
  split
  · exact .refl n s
  · exact atStation_modSt s n _

theorem probeStation_stations (n : StationId) (s : State) :
    probeStation n s = { s with stations := (probeStation n s).stations } := by
  unfold probeStation
  split <;> rfl

/-- A station that takes the probe tick (R8, R202). -/
theorem st_probeStation (n : StationId) (s : State) : (probeStation n s).st n =
    if (s.st n).state = .disabled ∨ OutRecord.probe ∈ (s.st n).sendList then s.st n
    else { s.st n with sendList := (s.st n).sendList ++ [.probe] } := by
  unfold probeStation
  by_cases hd : (s.st n).state = .disabled
  · simp [hd]
  · by_cases hp : OutRecord.probe ∈ (s.st n).sendList <;> simp [hd, hp, sendProbe, listProbe]

/-- A suspension changes its station and the notices alone (R160). -/
theorem atStation_suspend (n : StationId) (s : State) : AtStation n s (suspend n s) := by
  unfold suspend
  dsimp only
  refine .trans ?_ (.trans (atStation_modSt _ _ _) (atStation_enter _ _ _ _))
  split
  · exact atStation_modSt s n _
  · exact .refl n s

/-- The prior session state that a suspension keeps (R160). -/
theorem priorOf_eq {x : StationState} : x.priorOf = if x = .confirming then .opened else x := by
  cases x <;> rfl

/-- The station as a suspension leaves it before it enters SUSPENDED (R160). -/
def Station.suspending (x : Station) : Station :=
  { (if x.state = .confirming then { x with startPending := false, descriptor := none, confirmTimer := none } else x) with
    prior := some x.state.priorOf
    recoveryTimer := if x.state = .jammedSession then x.recoveryTimer else some x.settings.recoveryTime }

/-- A suspension makes of its station what R160 says. -/
theorem st_suspend (n : StationId) (s : State) : (suspend n s).st n = (s.st n).suspending.entered .suspended := by
  unfold suspend Station.suspending
  dsimp only
  rw [st_enter, st_modSt_self]
  split
  · rw [dropStart, st_modSt_self]
  · rfl

/-- Silence reaches a station with no card in passage: it goes on by its state (R9). -/
theorem linkSilent_eq {n : StationId} {s : State} (h : (s.st n).passage = none) :
    finishPassage n (s.modSt n (fun x => { x with silence := 100 })) = s.modSt n (fun x => { x with silence := 100 }) :=
  finishPassage_none (by simpa using h)

/-- Settles O50. -/
theorem probesAndSilenceResults : Obligations.ProbesAndSilenceResults := by
  refine ⟨fun s => ?_, fun s n hp => ⟨fun hst => ?_, fun hst => ?_, fun hst => ?_⟩⟩
  · refine ⟨atEach (List.finRange 16) probeStation s, rfl, atEach_stations probeStation_stations _ s, fun n => ?_⟩
    obtain ⟨u, hu, ht⟩ := atEach_st_of_mem atStation_probeStation s (List.nodup_finRange 16) (List.mem_finRange n)
    rw [ht, st_probeStation, hu]
  · have hrow : exec (.linkSilence n) s = .next (enter false .down n (s.modSt n (fun x => { x with silence := 100 }))) := by
      show Host.Outcome.next (linkSilent n s) = _
      rw [linkSilent]
      rw [linkSilent_eq hp]
      obtain hst | hst | hst := hst <;> simp [hst]
    obtain ⟨others, rest⟩ := (atStation_modSt s n (fun x => { x with silence := 100 })).trans (atStation_enter false .down n _)
    refine ⟨_, hrow, ⟨others, rest⟩, by simp, by simp, by simp, enter_raises ?_ rfl⟩
    obtain hst | hst | hst := hst <;> simp [hst]
  · have hrow : exec (.linkSilence n) s = .next (suspend n (s.modSt n (fun x => { x with silence := 100 }))) := by
      show Host.Outcome.next (linkSilent n s) = _
      rw [linkSilent]
      rw [linkSilent_eq hp]
      obtain hst | hst | hst | hst | hst := hst <;> simp [hst]
    have hne : (s.st n).state ≠ .suspended := by
      obtain hst | hst | hst | hst | hst := hst <;> simp [hst]
    obtain ⟨others, rest⟩ := (atStation_modSt s n (fun x => { x with silence := 100 })).trans (atStation_suspend n _)
    have hx := st_suspend n (s.modSt n (fun x => { x with silence := 100 }))
    rw [st_modSt_self] at hx
    have hstate : ({ s.st n with silence := 100 } : Station).suspending.state = (s.st n).state := by
      unfold Station.suspending
      split <;> rfl
    have hkept : ({ s.st n with silence := 100 } : Station).suspending.session = (s.st n).session ∧
        ({ s.st n with silence := 100 } : Station).suspending.job = (s.st n).job ∧
        ({ s.st n with silence := 100 } : Station).suspending.inPath = (s.st n).inPath := by
      unfold Station.suspending
      split <;> exact ⟨rfl, rfl, rfl⟩
    obtain ⟨hsession, hjob, hpath⟩ := hkept
    refine ⟨_, hrow, ⟨others, rest⟩, ?_, ?_, ?_, ?_, ?_, ?_, ?_, ?_⟩
    · rw [hx, entered_state]
    · rw [hx, entered_prior, ← priorOf_eq]
      rfl
    · rw [hx, entered_session, hsession]
    · rw [hx, entered_job, hjob]
    · rw [hx, entered_inPath, hpath]
    · rw [hx, entered_idleTimer (by rw [hstate]; exact hne)]
      rfl
    · rw [hx, entered_recoveryTimer]
      rfl
    · refine enter_raises ?_ rfl
      rw [st_modSt_self]
      split <;> simp [dropStart, hne]
  · show Host.Outcome.next (linkSilent n s) = _
    rw [linkSilent]
    rw [linkSilent_eq hp]
    obtain hst | hst | hst | hst | hst := hst <;> simp [hst]

/-! ## Openings and first requests (R11, R130) -/

/-- An opening takes the session counter's value, and changes its station and the notices (R2, R11). -/
theorem atStation_openSession (funding : Funding) (card : CardId) (limit : Option Nat) (discount : Nat) (n : StationId)
    (s : State) : AtStation n { s with sessionCounter := nextNumber s.sessionCounter }
      (openSession funding card limit discount n s) := by
  unfold openSession
  exact (atStation_modSt _ n _).trans (atStation_enter _ _ _ _)

/-- A first request takes a tag and joins the fetch order, and changes its station and the notices (R130, R132). -/
theorem atStation_firstRequest (card : CardId) (dc : Nat) (n : StationId) (s : State) :
    AtStation n { s with tagCounter := (takeTag s).2.tagCounter, fetchOrder := s.fetchOrder ++ [n] }
      (firstRequest card dc n s) := by
  unfold firstRequest announceRequest
  have h := atStation_modSt { s with tagCounter := (takeTag s).2.tagCounter, fetchOrder := s.fetchOrder ++ [n] } n
    (fun x => { x with slot := .requested card dc (newRequest (takeTag s).1 s) })
  exact h.trans (atStation_raise .authWaiting (maskOf n) n _)

theorem atStation_endPassage (n : StationId) (s : State) : AtStation n s (endPassage n s) := atStation_modSt s n _

/-- A FREE card in passage opens a session (R101, R103). -/
def openFree (card : CardId) (n : StationId) (s : State) : State := openSession .free card none 0 n (endPassage n s)

/-- A BANK card in passage makes a first request (R101, R130). -/
def requestBank (card : CardId) (dc : Nat) (n : StationId) (s : State) : State :=
  enter false .authorizing n (firstRequest card dc n (endPassage n s))

/-- An outcome that opens at once is handled by its action (R101). -/
theorem admitOutcome_free {o : CardOutcome} (h : o.action = .free) (p : Passage) (n : StationId) (s : State) :
    admitOutcome o p n s = openFree p.card n s := by
  rw [admitOutcome, h]
  rfl

theorem admitOutcome_bank {o : CardOutcome} (h : o.action = .bank) (p : Passage) (n : StationId) (s : State) :
    admitOutcome o p n s = requestBank p.card o.discountClass n s := by
  rw [admitOutcome, h]
  rfl

/-- What the opening of a FREE card leaves (R11). -/
theorem openFree_result (card : CardId) (n : StationId) (s : State) :
    (openFree card n s).log = s.log ∧ (∀ m, m ≠ n → (openFree card n s).st m = s.st m) ∧
      ((openFree card n s).st n).state = .opened ∧ ((openFree card n s).st n).passage = none ∧
      ((openFree card n s).st n).session = some (newSession s.sessionCounter .free card none (s.st n).stamp 0 s.clock
        s.clockSet) := by
  have h := atStation_openSession .free card none 0 n (endPassage n s)
  refine ⟨h.log, fun m hm => (h.others m hm).trans ((atStation_endPassage n s).others m hm), ?_, ?_, ?_⟩
  · rw [openFree, st_openSession, entered_state]
  · rw [openFree, st_openSession, entered_passage, endPassage, st_modSt_self]
    rfl
  · rw [openFree, st_openSession, entered_session, endPassage, st_modSt_self]
    rfl

/-- What an account's opening leaves (R102, R11). -/
theorem openAccountSession_result (i : AccountId) (card : CardId) (limit dc : Nat) (n : StationId) (s : State) :
    (openAccountSession i card limit dc n s).log = s.log ∧
      (∀ m, m ≠ n → (openAccountSession i card limit dc n s).st m = s.st m) ∧
      ((openAccountSession i card limit dc n s).st n).state = .opened ∧
      ((openAccountSession i card limit dc n s).st n).passage = none ∧
      ((openAccountSession i card limit dc n s).st n).session = some (newSession s.sessionCounter (.account i) card
        (some limit) (s.st n).stamp ((s.st n).discountOf dc) s.clock s.clockSet) := by
  have h := atStation_openSession (.account i) card (some limit) ((s.st n).discountOf dc) n (endPassage n s)
  refine ⟨h.log, fun m hm => (h.others m hm).trans ((atStation_endPassage n s).others m hm), ?_, ?_, ?_⟩
  · rw [openAccountSession, st_openSession, entered_state]
  · rw [openAccountSession, st_openSession, entered_passage, endPassage, st_modSt_self]
    rfl
  · rw [openAccountSession, st_openSession, entered_session, endPassage, st_modSt_self]
    rfl

/-- The station of a BANK card's first request (R130). -/
theorem st_requestBank (card : CardId) (dc : Nat) (n : StationId) (s : State) : (requestBank card dc n s).st n =
    ({ s.st n with passage := none, slot := .requested card dc (newRequest (takeTag (endPassage n s)).1 s) } : Station).entered
      .authorizing := by
  rw [requestBank, st_enter, st_firstRequest, endPassage, st_modSt_self]
  rfl

/-- What a BANK card's first request leaves (R130). -/
theorem requestBank_result (card : CardId) (dc : Nat) (n : StationId) (s : State) :
    (requestBank card dc n s).log = s.log ∧ (∀ m, m ≠ n → (requestBank card dc n s).st m = s.st m) ∧
      (requestBank card dc n s).fetchOrder = s.fetchOrder ++ [n] := by
  have h := (atStation_firstRequest card dc n (endPassage n s)).trans (atStation_enter false .authorizing n _)
  exact ⟨h.log, fun m hm => (h.others m hm).trans ((atStation_endPassage n s).others m hm), h.fetchOrder⟩

/-! ## The log's requests (R168, R169, R172, R173) -/

/-- The counter after a record passes from 4,294,967,295 to 1 (R165). -/
theorem nextNumber_eq (n : Nat) : nextNumber n = if 4294967295 ≤ n then 1 else n + 1 := rfl

/-- A LOG_LOW check that finds the log low and armed leaves the notice pending (R173). -/
theorem logLowCheck_raises {s : State} (hu : s.log.unreserved ≤ 16) (ha : s.log.armed = true) :
    ((logLowCheck s).source .logLow).pending = true := by
  rw [logLowCheck, if_pos hu, if_pos ha, raise, raiseMask_source]

/-- The unreserved space is as the LOG_LOW check found it. -/
theorem logLowCheck_unreserved (s : State) : (logLowCheck s).log.unreserved = s.log.unreserved := by
  simp [Log.unreserved]

/-- A record that joins in place of a reservation. -/
theorem offerReserved_joins (body : LogBody) {s : State} (h : s.log.records.length < 256) :
    offerReserved body s = joinLog body (s.log.reservations - 1) s := if_pos h

@[simp] theorem st_answerWith (a : Answer) (s : State) (n : StationId) : (answerWith a s).st n = s.st n := rfl

/-- The outcome that an admission in passage goes on with: the one that stands, or the card's classification where the
station has passed its checks (R101, R105). -/
abbrev OutcomeStands (s : State) (n : StationId) (p : Passage) (o : CardOutcome) : Prop :=
  p.outcome = some o ∨ (p.outcome = none ∧ classify s p.card = o ∧ (s.st n).tariff.active.isSome = true ∧
    ¬ ((s.st n).settings.auditLock = true ∧ (s.st n).audit.state = .outOfStep))

/-- An admission in passage with neither hold nor refusal goes on with its outcome (R101). -/
theorem finishPassage_outcome {s : State} {n : StationId} {p : Passage} {o : CardOutcome} (hp : (s.st n).passage = some p)
    (hh : p.hold = none) (hr : p.refused = none) (ho : OutcomeStands s n p o) :
    finishPassage n s = admitOutcome o p n s := by
  rw [finishPassage, hp]
  simp only [hh, hr]
  obtain ho | ⟨hnone, hclass, htariff, hlock⟩ := ho
  · rw [ho]
  · rw [hnone]
    dsimp only
    rw [if_neg (fun h => hlock ((lockedOut_iff _).mp h)), if_neg (by simpa [Option.isSome_iff_ne_none] using htariff), hclass]

/-- Such an admission hands its reservation over when its outcome opens at once (R168). -/
theorem handoverReady_outcome {s : State} {n : StationId} {p : Passage} {o : CardOutcome} (hp : (s.st n).passage = some p)
    (hr : p.refused = none) (ho : OutcomeStands s n p o) (hopen : o.opensAtOnce = true) : handoverReady s n = true := by
  rw [handoverReady, hp]
  obtain ho | ⟨hnone, hclass, htariff, hlock⟩ := ho
  · simp [hr, ho, hopen]
  · have hl : (s.st n).lockedOut = false := Bool.eq_false_iff.mpr fun h => hlock ((lockedOut_iff _).mp h)
    simp [hr, hnone, hclass, htariff, hl, hopen]

/-- Settles O52. -/
theorem logRequestResults : Obligations.LogRequestResults := by
  refine ⟨fun s n card hi hp => ⟨fun hu => ?_, fun hu => ?_⟩, fun s n p hp hh => ?_,
    fun s n p i limit dc hi hp hh => ?_, fun s n p o hi hp hh hr ho => ⟨fun hfree => ?_, fun hbank => ?_⟩,
    fun s r hres hlen => ?_, fun s r hres hlen => ?_, fun s body hres hbody => ?_, fun s r hu => ?_, fun s r hu => ?_⟩
  · show execAdmissionReservation n card s = _
    rw [execAdmissionReservation, if_pos ⟨hi, hp⟩, reserve_refused hu]
    rfl
  · have hreserve : reserve s = (true, logLowCheck { s with log := { s.log with reservations := s.log.reservations + 1 } }) :=
      if_pos hu
    refine ⟨answerWith (.reserved true) (enterPassage card n
      (logLowCheck { s with log := { s.log with reservations := s.log.reservations + 1 } })), ?_, rfl, ?_, ?_, ?_, ?_, ?_⟩
    · show execAdmissionReservation n card s = _
      rw [execAdmissionReservation, if_pos ⟨hi, hp⟩, hreserve]
    · exact logLowCheck_reservations _
    · exact logLowCheck_records _
    · intro hlow harmed
      exact logLowCheck_raises ((logLowCheck_unreserved _).symm.trans_le hlow) harmed
    · rw [st_answerWith, enterPassage, st_modSt_self]
    · intro m hm
      rw [st_answerWith, enterPassage, st_modSt_ne _ _ hm, logLowCheck_st]
      rfl
  · have hready : (s.st n).inPassage = true := by simp [Station.inPassage, hp, hh]
    obtain ⟨hreservations, hrecords, -⟩ := returnReservation_log (endPassage n s)
    refine ⟨returnReservation (endPassage n s), if_pos hready, hreservations, hrecords, ?_, fun m hm => ?_⟩
    · rw [st_congr (returnReservation_stations _), endPassage, st_modSt_self]
    · rw [st_congr (returnReservation_stations _), endPassage, st_modSt_ne _ _ hm]
  · have hready : handoverReady s n = true := by simp [handoverReady, hp, hh]
    have hrow : exec (.handover n) s = .next (openAccountSession i p.card limit dc n s) := by
      refine (if_pos hready).trans ?_
      rw [finishPassage, hp]
      simp only [hh]
    obtain ⟨hlog, hothers, hstate, hpassage, hsession⟩ := openAccountSession_result i p.card limit dc n s
    exact ⟨_, hrow, hlog, hothers, hstate, hpassage, by rw [hsession]; rfl⟩
  · have hrow : exec (.handover n) s = .next (openFree p.card n s) := by
      refine (if_pos (handoverReady_outcome hp hr ho (by simp [CardOutcome.opensAtOnce, hfree]))).trans ?_
      rw [finishPassage_outcome hp hh hr ho, admitOutcome_free hfree]
    obtain ⟨hlog, hothers, hstate, hpassage, hsession⟩ := openFree_result p.card n s
    exact ⟨_, hrow, hlog, hothers, hstate, hpassage, by rw [hsession]; rfl⟩
  · have hrow : exec (.handover n) s = .next (requestBank p.card o.discountClass n s) := by
      refine (if_pos (handoverReady_outcome hp hr ho (by simp [CardOutcome.opensAtOnce, hbank]))).trans ?_
      rw [finishPassage_outcome hp hh hr ho, admitOutcome_bank hbank]
    obtain ⟨hlog, hothers, hfetch⟩ := requestBank_result p.card o.discountClass n s
    have hx := st_requestBank p.card o.discountClass n s
    refine ⟨_, hrow, hlog, hothers, ?_, ?_, ?_, hfetch, newRequest (takeTag (endPassage n s)).1 s, ?_, rfl, rfl⟩
    · rw [hx, entered_state]
    · rw [hx, entered_passage]
    · rw [hx, entered_session]
    · rw [hx, entered_slot]
  · obtain ⟨hrecords, hcounter, hreservations⟩ := joinLog_log (.void r) (s.log.reservations - 1) s
    refine ⟨answerWith (.recordNumber (some s.log.counter)) (joinLog (.void r) (s.log.reservations - 1) s), ?_, rfl, hrecords,
      hreservations, hcounter, fun hnil => joinLog_settlement _ _ hnil, joinLog_stations _ _ s⟩
    refine congrArg Host.Outcome.next ?_
    rw [offer]
    simp only [hres, if_true, offerReserved_joins _ hlen]
  · obtain ⟨hrecords, hcounter, hreservations⟩ := joinLog_log (.session r) (s.log.reservations - 1) s
    refine ⟨answerWith (.recordNumber (some s.log.counter)) (joinLog (.session r) (s.log.reservations - 1) s), ?_, rfl,
      ⟨hrecords, hreservations⟩, hcounter, fun hnil => joinLog_settlement _ _ hnil, joinLog_stations _ _ s⟩
    refine congrArg Host.Outcome.next ?_
    rw [offer]
    simp only [hres, if_true, offerReserved_joins _ hlen]
  · refine congrArg Host.Outcome.next ?_
    cases body with
    | statement r => exact absurd rfl (hbody r)
    | session r => simp [offer, hres, answerWith]
    | void r => simp [offer, hres, answerWith]
  · refine congrArg Host.Outcome.next ?_
    rw [offer, offerStatement_refused _ hu]
    rfl
  · obtain ⟨hrecords, hcounter, hreservations⟩ := joinLog_log (.statement r) s.log.reservations s
    refine ⟨answerWith (.recordNumber (some s.log.counter)) (joinLog (.statement r) s.log.reservations s), ?_, rfl, hrecords,
      hreservations, hcounter, fun hnil => joinLog_settlement _ _ hnil, joinLog_stations _ _ s⟩
    refine congrArg Host.Outcome.next ?_
    rw [offer, offerStatement_taken _ hu]

end Sys2Proof.Machine
end

section
/-! PROOF. ACCOUNT-ADJUST, ACCOUNT-BLOCK and ACCOUNT-UNBLOCK (O31), and the account runs (O30). -/

namespace Sys2Proof.Machine

/-! ## Signed fields and account indices (R204) -/

/-- A signed number reads back from its four bytes, two's complement (R204). -/
theorem signedAt_beSigned4 {x : List Byte} {off : Nat} (hx : x.length = off) {a : Int} (hlow : -2147483648 ≤ a)
    (hhigh : a < 2147483648) (y : List Byte) : signedAt (x ++ (beSigned4 a ++ y)) off = a := by
  have hn : (a % 4294967296).toNat < 4294967296 := by omega
  have hfield : fieldAt (x ++ (beSigned4 a ++ y)) off 4 = (a % 4294967296).toNat := by
    have h := fieldAt_beyond hx (beSigned4 a ++ y) 0 4
    rw [Nat.add_zero] at h
    rw [h, beSigned4, fieldAt_be4 hn]
  rw [signedAt, hfield]
  split <;> omega

@[simp] theorem length_beSigned4 (a : Int) : (beSigned4 a).length = 4 := by simp [beSigned4]

/-- A payload that begins with an account's index names the account. -/
theorem onAccount_first (i : AccountId) (y : List Byte) (s : State) (k : AccountId → Handled) :
    onAccount (be2 i.val ++ y) s k = k i := by
  rw [onAccount, fieldAt_be2 (Nat.lt_trans i.isLt (by decide)), accountOf_val]

/-- A payload that begins with an index above 2,047 names no account. -/
theorem onAccount_first_beyond {index : Nat} (h : 2047 < index) (hi : index < 65536) (y : List Byte) (s : State)
    (k : AccountId → Handled) : onAccount (be2 index ++ y) s k = refuse .badParameter s := by
  have hnone : accountOf index = none := dif_neg (Nat.not_lt.mpr h)
  rw [onAccount, fieldAt_be2 hi, hnone]

/-! ## Wakes (R115) -/

/-- A wake changes its account alone. -/
theorem startWake_account_ne (s : State) {i k : AccountId} (h : k ≠ i) : (startWake i s).account k = s.account k :=
  account_modAccount_ne _ _ h

/-- A change of an account whose wake is then started: the account but for its walk is as changed. -/
theorem startWake_modAccount {s : State} (hs : AccountTable.wf s.accounts) (i : AccountId) {f : Account → Account}
    (hfunded : (f (s.account i)).funded = (s.account i).funded) (hwalk : (f (s.account i)).walk = (s.account i).walk) :
    ∃ walk, (startWake i (s.modAccount i f)).account i = { f (s.account i) with walk := walk } ∧
      WakeStarted (s.account i).funded (s.account i).walk walk := by
  have hs' : AccountTable.wf (s.modAccount i f).accounts := (internal_modAccount 0 s i f).tables hs
  obtain ⟨walk, haccount, hstarted⟩ := startWake_account hs' i
  rw [account_modAccount_self hs] at haccount hstarted
  rw [hfunded, hwalk] at hstarted
  exact ⟨walk, haccount, hstarted⟩

/-! ## ACCOUNT-ADJUST (R123) -/

/-- An amount that is taken changes the balance of its account alone (R123). -/
theorem adjustBalance_rest (amount : Int) (i : AccountId) (s : State) :
    adjustBalance amount i s = { s with accounts := (adjustBalance amount i s).accounts } := by
  unfold adjustBalance
  dsimp only
  split <;> rfl

theorem adjustBalance_account_ne (amount : Int) (s : State) {i k : AccountId} (h : k ≠ i) :
    (adjustBalance amount i s).account k = s.account k := by
  unfold adjustBalance
  dsimp only
  split
  · rw [startWake_account_ne _ h, account_modAccount_ne _ _ h]
  · exact account_modAccount_ne _ _ h

/-- The account whose balance an amount has joined (R115, R123). -/
theorem adjustBalance_account {s : State} (hs : AccountTable.wf s.accounts) (amount : Int) (i : AccountId) :
    ∃ walk, (adjustBalance amount i s).account i =
        { s.account i with balance := (s.account i).balance + amount, walk := walk } ∧
      (amount ≤ 0 → walk = (s.account i).walk) ∧
      (0 < amount → WakeStarted (s.account i).funded (s.account i).walk walk) := by
  unfold adjustBalance
  dsimp only
  split
  case isTrue h =>
    obtain ⟨walk, haccount, hstarted⟩ := startWake_modAccount hs i
      (f := fun a => { a with balance := a.balance + amount }) rfl rfl
    exact ⟨walk, haccount, fun hle => absurd h (not_lt.mpr hle), fun _ => hstarted⟩
  case isFalse h => exact ⟨_, account_modAccount_self hs i _, fun _ => rfl, fun hlt => absurd hlt h⟩

/-- The available funds after an adjustment have moved with the balance. -/
theorem available_adjusted (a : Account) (amount : Int) (walk : Option Walk) :
    Account.available { a with balance := a.balance + amount, walk := walk } = a.available + amount := by
  simp only [Account.available, Account.held]
  omega

/-- What ACCOUNT-ADJUST's rule gives for an account and an amount of its payload. -/
theorem ruleAccountAdjust_eq (i : AccountId) {amount : Int} (hlow : -2147483648 ≤ amount) (hhigh : amount < 2147483648)
    (s : State) : ruleAccountAdjust (be2 i.val ++ beSigned4 amount) s =
      if judgeAdjust amount (s.account i) = .ok then
        (.ok, adjustData i (adjustBalance amount i s), adjustBalance amount i s)
      else (judgeAdjust amount (s.account i), adjustData i s, s) := by
  have hsigned : signedAt (be2 i.val ++ beSigned4 amount) 2 = amount := by
    simpa using signedAt_beSigned4 (length_be2 i.val) hlow hhigh []
  rw [ruleAccountAdjust, onAccount_first, hsigned]
  dsimp only
  split
  case isTrue h => rw [h]
  case isFalse => rfl

/-- An adjustment that its rule refuses is answered with its status and the account as it stands (R123). -/
theorem exec_accountAdjust_refused {s : State} {tag : Byte} {rest : List Frame} {i : AccountId} {amount : Int}
    {status : Status} (h : Executing s ⟨0x1A#8, tag, be2 i.val ++ beSigned4 amount⟩ rest) (ht : s.tablesReady = true)
    (hlow : -2147483648 ≤ amount) (hhigh : amount < 2147483648) (hj : judgeAdjust amount (s.account i) = status)
    (hne : status ≠ .ok) : exec .accountAdjust s = .next (answered s rest
      ⟨0x1A#8, tag, be2 i.val ++ beSigned4 amount⟩ status
      (beSigned4 (s.account i).balance ++ beSigned4 (s.account i).available)) := by
  refine congrArg Host.Outcome.next (runCommand_answers h rfl (by simp [sizeAllowed]) (fun _ => ht) ?_ rfl)
  show ruleAccountAdjust (be2 i.val ++ beSigned4 amount) s = _
  rw [ruleAccountAdjust_eq i hlow hhigh, hj, if_neg hne]
  rfl

/-- Settles O31: the judgements of ACCOUNT-ADJUST in their order, and the wakes that a change starts. -/
theorem accountAdjustAndBlockResults : Obligations.AccountAdjustAndBlockResults := by
  refine ⟨fun s tag rest i amount => fun h ht hs hlow hhigh => ⟨fun hfree => ?_, fun hfree hout => ?_,
      fun hfree hbl hbh havail => ?_, fun hfree hbl hbh havail => ?_⟩,
    fun s tag rest i amount => fun h ht hlow hhigh hout => ?_,
    fun s tag rest index ht hlow hhigh => ⟨fun amount h => ?_, fun h => ?_, fun h => ?_⟩,
    fun s tag rest i ht hs => ⟨fun h => ⟨fun hfree => ?_, fun hfree => ?_⟩,
      fun h => ⟨fun hfree => ?_, fun hactive => ?_, fun hblocked => ?_⟩⟩⟩
  · refine exec_accountAdjust_refused h ht (by omega) (by omega) ?_ (by decide)
    rw [judgeAdjust, if_neg (by omega), if_pos hfree]
  · refine exec_accountAdjust_refused h ht (by omega) (by omega) ?_ (by decide)
    rw [judgeAdjust, if_neg (by omega), if_neg hfree, if_pos hout]
  · refine exec_accountAdjust_refused h ht (by omega) (by omega) ?_ (by decide)
    rw [judgeAdjust, if_neg (by omega), if_neg hfree, if_neg (by omega), if_pos havail]
  · have hj : judgeAdjust amount (s.account i) = .ok := by
      rw [judgeAdjust, if_neg (by omega), if_neg hfree, if_neg (by omega), if_neg (by omega)]
    obtain ⟨walk, haccount, hkept, hwake⟩ := adjustBalance_account hs amount i
    have hframe := adjustBalance_rest amount i s
    have hdata : adjustData i (adjustBalance amount i s) =
        beSigned4 ((s.account i).balance + amount) ++ beSigned4 ((s.account i).available + amount) := by
      rw [adjustData, haccount, available_adjusted]
    refine ⟨adjustBalance amount i s, congrArg Host.Outcome.next ?_, hframe,
      fun k hk => adjustBalance_account_ne amount s hk, by rw [haccount], by rw [haccount]; exact hkept,
      by rw [haccount]; exact hwake⟩
    refine runCommand_answers h rfl (by simp [sizeAllowed]) (fun _ => ht) ?_ (by rw [hframe])
    show ruleAccountAdjust (be2 i.val ++ beSigned4 amount) s = _
    rw [ruleAccountAdjust_eq i (by omega) (by omega), if_pos hj, hdata]
  · refine exec_accountAdjust_refused h ht hlow hhigh ?_ (by decide)
    rw [judgeAdjust, if_pos hout]
  · exact congrArg Host.Outcome.next (runCommand_answers h rfl (by simp [sizeAllowed]) (fun _ => ht)
      (onAccount_first_beyond hlow hhigh _ s _) rfl)
  · exact congrArg Host.Outcome.next (runCommand_answers h rfl (by simp [sizeAllowed]) (fun _ => ht)
      (onAccount_beyond hlow hhigh s _) rfl)
  · exact congrArg Host.Outcome.next (runCommand_answers h rfl (by simp [sizeAllowed]) (fun _ => ht)
      (onAccount_beyond hlow hhigh s _) rfl)
  · refine congrArg Host.Outcome.next (runCommand_answers h rfl (by simp [sizeAllowed]) (fun _ => ht)
      ((onAccount_index i s _).trans ?_) rfl)
    exact if_pos hfree
  · refine ⟨s.modAccount i (fun a => { a with state := .blocked }), congrArg Host.Outcome.next (runCommand_answers h rfl
      (by simp [sizeAllowed]) (fun _ => ht) ((onAccount_index i s _).trans ?_) rfl), rfl,
      fun k hk => account_modAccount_ne _ _ hk, account_modAccount_self hs i _⟩
    exact if_neg hfree
  · refine congrArg Host.Outcome.next (runCommand_answers h rfl (by simp [sizeAllowed]) (fun _ => ht)
      ((onAccount_index i s _).trans ?_) rfl)
    rw [hfree]
    rfl
  · refine congrArg Host.Outcome.next (runCommand_answers h rfl (by simp [sizeAllowed]) (fun _ => ht)
      ((onAccount_index i s _).trans ?_) rfl)
    rw [hactive]
    rfl
  · obtain ⟨walk, haccount, hwake⟩ := startWake_modAccount hs i (f := fun a => { a with state := .active }) rfl rfl
    refine ⟨startWake i (s.modAccount i (fun a => { a with state := .active })), congrArg Host.Outcome.next
      (runCommand_answers h rfl (by simp [sizeAllowed]) (fun _ => ht) ((onAccount_index i s _).trans ?_) rfl), rfl,
      fun k hk => (startWake_account_ne _ hk).trans (account_modAccount_ne _ _ hk), by rw [haccount],
      by rw [haccount]; exact hwake⟩
    rw [hblocked]
    rfl

/-! ## The records of ACCOUNT-WRITE (R210) -/

theorem length_accountFields_bytes (w : AccountFields) : w.bytes.length = 12 := by
  simp [AccountFields.bytes]

/-- The codes of the account states and kinds are read back. -/
theorem accountStateOf_code (a : AccountState) : accountStateOf a.code = some a ∧ a.code < 256 := by
  cases a <;> exact ⟨rfl, by decide⟩

theorem accountKindOf_code (a : AccountKind) : accountKindOf a.code = some a ∧ a.code < 256 := by
  cases a <;> exact ⟨rfl, by decide⟩

/-- A number below 2,147,483,648 is read from its four bytes as it stands. -/
theorem signedAt_be4 {x : List Byte} {off : Nat} (hx : x.length = off) {k : Nat} (hk : k < 2147483648) (y : List Byte) :
    signedAt (x ++ (be4 k ++ y)) off = k := by
  have hfield : fieldAt (x ++ (be4 k ++ y)) off 4 = k := by
    have h := fieldAt_beyond hx (be4 k ++ y) 0 4
    rw [Nat.add_zero] at h
    rw [h, fieldAt_be4 (by omega)]
  rw [signedAt, hfield, if_pos hk]

/-- The fields of a record in range are read back from its bytes (R210). -/
theorem accountFieldsOf_bytes {w : AccountFields} (h : w.InRange) : accountFieldsOf w.bytes = some w := by
  obtain ⟨hbl, hbh, hcredit, hcl, hch, hclass⟩ := h
  obtain ⟨hstate, hstate256⟩ := accountStateOf_code w.state
  obtain ⟨hkind, hkind256⟩ := accountKindOf_code w.kind
  have state : fieldAt w.bytes 0 1 = w.state.code := by
    simp only [AccountFields.bytes, List.append_assoc]
    exact fieldAt_be1 hstate256 _
  have kind : fieldAt w.bytes 1 1 = w.kind.code := by
    simp [AccountFields.bytes, fieldAt_append, fieldAt_be1 hkind256]
  have balance : signedAt w.bytes 2 = w.balance := by
    simpa [AccountFields.bytes] using signedAt_beSigned4 (x := be1 w.state.code ++ be1 w.kind.code) (off := 2) (by simp)
      (a := w.balance) (by omega) (by omega) (be4 w.creditLimit ++ be1 w.cap ++ be1 w.discountClass)
  have credit : signedAt w.bytes 6 = w.creditLimit := by
    simpa [AccountFields.bytes] using signedAt_be4 (x := be1 w.state.code ++ be1 w.kind.code ++ beSigned4 w.balance)
      (off := 6) (by simp) (k := w.creditLimit) (by omega) (be1 w.cap ++ be1 w.discountClass)
  have cap : fieldAt w.bytes 10 1 = w.cap := by
    simp [AccountFields.bytes, fieldAt_append, fieldAt_be1 (show w.cap < 256 by omega)]
  have cls : fieldAt w.bytes 11 1 = w.discountClass := by
    simp [AccountFields.bytes, fieldAt_append, fieldAt_be1_alone (show w.discountClass < 256 by omega)]
  rw [accountFieldsOf, state, kind, hstate, hkind]
  simp only [balance, credit, cap, cls, Int.toNat_natCast]
  exact if_pos ⟨hbl, hbh, by omega, by omega, hcl, hch, hclass⟩

/-- A record with a field out of its range has no fields to write (R107). -/
theorem accountFieldsOf_none {r : List Byte} (h : 2 < fieldAt r 0 1 ∨ 1 < fieldAt r 1 1 ∨ signedAt r 2 < -99999999 ∨
    99999999 < signedAt r 2 ∨ signedAt r 6 < 0 ∨ 99999999 < signedAt r 6 ∨ fieldAt r 10 1 = 0 ∨ 4 < fieldAt r 10 1 ∨
    7 < fieldAt r 11 1) : accountFieldsOf r = none := by
  unfold accountFieldsOf
  split
  case h_2 => rfl
  case h_1 state kind hstate hkind =>
    have hs : fieldAt r 0 1 ≤ 2 := by
      by_contra hc
      unfold accountStateOf at hstate
      split at hstate
      case h_4 => exact nomatch hstate
      all_goals omega
    have hk : fieldAt r 1 1 ≤ 1 := by
      by_contra hc
      unfold accountKindOf at hkind
      split at hkind
      case h_3 => exact nomatch hkind
      all_goals omega
    exact if_neg (by omega)

/-- The account that a record is written to is as R120 says. -/
theorem written_writtenAs (w : AccountFields) (time : Nat) (clockSet : Bool) (a : Account) :
    a.WrittenAs w time clockSet (a.written w time clockSet) := by
  unfold Account.written
  by_cases h : a.state = .free ∧ w.state ≠ .free
  · rw [if_pos h]
    exact ⟨⟨rfl, rfl, rfl, rfl, rfl, rfl⟩, rfl, by rw [if_pos h]; exact ⟨rfl, rfl, rfl, rfl, rfl, rfl⟩⟩
  · rw [if_neg h]
    exact ⟨⟨rfl, rfl, rfl, rfl, rfl, rfl⟩, rfl, by rw [if_neg h]; exact ⟨rfl, rfl, rfl, rfl, rfl, rfl⟩⟩

/-- An account with an open session takes no record (R120). -/
theorem writeRecord_busy {i : AccountId} {s : State} (h : (s.account i).funded ≠ []) (r : List Byte) :
    writeRecord i r s = (.busy, s) := if_pos h

/-- A record of funds below 0, or with a field out of its range, is not written (R107, R120). -/
theorem writeRecord_refused {i : AccountId} {s : State} {r : List Byte} (h : (s.account i).funded = [])
    (hr : ∀ w, accountFieldsOf r = some w → w.funds < 0) : writeRecord i r s = (.badParameter, s) := by
  rw [writeRecord, if_neg (not_not_intro h)]
  split
  case h_1 => rfl
  case h_2 w hw => exact if_pos (hr w hw)

/-- A record in range is written to an account without a session (R120). -/
theorem writeRecord_written {i : AccountId} {s : State} {w : AccountFields} (h : (s.account i).funded = [])
    (hw : w.InRange) (hf : 0 ≤ w.funds) :
    writeRecord i w.bytes s = (.ok, s.modAccount i (Account.written w s.clock s.clockSet)) := by
  rw [writeRecord, if_neg (not_not_intro h), accountFieldsOf_bytes hw]
  exact if_neg (not_lt.mpr hf)

/-- A record of a run that is written lets the run go on. -/
theorem writeRun_written {i : AccountId} {r : List Byte} {s t : State} (h : writeRecord i r s = (.ok, t))
    (rest : List (List Byte)) (written : Nat) :
    writeRun (r :: rest) i.val written s = writeRun rest (i.val + 1) (written + 1) t := by
  rw [writeRun, accountOf_val]
  simp only [h]

/-- A record of a run that is not written stops the run. -/
theorem writeRun_stopped {i : AccountId} {r : List Byte} {s t : State} {status : Status}
    (h : writeRecord i r s = (status, t)) (hne : status ≠ .ok) (rest : List (List Byte)) (written : Nat) :
    writeRun (r :: rest) i.val written s = (status, written, t) := by
  rw [writeRun, accountOf_val]
  simp only [h]

/-! ## The payload of a run -/

/-- The payload of an ACCOUNT-WRITE: its start, its run and its records (R210). -/
def runPayload (start run : Nat) (records : List Byte) : List Byte := be2 start ++ be1 run ++ records

theorem runPayload_start {start : Nat} (h : start < 65536) (run : Nat) (records : List Byte) :
    fieldAt (runPayload start run records) 0 2 = start := by
  rw [runPayload, List.append_assoc, fieldAt_be2 h]

theorem runPayload_run {run : Nat} (h : run < 256) (start : Nat) (records : List Byte) :
    fieldAt (runPayload start run records) 2 1 = run := by
  simp [runPayload, fieldAt_append, fieldAt_be1 h]

theorem length_runPayload (start run : Nat) (records : List Byte) :
    (runPayload start run records).length = records.length + 3 := by
  simp [runPayload]
  omega

/-- So many records as its bytes make, 12 to a record. -/
theorem length_recordsOf (start run : Nat) (records : List Byte) :
    (recordsOf (runPayload start run records)).length = records.length / 12 := by
  simp [recordsOf, length_runPayload]

/-- The records of a payload are the twelves of its bytes after the first three. -/
theorem recordsOf_runPayload (start run : Nat) (records : List Byte) : recordsOf (runPayload start run records) =
    (List.range (records.length / 12)).map (fun k => (records.drop (12 * k)).take 12) := by
  rw [recordsOf, length_runPayload, Nat.add_sub_cancel]
  refine List.map_congr_left fun k _ => ?_
  rw [← List.drop_drop]
  rfl

/-- A payload of one record. -/
theorem recordsOf_one (start : Nat) {r : List Byte} (h : r.length = 12) : recordsOf (runPayload start 1 r) = [r] := by
  simp [recordsOf_runPayload, h, List.take_of_length_le]

/-- A payload of two records. -/
theorem recordsOf_two (start : Nat) {r q : List Byte} (hr : r.length = 12) (hq : q.length = 12) :
    recordsOf (runPayload start 2 (r ++ q)) = [r, q] := by
  simp [recordsOf_runPayload, hr, hq, List.range_succ, List.take_of_length_le]

/-! ## The runs (R120, R122, R192) -/

/-- A run that comes to its reply is answered with what its rule gives. -/
theorem runAccounts_answers {s t : State} {f : Frame} {r : Run} {rest : List Frame} {code : Nat}
    {rule : Run → List Byte → State → RunStep} {status : Status} {data : List Byte} (h : s.headRun = some (f, r))
    (hq : s.host.queue = f :: rest) (hc : ofCode code f = true) (hsize : sizeAllowed f.type f.payload.length = true)
    (ht : s.tablesReady = true) (hr : rule r f.payload s = .ended (status, data, t)) (hh : t.host = s.host) :
    runAccounts code rule s = answered t rest f status data := by
  rw [runAccounts_head rule h hc (refusedBefore_none hsize fun _ => ht), hr, RunStep.settle]
  exact complete_eq_answered (by rw [hh, hq]) status data

/-- A run that stops within its command stays at the head of the queue (R192). -/
theorem runAccounts_pauses {s t : State} {f : Frame} {r next : Run} {code : Nat}
    {rule : Run → List Byte → State → RunStep} (h : s.headRun = some (f, r)) (hc : ofCode code f = true)
    (hsize : sizeAllowed f.type f.payload.length = true) (ht : s.tablesReady = true)
    (hr : rule r f.payload s = .paused next t) :
    runAccounts code rule s = t.modHost (fun x => { x with run := some next }) := by
  rw [runAccounts_head rule h hc (refusedBefore_none hsize fun _ => ht), hr, RunStep.settle]

/-- What a run comes to with the records a step has taken: its reply, or a point within it (R120, R192). -/
def runEnd (run : Nat) (w : Status × Nat × State) : RunStep :=
  if w.1 = .ok ∧ w.2.1 < run then .paused { taken := w.2.1 } w.2.2 else .ended (w.1, be1 w.2.1, w.2.2)

/-- The start and the run of an ACCOUNT-WRITE are in range, and its records as many as its run says. -/
theorem ruleAccountWriteRecords_eq {start run : Nat} {records : List Byte} {recs : List (List Byte)}
    (hrecs : recordsOf (runPayload start run records) = recs) (hlen : recs.length = run) (hlow : 1 ≤ run)
    (hhigh : run ≤ 8) (hend : start + run ≤ 2048) (pause : Option Nat) (r : Run) (s : State) :
    ruleAccountWriteRecords pause r (runPayload start run records) s =
      runEnd run (writeRun (portion pause (recs.drop r.taken)) (start + r.taken) r.taken s) := by
  rw [ruleAccountWriteRecords, runPayload_start (by omega), runPayload_run (by omega), hrecs, hlen]
  exact if_pos ⟨by omega, hlow, hhigh, by omega, rfl⟩

/-- A start, a run or a count of records out of range is refused (R120). -/
theorem ruleAccountWriteRecords_refused {start run : Nat} {records : List Byte} (hs : start < 65536) (hr : run < 256)
    (h : 2047 < start ∨ run = 0 ∨ 8 < run ∨ 2047 < start + run - 1 ∨ records.length / 12 ≠ run) (pause : Option Nat)
    (r : Run) (s : State) :
    ruleAccountWriteRecords pause r (runPayload start run records) s = .ended (.badParameter, be1 0, s) := by
  rw [ruleAccountWriteRecords, runPayload_start hs, runPayload_run hr, length_recordsOf]
  exact if_neg (by omega)

/-- One record, at an account's index. -/
theorem ruleAccountWriteRecords_one (i : AccountId) {record : List Byte} (h : record.length = 12) (s : State) :
    ruleAccountWriteRecords none {} (runPayload i.val 1 record) s = runEnd 1 (writeRun [record] i.val 0 s) :=
  ruleAccountWriteRecords_eq (recordsOf_one i.val h) rfl (by decide) (by decide) (by omega) none {} s

/-- A record that is not written ends its run of one with its status. -/
theorem ruleAccountWriteRecords_stopped {i : AccountId} {record : List Byte} (h : record.length = 12) {s : State}
    {status : Status} (hw : writeRecord i record s = (status, s)) (hne : status ≠ .ok) :
    ruleAccountWriteRecords none {} (runPayload i.val 1 record) s = .ended (status, be1 0, s) := by
  rw [ruleAccountWriteRecords_one i h, writeRun_stopped hw hne]
  exact if_neg (fun hc => hne hc.1)

/-- The payload of one record, or two, has a size that its code allows. -/
theorem sizeAllowed_runPayload {start run : Nat} {records : List Byte} (h : records.length = 12 ∨ records.length = 24) :
    sizeAllowed 0x17#8 (runPayload start run records).length = true := by
  rw [length_runPayload]
  obtain h | h := h <;> rw [h] <;> rfl

/-! ## ACCOUNT-READ (R122) -/

/-- A read of a start and a count in range, from the account it stands at. -/
theorem ruleAccountRead_eq {start count : Nat} (hlow : 1 ≤ count) (hhigh : count ≤ 8) (hend : start + count ≤ 2048)
    (pause : Option Nat) (r : Run) (s : State) : ruleAccountRead pause r (be2 start ++ be1 count) s =
      let part := portion pause ((List.range count).drop r.taken)
      let read := r.read ++ part.map (fun k => lookupAccount s.accounts (start + k))
      if r.taken + part.length < count then .paused { taken := r.taken + part.length, read := read } s
      else .ended (report (accountReadData read s.quantum) s) := by
  have hs : fieldAt (be2 start ++ be1 count) 0 2 = start := fieldAt_be2 (by omega) _
  have hc : fieldAt (be2 start ++ be1 count) 2 1 = count := by
    simp [fieldAt_append, fieldAt_be1_alone (show count < 256 by omega)]
  rw [ruleAccountRead, hs, hc]
  exact if_pos ⟨by omega, hlow, hhigh, by omega⟩

/-- A read of a start or a count out of range is refused. -/
theorem ruleAccountRead_refused {start count : Nat} (hs : start < 65536) (hc : count < 256)
    (h : 2047 < start ∨ count = 0 ∨ 8 < count ∨ 2047 < start + count - 1) (pause : Option Nat) (r : Run) (s : State) :
    ruleAccountRead pause r (be2 start ++ be1 count) s = .ended (refuse .badParameter s) := by
  have hstart : fieldAt (be2 start ++ be1 count) 0 2 = start := fieldAt_be2 hs _
  have hcount : fieldAt (be2 start ++ be1 count) 2 1 = count := by simp [fieldAt_append, fieldAt_be1_alone hc]
  rw [ruleAccountRead, hstart, hcount]
  exact if_neg (by omega)

/-- The first entries of a range from `k` on. -/
theorem drop_range (count k : Nat) : (List.range count).drop k = (List.range (count - k)).map (k + ·) := by
  rw [← List.range'_eq_map_range, List.range_eq_range', List.drop_range']
  simp

/-- Settles O30: each run is cut into the records it takes, and each record written or judged where it stands. -/
theorem accountWriteAndReadResults : Obligations.AccountWriteAndReadResults := by
  refine ⟨fun s tag rest i w => ?_, fun s tag rest i k w v => ?_, fun s tag rest start run records ht hs hr => ?_,
    fun s tag rest i record ht hs hlen hf => ?_, fun s tag rest start count ht hs hc hbad h pause => ?_,
    fun s tag rest q hq ht h => ?_, fun s tag rest start count ht hlow hhigh hend => ?_⟩
  · intro p h ht hs hw
    have hlen := length_accountFields_bytes w
    have hsize : sizeAllowed 0x17#8 p.length = true := sizeAllowed_runPayload (.inl hlen)
    refine ⟨fun hf => congrArg Host.Outcome.next ?_, fun hf hneg => congrArg Host.Outcome.next ?_, fun hf hfunds =>
      ⟨s.modAccount i (Account.written w s.clock s.clockSet), congrArg Host.Outcome.next ?_, rfl,
        fun k hk => account_modAccount_ne _ _ hk, ?_⟩⟩
    · exact runAccounts_answers (headRun_begins h) h.2.2.2 rfl hsize ht
        (ruleAccountWriteRecords_stopped hlen (writeRecord_busy hf _) (by decide)) rfl
    · refine runAccounts_answers (headRun_begins h) h.2.2.2 rfl hsize ht
        (ruleAccountWriteRecords_stopped hlen (writeRecord_refused hf fun v hv => ?_) (by decide)) rfl
      rw [accountFieldsOf_bytes hw] at hv
      obtain rfl := Option.some.inj hv
      exact hneg
    · refine runAccounts_answers (headRun_begins h) h.2.2.2 rfl hsize ht ?_ rfl
      exact (ruleAccountWriteRecords_one i hlen s).trans (by rw [writeRun_written (writeRecord_written hf hw hfunds)]; rfl)
    · rw [account_modAccount_self hs]
      exact written_writtenAs w _ _ _
  · intro f hk ht hs hw hv hwf hvf
    have hwlen := length_accountFields_bytes w
    have hvlen := length_accountFields_bytes v
    have hsize : sizeAllowed 0x17#8 f.payload.length = true :=
      sizeAllowed_runPayload (.inr (by simp [hwlen, hvlen]))
    have hrule := ruleAccountWriteRecords_eq (recordsOf_two i.val hwlen hvlen) rfl (by decide) (by decide) (by omega)
    refine ⟨fun h hf => ⟨_, congrArg Host.Outcome.next (runAccounts_pauses
        (t := s.modAccount i (Account.written w s.clock s.clockSet)) (headRun_begins h) rfl hsize ht
        ((hrule (some 1) {} s).trans ?_)), rfl, fun m hm => account_modAccount_ne s _ hm, ?_⟩,
      fun h => ⟨fun hf => congrArg Host.Outcome.next ?_, fun hf => ⟨s.modAccount k (Account.written v s.clock s.clockSet),
        congrArg Host.Outcome.next ?_, rfl, fun m hm => account_modAccount_ne _ _ hm, ?_⟩⟩⟩
    · show runEnd 2 (writeRun [w.bytes] i.val 0 s) = _
      rw [writeRun_written (writeRecord_written hf hw hwf)]
      rfl
    · show (s.account i).WrittenAs w _ _ ((s.modAccount i (Account.written w s.clock s.clockSet)).account i)
      rw [account_modAccount_self hs]
      exact written_writtenAs w _ _ _
    · refine runAccounts_answers (headRun_running h) h.2 rfl hsize ht ((hrule none { taken := 1 } s).trans ?_) rfl
      show runEnd 2 (writeRun [v.bytes] (i.val + 1) 1 s) = _
      rw [← hk, writeRun_stopped (writeRecord_busy hf _) (by decide)]
      rfl
    · refine runAccounts_answers (headRun_running h) h.2 rfl hsize ht ((hrule none { taken := 1 } s).trans ?_) rfl
      show runEnd 2 (writeRun [v.bytes] (i.val + 1) 1 s) = _
      rw [← hk, writeRun_written (writeRecord_written hf hv hvf)]
      rfl
    · rw [account_modAccount_self hs]
      exact written_writtenAs v _ _ _
  · intro f h hsize hbad pause
    have hshape : (records.length + 3 - 15) % 12 = 0 ∧ 15 ≤ records.length + 3 := by
      have hpayload : f.payload.length = records.length + 3 := length_runPayload start run records
      rw [hpayload] at hsize
      simp [sizeAllowed] at hsize
      omega
    exact congrArg Host.Outcome.next (runAccounts_answers (headRun_begins h) h.2.2.2 rfl hsize ht
      (ruleAccountWriteRecords_refused hs hr (by omega) pause {} s) rfl)
  · intro f h hbad
    refine congrArg Host.Outcome.next (runAccounts_answers (headRun_begins h) h.2.2.2 rfl
      (sizeAllowed_runPayload (.inl hlen)) ht
      (ruleAccountWriteRecords_stopped hlen (writeRecord_refused hf fun w hw => ?_) (by decide)) rfl)
    rw [accountFieldsOf_none hbad] at hw
    exact nomatch hw
  · exact congrArg Host.Outcome.next (runAccounts_answers (headRun_begins h) h.2.2.2 rfl (by simp [sizeAllowed]) ht
      (ruleAccountRead_refused hs hc hbad pause {} s) rfl)
  · refine congrArg Host.Outcome.next ?_
    split
    case isTrue hr =>
      refine runCommand_answers h rfl (by simp [sizeAllowed]) (fun _ => ht) ?_ rfl
      show ruleAccountWriteQuantum (be4 q) s = _
      rw [ruleAccountWriteQuantum, fieldAt_be4_alone hq, if_pos hr]
      rfl
    case isFalse hr =>
      refine runCommand_answers h rfl (by simp [sizeAllowed]) (fun _ => ht) ?_ rfl
      show ruleAccountWriteQuantum (be4 q) s = _
      rw [ruleAccountWriteQuantum, fieldAt_be4_alone hq, if_neg hr]
      rfl
  · intro f
    have hsize : sizeAllowed 0x19#8 f.payload.length = true := by simp [f, sizeAllowed]
    have hrule := ruleAccountRead_eq hlow hhigh hend
    refine ⟨fun h => ⟨congrArg Host.Outcome.next ?_, fun k hk => congrArg Host.Outcome.next ?_⟩,
      fun read hread h => congrArg Host.Outcome.next ?_⟩
    · refine runAccounts_answers (headRun_begins h) h.2.2.2 rfl hsize ht ((hrule none {} s).trans ?_) rfl
      simp [portion, report, accountReadData, beList, List.flatMap_map]
    · refine runAccounts_pauses (headRun_begins h) rfl hsize ht ((hrule (some k) {} s).trans ?_)
      simp [portion, hk, Nat.le_of_lt hk, List.take_range]
    · refine runAccounts_answers (headRun_running h) h.2 rfl hsize ht ((hrule none _ s).trans ?_) rfl
      have hall : read.length + (count - read.length) = count := by omega
      simp [portion, drop_range, hall, report, accountReadData, beList, List.flatMap_map, Nat.add_assoc]

end Sys2Proof.Machine
end

section
/-! PROOF. Grants: a request sized at a station, with what its funder was asked (R48 to R53). `FunderAsked` says what asking
the funder leaves; `sized_granted` and `consulted_consult` give the grant and the station's state after it. -/

namespace Sys2Proof.Machine

/-! ## Notices that stay raised -/

/-- The source is pending with the station in its bitmap (R196). -/
abbrev Raised (src : NoticeSource) (n : StationId) (s : State) : Prop :=
  (s.source src).pending = true ∧ inMask (s.source src).bitmap n = true

/-- A raise takes no station out of any bitmap. -/
theorem Raised.raiseMask {src : NoticeSource} {n : StationId} {s : State} (h : Raised src n s) (x : NoticeSource)
    (m : Mask) : Raised src n (raiseMask x m s) := by
  obtain ⟨hp, hb⟩ := h
  refine ⟨raiseMask_pending_mono m hp, ?_⟩
  by_cases he : x.index = src.index
  · have hsource : (Machine.raiseMask x m s).source src =
        { s.source x with pending := true, bitmap := (s.source x).bitmap ||| m } := by
      simp [State.source, Machine.raiseMask, he]
    have hsame : s.source x = s.source src := by simp [State.source, he]
    rw [hsource, hsame]
    simp only [inMask] at hb
    simp [inMask, hb]
  · have hne : x.index.val ≠ src.index.val := fun e => he (Fin.ext e)
    have hsource : (Machine.raiseMask x m s).source src = s.source src := by
      simp [State.source, Machine.raiseMask, Vector.getElem_set_ne, hne]
    rw [hsource]
    exact hb

theorem Raised.notices {src : NoticeSource} {n : StationId} {s t : State} (h : Raised src n s) (ht : t.notices = s.notices) :
    Raised src n t := by
  unfold Raised State.source
  rw [ht]
  exact h

/-- An entry takes no station out of any bitmap. -/
theorem Raised.enter {src : NoticeSource} {n : StationId} {s : State} (h : Raised src n s) (q : Bool) (new : StationState)
    (m : StationId) : Raised src n (enter q new m s) := by
  have hpanel : Raised src n (statePanel m (raiseEntry new m (s.modSt m (Station.entering new)))) := by
    refine Raised.notices ?_ (statePanel_notices _ _)
    unfold raiseEntry
    split
    · exact h
    · exact Raised.raiseMask h _ _
  unfold Machine.enter
  split
  · exact h
  · dsimp only
    split
    · unfold commitTariff
      split
      · exact hpanel
      · dsimp only
        split
        · exact hpanel
        · exact Raised.raiseMask hpanel _ _
    · exact hpanel

/-! ## GRANTs on the send list (R202) -/

/-- A PANEL leaves the GRANTs listed. -/
theorem grant_mem_listPanel (k : Nat) (locked : Bool) (amount : Nat) (code : Option PanelCode) (l : List OutRecord) :
    OutRecord.grant k ∈ listPanel locked amount code l ↔ OutRecord.grant k ∈ l := by
  simp [listPanel]

theorem grant_mem_panelList (k : Nat) (x : Station) : OutRecord.grant k ∈ x.panelList ↔ OutRecord.grant k ∈ x.sendList := by
  unfold Station.panelList
  split
  · exact .rfl
  · exact grant_mem_listPanel _ _ _ _ _

/-- An entry leaves the GRANTs listed. -/
theorem grant_mem_entered (k : Nat) (new : StationState) (x : Station) :
    OutRecord.grant k ∈ (x.entered new).sendList ↔ OutRecord.grant k ∈ x.sendList := by
  by_cases h : x.state = new
  · simp [Station.entered, h]
  · rw [entered_sendList h, grant_mem_panelList]
    by_cases hd : new = .disabled <;> simp [Station.entering, hd, dropProbes]

/-- A GRANT that is produced is listed, with an unsent one's sides where it adds to one. -/
theorem mem_listGrant (g : Nat) : ∀ l : List OutRecord, ∃ k, g ≤ k ∧ OutRecord.grant k ∈ listGrant g l
  | [] => ⟨g, le_rfl, by simp [listGrant]⟩
  | .grant h :: t => by
    unfold listGrant
    split
    · obtain ⟨k, hk, hmem⟩ := mem_listGrant g t
      exact ⟨k, hk, List.mem_cons_of_mem _ hmem⟩
    · exact ⟨h + g, Nat.le_add_left _ _, List.mem_cons_self⟩
  | .halt :: t => by
    obtain ⟨k, hk, hmem⟩ := mem_listGrant g t
    exact ⟨k, hk, List.mem_cons_of_mem _ hmem⟩
  | .panel _ _ _ :: t => by
    obtain ⟨k, hk, hmem⟩ := mem_listGrant g t
    exact ⟨k, hk, List.mem_cons_of_mem _ hmem⟩
  | .probe :: t => by
    obtain ⟨k, hk, hmem⟩ := mem_listGrant g t
    exact ⟨k, hk, List.mem_cons_of_mem _ hmem⟩

/-! ## The exposure check (R49, R50) -/

/-- A grant passes when it fits the session's funding limit (R49). -/
theorem passes_iff {x : Station} {ses : Session} (h : x.session = some ses) (g : Nat) :
    x.passes g = true ↔ fits g (ses.gross + x.released * x.ceiling) x.ceiling ses.limit := by
  rw [Station.passes, h, fits]
  cases hl : ses.limit with
  | none => simp [hl]
  | some l => simp [hl, exposure_eq h]

/-- The largest passing grant within a request, by the funding limit (R49, R50). -/
theorem passing_eq {x : Station} {ses : Session} (h : x.session = some ses) (request : Nat) :
    x.passing request = match ses.limit with
      | none => request
      | some l => if x.passes request then request else min request ((10 * l - x.exposure) / x.ceiling) := by
  cases hl : ses.limit <;> simp [Station.passing, h, hl]

/-- A request is sized into what the funding limit allows (R49, R50). -/
theorem sized_eq {x : Station} {ses : Session} (h : x.session = some ses) (whole : Bool) (request : Nat) :
    x.sized whole request =
      grantWithin whole request (ses.gross + x.released * x.ceiling) x.ceiling ses.limit := by
  have hp := passes_iff h request
  rw [Station.sized, passing_eq h]
  cases hl : ses.limit with
  | none =>
    have hpass : x.passes request = true := hp.mpr fun l hl' => by rw [hl] at hl'; exact nomatch hl'
    simp [hpass, grantWithin]
  | some l =>
    have hp' : x.passes request = true ↔ ses.gross + x.released * x.ceiling + request * x.ceiling ≤ 10 * l := by
      rw [hp, fits, hl]
      simp
    by_cases hpass : ses.gross + x.released * x.ceiling + request * x.ceiling ≤ 10 * l
    · simp [hp'.mpr hpass, hpass, grantWithin]
    · have hfail : x.passes request = false := Bool.eq_false_iff.mpr fun h' => hpass (hp'.mp h')
      simp [hfail, hpass, exposure_eq h, grantWithin]

/-! ## Hold extensions (R51, R113) -/

/-- The session with its funding limit raised (R113). -/
def Session.raisedBy (amount : Nat) (ses : Session) : Session := { ses with limit := ses.limit.map (· + amount) }

/-- The funded list with the hold of a station's entry raised (R113). -/
def raisedHolds (n : StationId) (amount : Nat) (l : List Funded) : List Funded :=
  l.map (fun e => if e.station = n then { e with hold := e.hold + amount } else e)

theorem raisedBy_zero (ses : Session) : ses.raisedBy 0 = ses := by
  cases ses
  simp [Session.raisedBy]

theorem raisedBy_raisedBy (a b : Nat) (ses : Session) : (ses.raisedBy a).raisedBy b = ses.raisedBy (a + b) := by
  simp only [Session.raisedBy, Option.map_map]
  congr 2
  funext l
  exact Nat.add_assoc l a b

theorem raisedHolds_zero (n : StationId) (l : List Funded) : raisedHolds n 0 l = l := by
  simp [raisedHolds]

theorem raisedHolds_raisedHolds (n : StationId) (a b : Nat) (l : List Funded) :
    raisedHolds n b (raisedHolds n a l) = raisedHolds n (a + b) l := by
  simp only [raisedHolds, List.map_map]
  refine List.map_congr_left fun e _ => ?_
  by_cases h : e.station = n <;> simp [h, Nat.add_assoc]

/-- Raised holds are the same stations'. -/
theorem raisedHolds_stations (n : StationId) (amount : Nat) (l : List Funded) :
    (raisedHolds n amount l).map Funded.station = l.map Funded.station := by
  rw [raisedHolds, List.map_map]
  refine List.map_congr_left fun e _ => ?_
  by_cases h : e.station = n <;> simp [h]

/-- Hold extensions of station `n`'s session on account `i` have raised its limit, and its hold, by `raised` (R113). -/
structure Extended (i : AccountId) (n : StationId) (s t : State) (raised : Nat) : Prop where
  station : ∃ l, t.st n = { s.st n with session := (s.st n).session.map (Session.raisedBy raised), sendList := l } ∧
    ∀ k, OutRecord.grant k ∈ l ↔ OutRecord.grant k ∈ (s.st n).sendList
  account : AccountTable.wf s.accounts →
    t.account i = { s.account i with funded := raisedHolds n raised (s.account i).funded }
  others : ∀ k, k ≠ i → t.account k = s.account k
  log : t.log = s.log
  tables : AccountTable.wf s.accounts → AccountTable.wf t.accounts
  quantum : t.quantum = s.quantum

theorem Extended.refl (i : AccountId) (n : StationId) (s : State) : Extended i n s s 0 where
  station := ⟨(s.st n).sendList, by
    have hid : Session.raisedBy 0 = id := funext raisedBy_zero
    rw [hid, Option.map_id_fun, id_eq], fun _ => .rfl⟩
  account _ := by rw [raisedHolds_zero]
  others _ _ := rfl
  log := rfl
  tables := id
  quantum := rfl

theorem Extended.trans {i : AccountId} {n : StationId} {s t u : State} {a b : Nat} (h : Extended i n s t a)
    (k : Extended i n t u b) : Extended i n s u (a + b) where
  station := by
    obtain ⟨l, ht, hl⟩ := h.station
    obtain ⟨l', hu, hl'⟩ := k.station
    rw [ht] at hu hl'
    refine ⟨l', hu.trans ?_, fun j => (hl' j).trans (hl j)⟩
    have hcomp : Session.raisedBy b ∘ Session.raisedBy a = Session.raisedBy (a + b) := funext (raisedBy_raisedBy a b)
    simp only [Option.map_map, hcomp]
  account hs := by rw [k.account (h.tables hs), h.account hs, raisedHolds_raisedHolds]
  others j hj := (k.others j hj).trans (h.others j hj)
  log := k.log.trans h.log
  tables := k.tables ∘ h.tables
  quantum := k.quantum.trans h.quantum

/-- A hold extension that is granted raises hold and limit by its amount (R113). -/
theorem extended_requestExtension {i : AccountId} {n : StationId} {s : State} {amount : Nat}
    (h : extensionAmount i s = some amount) : Extended i n s (requestExtension i n s).2 amount := by
  have heq : requestExtension i n s = (some amount, statePanel n (extendHold i n amount s)) := by
    rw [requestExtension, h]
  have hinternal := internal_requestExtension i n s
  have haccount : ∀ k, (statePanel n (extendHold i n amount s)).account k = (extendHold i n amount s).account k :=
    (atStation_statePanel n _).account
  refine ⟨?_, fun hs => ?_, fun k hk => ?_, ?_, hinternal.tables, hinternal.quantum⟩
  · rw [heq, st_statePanel, st_extendHold]
    exact ⟨_, rfl, fun k => (grant_mem_panelList k _).trans .rfl⟩
  · rw [heq, haccount, extendHold]
    exact account_modAccount_self hs i (fun a => { a with funded := raisedHolds n amount a.funded })
  · rw [heq, haccount, extendHold]
    exact account_modAccount_ne s (fun a => { a with funded := raisedHolds n amount a.funded }) hk
  · rw [heq, (atStation_statePanel n _).log]
    rfl

/-- Extensions asked in turn raise hold and limit by their sum (R51). -/
theorem extended_askExtensions (i : AccountId) (n : StationId) (request : Nat) : ∀ (tries : Nat) (s : State),
    ∃ raised, Extended i n s (askExtensions i n request tries s) raised
  | 0, s => ⟨0, .refl i n s⟩
  | tries + 1, s => by
    unfold askExtensions
    split
    · exact ⟨0, .refl i n s⟩
    · cases ha : extensionAmount i s with
      | none =>
        have heq : requestExtension i n s = (none, s) := by rw [requestExtension, ha]
        rw [heq]
        exact ⟨0, .refl i n s⟩
      | some amount =>
        have heq : requestExtension i n s = (some amount, (requestExtension i n s).2) := by rw [requestExtension, ha]
        obtain ⟨raised, hr⟩ := extended_askExtensions i n request tries (requestExtension i n s).2
        rw [heq]
        exact ⟨amount + raised, (extended_requestExtension ha).trans hr⟩

/-- A request without a shortfall passes (R49, R51). -/
theorem passes_of_shortfall {x : Station} {ses : Session} {l : Nat} (h : x.session = some ses) (hl : ses.limit = some l)
    {request : Nat} : x.passes request = true ↔ x.shortfall request = 0 := by
  rw [passes_iff h, Station.shortfall, h, fits]
  simp only [hl, Option.some.injEq, forall_eq', Option.getD_some, exposure_eq h]
  omega

/-- Extensions are asked until the request passes or the account table refuses one (R51). -/
theorem askExtensions_ends {i : AccountId} {n : StationId} (request : Nat) : ∀ (tries : Nat) {s : State} {ses : Session}
    {l : Nat}, (s.st n).session = some ses → ses.limit = some l → 1 ≤ s.quantum →
    (s.st n).shortfall request ≤ tries →
    ((askExtensions i n request tries s).st n).passes request = true ∨
      ((askExtensions i n request tries s).account i).state = .blocked ∨
      ((askExtensions i n request tries s).account i).available ≤ 0
  | 0, s, ses, l, hses, hl, _, hshort => .inl ((passes_of_shortfall hses hl).mpr (Nat.le_zero.mp hshort))
  | tries + 1, s, ses, l, hses, hl, hq, hshort => by
    unfold askExtensions
    split
    case isTrue hp => exact .inl hp
    case isFalse hp =>
      cases ha : extensionAmount i s with
      | none =>
        have heq : requestExtension i n s = (none, s) := by rw [requestExtension, ha]
        rw [heq]
        refine .inr ?_
        unfold extensionAmount at ha
        dsimp only at ha
        split at ha
        case isTrue hb => exact .inl hb
        case isFalse =>
          split at ha
          case isTrue hle => exact .inr hle
          case isFalse => exact nomatch ha
      | some amount =>
        have heq : requestExtension i n s = (some amount, (requestExtension i n s).2) := by rw [requestExtension, ha]
        rw [heq]
        dsimp only
        have hext := extended_requestExtension (n := n) ha
        obtain ⟨-, hpos, hamount⟩ := extensionAmount_le ha
        obtain ⟨list, hst, -⟩ := hext.station
        have hses' : ((requestExtension i n s).2.st n).session = some (ses.raisedBy amount) := by
          rw [hst, hses]
          rfl
        have hl' : (ses.raisedBy amount).limit = some (l + amount) := by simp [Session.raisedBy, hl]
        refine askExtensions_ends request tries hses' hl' (hext.quantum ▸ hq) ?_
        have hlower : ((requestExtension i n s).2.st n).shortfall request = (s.st n).shortfall request - 10 * amount := by
          rw [hst]
          simp only [Station.shortfall, hses, Option.map_some, Session.raisedBy, hl, Option.getD_some, Station.exposure,
            Station.released, Station.ceiling]
          omega
        rw [hlower]
        omega

end Sys2Proof.Machine
end

section
/-! PROOF. Sizing at a station: what the funder leaves (`FunderAsked`), the grant on it (`Sized`), and the state of the
station after a consultation (`Consulted`), R48 to R53. -/

namespace Sys2Proof.Machine

/-! ## Asking the funder (R51, R52) -/

/-- Between `s` and `t` the funder of session `ses` at station `n` has been asked for a request cut short (R51, R52). -/
structure FunderAsked (request : Nat) (n : StationId) (ses : Session) (s t : State) : Prop where
  station : ∃ l f slot list, t.st n =
    { s.st n with session := some { ses with limit := l, funding := f }, slot := slot, sendList := list }
  grants : ∀ k, OutRecord.grant k ∈ (t.st n).sendList ↔ OutRecord.grant k ∈ (s.st n).sendList
  free : ses.funding = .free → (t.st n).session.map Session.limit = some ses.limit ∧ (t.st n).slot = (s.st n).slot
  bank : ∀ a v k, ses.funding = .bank a v k → (t.st n).session.map Session.limit = some ses.limit
  asked : ∀ a v k card dc, ses.funding = .bank a v k → (s.st n).slot = .active card dc → 0 < request → k < 3 →
    (s.st n).passes request = false →
    (t.st n).session.map Session.funding = some (.bank a v (k + 1)) ∧ n ∈ t.fetchOrder ∧ Raised .authWaiting n t ∧
    ∃ req, (t.st n).slot = .topup card dc req ∧ req.amount = s.quantum ∧ req.time = s.clock ∧
      req.clockSet = s.clockSet ∧ req.timer = 30 ∧ req.fetched = false
  unasked : ∀ a v k, ses.funding = .bank a v k →
    (request = 0 ∨ 3 ≤ k ∨ (∀ card dc, (s.st n).slot ≠ .active card dc) ∨ (s.st n).passes request = true) →
    (t.st n).session.map Session.funding = some ses.funding ∧ (t.st n).slot = (s.st n).slot
  account : ∀ i l, ses.funding = .account i → ses.limit = some l → AccountTable.wf s.accounts → 1 ≤ s.quantum →
    (t.st n).slot = (s.st n).slot ∧ (t.st n).session.map Session.funding = some ses.funding ∧
    ∃ raised, (t.st n).session.map Session.limit = some (some (l + raised)) ∧
      (t.account i).funded = raisedHolds n raised (s.account i).funded ∧
      (request = 0 ∨ (s.st n).passes request = true → raised = 0) ∧
      (0 < request → (t.st n).passes request = false →
        (t.account i).state = .blocked ∨ (t.account i).available ≤ 0)
  accounts : ∀ i, AccountTable.wf s.accounts → t.account i = { s.account i with funded := (t.account i).funded }
  unfunded : ∀ i, ses.funding ≠ .account i → t.account i = s.account i
  members : ∀ i, AccountTable.wf s.accounts →
    (t.account i).funded.map Funded.station = (s.account i).funded.map Funded.station
  log : t.log = s.log

/-- A request that is not cut short, or that no funder is asked for, changes nothing. -/
theorem FunderAsked.refl {request : Nat} {n : StationId} {ses : Session} {s : State} (h : (s.st n).session = some ses)
    (hbank : ∀ a v k card dc, ses.funding = .bank a v k → (s.st n).slot = .active card dc → 0 < request → k < 3 →
      (s.st n).passes request = true)
    (haccount : ∀ i, ses.funding = .account i → 0 < request → (s.st n).passes request = true) :
    FunderAsked request n ses s s where
  station := ⟨ses.limit, ses.funding, (s.st n).slot, (s.st n).sendList, by rw [← h]⟩
  grants _ := .rfl
  free _ := ⟨by rw [h]; rfl, rfl⟩
  bank _ _ _ _ := by rw [h]; rfl
  asked a v k card dc hf hslot hr hk hno :=
    absurd (hbank a v k card dc hf hslot hr hk) (by rw [hno]; exact Bool.false_ne_true)
  unasked _ _ _ _ _ := ⟨by rw [h]; rfl, rfl⟩
  account i l hf hl _ _ := ⟨rfl, by rw [h]; rfl, 0, by rw [h]; exact congrArg some hl, (raisedHolds_zero _ _).symm,
    fun _ => rfl, fun hr hno => absurd (haccount i hf hr) (by rw [hno]; exact Bool.false_ne_true)⟩
  accounts _ _ := rfl
  unfunded _ _ := rfl
  members _ _ := rfl
  log := rfl

/-- An ACCOUNT session's hold is extended until the request passes or the account table refuses (R51). -/
theorem funderAsked_askExtensions {request : Nat} {n : StationId} {ses : Session} {s : State} {i : AccountId}
    (h : (s.st n).session = some ses) (hf : ses.funding = .account i)
    (hno : ¬ (request = 0 ∨ (s.st n).passes request = true)) :
    FunderAsked request n ses s (askExtensions i n request ((s.st n).shortfall request) s) := by
  obtain ⟨raised, hext⟩ := extended_askExtensions i n request ((s.st n).shortfall request) s
  obtain ⟨list, hst, hgrants⟩ := hext.station
  rw [h] at hst
  have hnotBank : ∀ a v k, ses.funding ≠ .bank a v k := fun a v k e => by rw [hf] at e; exact nomatch e
  refine ⟨⟨_, ses.funding, (s.st n).slot, list, hst⟩, fun k => ?_, fun e => ?_,
    fun a v k e => absurd e (hnotBank a v k), fun a v k _ _ e => absurd e (hnotBank a v k),
    fun a v k e => absurd e (hnotBank a v k), fun i' l hf' hl hs hq => ?_, fun i' hs => ?_, fun i' hne => ?_,
    fun i' hs => ?_, hext.log⟩
  · rw [hst]
    exact hgrants k
  · rw [hf] at e
    exact nomatch e
  · obtain rfl : i = i' := Funding.account.inj (hf.symm.trans hf')
    refine ⟨by rw [hst], by rw [hst]; rfl, raised, ?_, by rw [hext.account hs], fun e => absurd e hno, fun _ hpass => ?_⟩
    · rw [hst]
      simp [Session.raisedBy, hl]
    · exact (askExtensions_ends request _ h hl hq le_rfl).resolve_left
        (by rw [hpass]; exact Bool.false_ne_true)
  · by_cases hi : i' = i
    · subst hi
      rw [hext.account hs]
    · rw [hext.others i' hi]
  · exact hext.others i' fun e => hne (by rw [hf, e])
  · by_cases hi : i' = i
    · subst hi
      rw [hext.account hs]
      exact raisedHolds_stations _ _ _
    · rw [hext.others i' hi]

/-- A BANK session's ACTIVE slot asks for one top-up (R52). -/
theorem funderAsked_requestTopup {request : Nat} {n : StationId} {ses : Session} {s : State} {a v : List Nat} {k : Nat}
    {card : CardId} {dc : Nat} (h : (s.st n).session = some ses) (hf : ses.funding = .bank a v k)
    (hslot : (s.st n).slot = .active card dc) (hk : k < 3)
    (hno : ¬ (request = 0 ∨ (s.st n).passes request = true)) :
    FunderAsked request n ses s (requestTopup n s) := by
  have heq : (requestTopup n s).st n = { s.st n with
      session := some { ses with funding := .bank a v (k + 1) }, slot := .topup card dc (newRequest (takeTag s).1 s) } := by
    rw [requestTopup, hslot]
    show (modSession n _ ((takeTag s).2.modSt n _)).st n = _
    simp only [modSession, st_modSt_self]
    show ({ s.st n with session := (s.st n).session.map _, slot := _ } : Station) = _
    rw [h]
    simp only [Option.map_some, hf]
    rfl
  have hannounced : n ∈ (requestTopup n s).fetchOrder ∧ Raised .authWaiting n (requestTopup n s) := by
    rw [requestTopup, hslot]
    exact ⟨List.mem_append_right _ (List.mem_singleton_self n), raiseFor_raised .authWaiting n _⟩
  have haccounts : (requestTopup n s).accounts = s.accounts ∧ (requestTopup n s).log = s.log := by
    rw [requestTopup, hslot]
    exact ⟨rfl, rfl⟩
  have haccount : ∀ i, (requestTopup n s).account i = s.account i := fun i => by
    unfold State.account
    rw [haccounts.1]
  refine ⟨⟨ses.limit, _, _, (s.st n).sendList, heq⟩, fun _ => by rw [heq], fun e => ?_, fun _ _ _ _ => by rw [heq]; rfl,
    fun a' v' k' card' dc' hf' hslot' _ _ _ => ?_, fun a' v' k' hf' e => ?_, fun i l hf' => ?_,
    fun i _ => by rw [haccount], fun i _ => haccount i, fun i _ => by rw [haccount], haccounts.2⟩
  · rw [hf] at e
    exact nomatch e
  · obtain ⟨rfl, rfl, rfl⟩ := Funding.bank.inj (hf.symm.trans hf')
    obtain ⟨rfl, rfl⟩ := Slot.active.inj (hslot.symm.trans hslot')
    exact ⟨by rw [heq]; rfl, hannounced.1, hannounced.2, _, by rw [heq], rfl, rfl, rfl, rfl, rfl⟩
  · obtain ⟨rfl, rfl, rfl⟩ := Funding.bank.inj (hf.symm.trans hf')
    rcases e with e | e | e | e
    · exact absurd (.inl e) hno
    · omega
    · exact absurd hslot (e card dc)
    · exact absurd (.inr e) hno
  · rw [hf] at hf'
    exact nomatch hf'

/-- A top-up is asked for by an ACTIVE slot alone (R52). -/
theorem requestTopup_eq {n : StationId} {s : State} (h : ∀ card dc, (s.st n).slot ≠ .active card dc) :
    requestTopup n s = s := by
  unfold requestTopup
  cases hslot : (s.st n).slot with
  | active card dc => exact absurd hslot (h card dc)
  | _ => rfl

/-- What asking the funder leaves, by the funding (R51, R52). -/
theorem funderAsked_askFunder {request : Nat} {n : StationId} {ses : Session} {s : State}
    (h : (s.st n).session = some ses) : FunderAsked request n ses s (askFunder n request s) := by
  unfold askFunder
  split
  case isTrue hdone =>
    have hpass : 0 < request → (s.st n).passes request = true := fun hr => hdone.resolve_left hr.ne'
    exact .refl h (fun _ _ _ _ _ _ _ hr _ => hpass hr) fun _ _ hr => hpass hr
  case isFalse hno =>
    rw [h]
    dsimp only
    cases hf : ses.funding with
    | account i => exact funderAsked_askExtensions h hf hno
    | free =>
      exact .refl h (fun _ _ _ _ _ e => by rw [hf] at e; exact nomatch e)
        fun _ e => by rw [hf] at e; exact nomatch e
    | bank a v k =>
      have hnotAccount : ∀ i, ses.funding = .account i → 0 < request → (s.st n).passes request = true :=
        fun i e => by rw [hf] at e; exact nomatch e
      dsimp only
      split
      case isTrue hk =>
        by_cases hslot : ∃ card dc, (s.st n).slot = .active card dc
        · obtain ⟨card, dc, hslot⟩ := hslot
          exact funderAsked_requestTopup h hf hslot hk hno
        · rw [requestTopup_eq fun card dc e => hslot ⟨card, dc, e⟩]
          exact .refl h (fun _ _ _ card dc _ e => absurd ⟨card, dc, e⟩ hslot) hnotAccount
      case isFalse hk =>
        refine .refl h (fun a' v' k' _ _ hf' _ _ hk' => ?_) hnotAccount
        obtain ⟨-, -, rfl⟩ := Funding.bank.inj (hf.symm.trans hf')
        exact absurd hk' hk

/-! ## The sized grant (R50) -/

/-- What a sizing leaves is not touched by what comes after, where that keeps what `Sized` reads of it. -/
structure SizedKept (n : StationId) (t u : State) : Prop where
  session : (u.st n).session = (t.st n).session
  slot : (u.st n).slot = (t.st n).slot
  job : (u.st n).job.map (fun j => (j.released, j.unmet, j.setsRemaining)) =
    (t.st n).job.map (fun j => (j.released, j.unmet, j.setsRemaining))
  grants : ∀ k, OutRecord.grant k ∈ (u.st n).sendList ↔ OutRecord.grant k ∈ (t.st n).sendList
  fetchOrder : u.fetchOrder = t.fetchOrder
  raised : Raised .authWaiting n t → Raised .authWaiting n u
  accounts : AccountTable.wf t.accounts → ∀ i, (u.account i).funded = (t.account i).funded ∧
    (u.account i).state = (t.account i).state ∧ (u.account i).available = (t.account i).available

/-- The sizing stands after a step that keeps what it reads. -/
theorem Sized.kept {whole : Bool} {request : Nat} {n : StationId} {ses : Session} {released sets : Nat} {s t u : State}
    {g : Nat} (h : Sized whole request n ses released sets s t g)
    (htables : AccountTable.wf s.accounts → AccountTable.wf t.accounts) (k : SizedKept n t u) :
    Sized whole request n ses released sets s u g where
  size := by rw [k.session]; exact h.size
  gross := by rw [k.session]; exact h.gross
  outstanding := by
    have := congrArg (Option.map fun p : Nat × Nat × Nat => p.1) k.job
    simp only [Option.map_map] at this
    exact this.trans h.outstanding
  unmet := by
    have := congrArg (Option.map fun p : Nat × Nat × Nat => p.2.1) k.job
    simp only [Option.map_map] at this
    exact this.trans h.unmet
  setsLeft := by
    have := congrArg (Option.map fun p : Nat × Nat × Nat => p.2.2) k.job
    simp only [Option.map_map] at this
    exact this.trans h.setsLeft
  listed hg := by
    obtain ⟨j, hj, hmem⟩ := h.listed hg
    exact ⟨j, hj, (k.grants j).mpr hmem⟩
  unlisted hg j := (k.grants j).trans (h.unlisted hg j)
  free hf := by rw [k.session, k.slot]; exact h.free hf
  bank a v j hf := by rw [k.session]; exact h.bank a v j hf
  asked a v j card dc hf hslot hr hj hno := by
    obtain ⟨hfund, hfetch, hpend, hmask, hreq⟩ := h.asked a v j card dc hf hslot hr hj hno
    rw [k.session, k.slot, k.fetchOrder]
    obtain ⟨hpend, hmask⟩ := k.raised ⟨hpend, hmask⟩
    exact ⟨hfund, hfetch, hpend, hmask, hreq⟩
  unasked a v j hf e := by rw [k.session, k.slot]; exact h.unasked a v j hf e
  account i l hf hl hs hq := by
    obtain ⟨hfunded, hstate, havailable⟩ := k.accounts (htables hs) i
    rw [k.session, k.slot, hfunded, hstate, havailable]
    exact h.account i l hf hl hs hq

/-- `s` stands for `s₀` in what a sizing reads of the state before it. -/
structure SizedFrom (n : StationId) (s₀ s : State) : Prop where
  ceiling : (s.st n).ceiling = (s₀.st n).ceiling
  slot : (s.st n).slot = (s₀.st n).slot
  grants : ∀ k, OutRecord.grant k ∈ (s.st n).sendList ↔ OutRecord.grant k ∈ (s₀.st n).sendList
  quantum : s.quantum = s₀.quantum
  clock : s.clock = s₀.clock ∧ s.clockSet = s₀.clockSet
  tables : AccountTable.wf s₀.accounts → AccountTable.wf s.accounts
  funded : AccountTable.wf s₀.accounts → ∀ i, (s.account i).funded = (s₀.account i).funded

theorem SizedFrom.refl (n : StationId) (s : State) : SizedFrom n s s :=
  ⟨rfl, rfl, fun _ => .rfl, rfl, ⟨rfl, rfl⟩, id, fun _ _ => rfl⟩

theorem SizedFrom.trans {n : StationId} {s t u : State} (h : SizedFrom n s t) (k : SizedFrom n t u) : SizedFrom n s u where
  ceiling := k.ceiling.trans h.ceiling
  slot := k.slot.trans h.slot
  grants j := (k.grants j).trans (h.grants j)
  quantum := k.quantum.trans h.quantum
  clock := ⟨k.clock.1.trans h.clock.1, k.clock.2.trans h.clock.2⟩
  tables := k.tables ∘ h.tables
  funded hs i := (k.funded (h.tables hs) i).trans (h.funded hs i)

/-- A sizing counts from an earlier state that stands for its own, and for a session of the same figures. -/
theorem Sized.from {whole : Bool} {request : Nat} {n : StationId} {ses ses₀ : Session} {released sets : Nat}
    {s₀ s t : State} {g : Nat} (h : Sized whole request n ses released sets s t g) (k : SizedFrom n s₀ s)
    (hgross : ses.gross = ses₀.gross) (hlimit : ses.limit = ses₀.limit) (hfunding : ses.funding = ses₀.funding) :
    Sized whole request n ses₀ released sets s₀ t g where
  size := by rw [← k.ceiling, ← hgross]; exact h.size
  gross := by rw [← hgross]; exact h.gross
  outstanding := h.outstanding
  unmet := h.unmet
  setsLeft := h.setsLeft
  listed := h.listed
  unlisted hg j := (h.unlisted hg j).trans (k.grants j)
  free hf := by rw [← hlimit, ← k.slot]; exact h.free (hfunding.trans hf)
  bank a v j hf := by rw [← hlimit]; exact h.bank a v j (hfunding.trans hf)
  asked := by
    rw [← hgross, ← hlimit, ← hfunding, ← k.slot, ← k.ceiling, ← k.quantum, ← k.clock.1, ← k.clock.2]
    exact h.asked
  unasked := by
    rw [← hgross, ← hlimit, ← hfunding, ← k.slot, ← k.ceiling]
    exact h.unasked
  account i l hf hl hs hq := by
    rw [← hgross, ← hfunding, ← k.slot, ← k.ceiling, ← k.funded hs]
    exact h.account i l (hfunding.trans hf) (hlimit.trans hl) (k.tables hs) (k.quantum.symm ▸ hq)

/-- A grant that is given joins the job, and the send list where it is above 0 (R50). -/
theorem st_giveGrant (n : StationId) (request g : Nat) (oneSet : Bool) (s : State) :
    (giveGrant n request g oneSet s).st n = { s.st n with
      job := (s.st n).job.map (Job.granted request g oneSet)
      sendList := if 0 < g then listGrant g (s.st n).sendList else (s.st n).sendList } := by
  unfold giveGrant
  by_cases hg : 0 < g
  · simp only [hg, if_true, sendGrant, modJob, st_modSt_self]
  · simp only [hg, if_false, modJob, st_modSt_self]

/-- A grant leaves everything but its station. -/
theorem giveGrant_rest (n : StationId) (request g : Nat) (oneSet : Bool) (s : State) :
    giveGrant n request g oneSet s = { s with stations := (giveGrant n request g oneSet s).stations } := by
  unfold giveGrant
  split <;> rfl

end Sys2Proof.Machine
end

section
/-! PROOF. Consultations: the sized grant on what the funder left, the station's state after it (R53), and what a
consultation leaves of the station and of the part (`Granting`). -/

namespace Sys2Proof.Machine

/-! ## What granting leaves -/

/-- Granting at station `n` leaves, of the session `ses` and the job `j`, all but the funding and its limit and the grants
counted, and of the station all but its state and what it lists. -/
structure Granting (n : StationId) (ses : Session) (j : Job) (s t : State) : Prop where
  frame : t.st n = { s.st n with
    state := (t.st n).state, changed := (t.st n).changed, idleTimer := (t.st n).idleTimer, session := (t.st n).session
    slot := (t.st n).slot, sendList := (t.st n).sendList, job := (t.st n).job }
  session : ∃ l f, (t.st n).session = some { ses with limit := l, funding := f }
  job : ∃ r u k, (t.st n).job = some { j with released := r, unmet := u, setsRemaining := k }
  accounts : ∀ i, AccountTable.wf s.accounts → t.account i = { s.account i with funded := (t.account i).funded }
  unfunded : ∀ i, ses.funding ≠ .account i → t.account i = s.account i
  members : ∀ i, AccountTable.wf s.accounts →
    (t.account i).funded.map Funded.station = (s.account i).funded.map Funded.station
  log : t.log = s.log

/-- What an entry to a state without a commit makes of its station. -/
theorem entered_frame {new : StationState} (h : new.commits = false) (x : Station) : x.entered new = { x with
    state := (x.entered new).state, changed := (x.entered new).changed, idleTimer := (x.entered new).idleTimer
    sendList := (x.entered new).sendList } := by
  unfold Station.entered
  split
  · rfl
  · simp only [h]
    rfl

/-- Granting goes on through an entry to a state without a commit. -/
theorem Granting.enter {n : StationId} {ses : Session} {j : Job} {s t : State} (h : Granting n ses j s t)
    {new : StationState} (hnew : new.commits = false) (q : Bool) : Granting n ses j s (enter q new n t) := by
  have hat := atStation_enter q new n t
  refine ⟨?_, ?_, ?_, fun i hs => ?_, fun i hi => ?_, fun i hs => ?_, hat.log.trans h.log⟩
  · rw [st_enter, entered_frame hnew, h.frame]
  · rw [st_enter, entered_session]
    exact h.session
  · rw [st_enter, entered_job]
    exact h.job
  · rw [hat.account]
    exact h.accounts i hs
  · rw [hat.account]
    exact h.unfunded i hi
  · rw [hat.account]
    exact h.members i hs

/-! ## The sized grant -/

/-- The released sides and the check of a station with a job and a session. -/
theorem passes_of_job {x : Station} {ses : Session} {j : Job} (h : x.session = some ses) (hj : x.job = some j) (g : Nat) :
    x.passes g = true ↔ fits g (ses.gross + j.released * x.ceiling) x.ceiling ses.limit := by
  rw [passes_iff h, Station.released, hj]

section
variable {whole : Bool} {request : Nat} {n : StationId} {ses : Session} {j : Job} {s t : State}

/-- A grant given on what the funder left is a granting. -/
theorem granting_giveGrant (hj : (s.st n).job = some j) (ha : FunderAsked request n ses s t) (g : Nat) :
    Granting n ses j s (giveGrant n request g whole t) := by
  obtain ⟨l, f, slot, list, hst⟩ := ha.station
  have hrest := giveGrant_rest n request g whole t
  have haccount : ∀ i, (giveGrant n request g whole t).account i = t.account i := fun i => by rw [hrest]; rfl
  refine ⟨?_, ⟨l, f, ?_⟩, ?_, fun i hs => ?_, fun i hi => ?_, fun i hs => ?_, ?_⟩
  · rw [st_giveGrant, hst]
  · rw [st_giveGrant, hst]
  · rw [st_giveGrant, hst]
    dsimp only
    rw [hj]
    exact ⟨_, _, _, rfl⟩
  · rw [haccount]
    exact ha.accounts i hs
  · rw [haccount]
    exact ha.unfunded i hi
  · rw [haccount]
    exact ha.members i hs
  · rw [hrest]
    exact ha.log

/-- The grant that what the funder left allows is sized (R48 to R52). -/
theorem sized_giveGrant (h : (s.st n).session = some ses) (hj : (s.st n).job = some j)
    (ha : FunderAsked request n ses s t) :
    Sized whole request n ses j.released j.setsRemaining s
      (giveGrant n request ((t.st n).sized whole request) whole t) ((t.st n).sized whole request) := by
  obtain ⟨l, f, slot, list, hst⟩ := ha.station
  have hsession : (t.st n).session = some { ses with limit := l, funding := f } := by rw [hst]
  have hjob : (t.st n).job = some j := by rw [hst]; exact hj
  have hceiling : (t.st n).ceiling = (s.st n).ceiling := by rw [hst]; rfl
  have hpasses := passes_of_job h hj request
  have hlater := passes_of_job hsession hjob request
  rw [hceiling] at hlater
  generalize hg : (t.st n).sized whole request = g
  have hu := st_giveGrant n request g whole t
  have hrest := giveGrant_rest n request g whole t
  have husession : ((giveGrant n request g whole t).st n).session = (t.st n).session := by rw [hu]
  have huslot : ((giveGrant n request g whole t).st n).slot = (t.st n).slot := by rw [hu]
  have hujob : ((giveGrant n request g whole t).st n).job = some (j.granted request g whole) := by
    rw [hu]
    simp only [hjob, Option.map_some]
  have hulist : ((giveGrant n request g whole t).st n).sendList =
      if 0 < g then listGrant g (t.st n).sendList else (t.st n).sendList := by rw [hu]
  have haccount : ∀ i, (giveGrant n request g whole t).account i = t.account i := fun i => by rw [hrest]; rfl
  constructor
  case size =>
    rw [husession, ← hg, sized_eq hsession, hceiling, hsession, Station.released, hjob]
    rfl
  case gross => rw [husession, hsession]; rfl
  case outstanding => rw [hujob]; rfl
  case unmet => rw [hujob]; rfl
  case setsLeft => rw [hujob]; rfl
  case listed =>
    intro hpos
    rw [hulist, if_pos hpos]
    exact mem_listGrant g _
  case unlisted =>
    intro hzero k
    rw [hulist, if_neg (by omega)]
    exact ha.grants k
  case free => rw [husession, huslot]; exact ha.free
  case bank => rw [husession]; exact ha.bank
  case asked =>
    intro a v k card dc hf hslot hr hk hno
    rw [husession, huslot]
    obtain ⟨hfund, hfetch, hraised, hreq⟩ :=
      ha.asked a v k card dc hf hslot hr hk (Bool.eq_false_iff.mpr fun e => hno (hpasses.mp e))
    have hraised' : Raised .authWaiting n (giveGrant n request g whole t) := hraised.notices (by rw [hrest])
    exact ⟨hfund, by rw [hrest]; exact hfetch, hraised'.1, hraised'.2, hreq⟩
  case unasked =>
    intro a v k hf e
    rw [husession, huslot]
    exact ha.unasked a v k hf (e.imp_right fun e => e.imp_right fun e => e.imp_right hpasses.mpr)
  case account =>
    intro i l' hf hl hs hq
    obtain ⟨hslot, hfund, raised, hlimit, hfunded, hzero, hend⟩ := ha.account i l' hf hl hs hq
    rw [husession, huslot, haccount]
    rw [hl] at hpasses
    refine ⟨hslot, hfund, raised, hlimit, hfunded, fun e => hzero (e.imp_right hpasses.mpr), fun hr hno => ?_⟩
    have hl' : l = some (l' + raised) := by
      rw [hsession] at hlimit
      exact Option.some.inj hlimit
    rw [hl'] at hlater
    exact hend hr (Bool.eq_false_iff.mpr fun e => hno (hlater.mp e))

end

/-! ## Consultations -/

/-- A grant's sizing stands after an entry. -/
theorem sizedKept_enter (q : Bool) (new : StationState) (n : StationId) (t : State) : SizedKept n t (enter q new n t) where
  session := by rw [st_enter, entered_session]
  slot := by rw [st_enter, entered_slot]
  job := by rw [st_enter, entered_job]
  grants k := by rw [st_enter]; exact grant_mem_entered k new _
  fetchOrder := (atStation_enter q new n t).fetchOrder
  raised h := h.enter q new n
  accounts _ i := by rw [(atStation_enter q new n t).account]; exact ⟨rfl, rfl, rfl⟩

/-- The request of a consultation of a running job (R21, R22, R23, R48). -/
theorem request_eq_laterRequest (j : Job) (window : Nat) : j.request window false = j.laterRequest window j.released := by
  unfold Job.request Job.laterRequest Job.want Job.cap
  cases hm : j.mode with
  | single => simp
  | run =>
    by_cases hw : j.released ≤ window / 2
    · have hwant : (if 0 < window - j.released then window - j.released else j.unmet) =
          if window - j.released = 0 then j.unmet else window - j.released := by
        by_cases h0 : window - j.released = 0 <;> simp only [h0, Nat.pos_iff_ne_zero, ne_eq, not_true, not_false_iff,
          if_true, if_false]
      simp only [hw, if_true, true_and, hwant, reduceCtorEq, if_false]
    · simp [hw]
  | set =>
    by_cases hw : j.released ≤ j.setSides ∧ 0 < j.setsRemaining
    · by_cases h0 : j.setSides = 0 <;> simp [hw, h0, Nat.pos_iff_ne_zero]
    · simp [hw]

/-- The sides outstanding after a grant of nothing are those before it. -/
theorem Sized.released_zero {whole : Bool} {request released sets : Nat} {n : StationId} {s t : State} {ses : Session}
    (hsized : Sized whole request n ses released sets s t 0) : (t.st n).released = released := by
  have houtstanding := hsized.outstanding
  unfold Station.released
  cases hjob : (t.st n).job with
  | none => rw [hjob] at houtstanding; exact nomatch houtstanding
  | some k =>
    rw [hjob] at houtstanding
    exact Option.some.inj houtstanding

section
variable {n : StationId} {ses : Session} {j : Job} {s : State} (h : (s.st n).session = some ses)
  (hj : (s.st n).job = some j) (atStart : Bool)
include h hj

/-- A consultation in RUNNING or STARVED: what it grants, what it leaves and the state it puts the station in. -/
theorem consult_result (hstate : (s.st n).state = .running ∨ (s.st n).state = .starved) :
    Granting n ses j s (consult atStart n s) ∧
    ∃ g, Consulted (s.st n).state (decide (j.mode = .set)) (j.request (s.st n).settings.window atStart) n ses j.released
      j.setsRemaining s (consult atStart n s) g := by
  generalize hrequest : j.request (s.st n).settings.window atStart = request
  have ha := funderAsked_askFunder (request := request) h
  have hgranting := granting_giveGrant (whole := decide (j.mode = .set)) hj ha
    (((askFunder n request s).st n).sized (decide (j.mode = .set)) request)
  have hsized := sized_giveGrant (whole := decide (j.mode = .set)) h hj ha
  have heq : consult atStart n s = grantOutcome n request
      (((askFunder n request s).st n).sized (decide (j.mode = .set)) request)
      (giveGrant n request (((askFunder n request s).st n).sized (decide (j.mode = .set)) request)
        (decide (j.mode = .set)) (askFunder n request s)) := by
    rw [consult, hj]
    dsimp only
    rw [hrequest]
  rw [heq]
  revert hgranting hsized
  generalize ((askFunder n request s).st n).sized (decide (j.mode = .set)) request = g
  intro hgranting hsized
  have htables : AccountTable.wf s.accounts → AccountTable.wf
      (giveGrant n request g (decide (j.mode = .set)) (askFunder n request s)).accounts :=
    ((internal_askFunder n request s).trans (internal_giveGrant _ _ _ _ _)).tables
  have hstands : ((giveGrant n request g (decide (j.mode = .set)) (askFunder n request s)).st n).state =
      (s.st n).state := by
    obtain ⟨l, f, slot, list, hst⟩ := ha.station
    rw [st_giveGrant, hst]
  unfold grantOutcome
  by_cases hg : 0 < g
  · rw [if_pos hg]
    exact ⟨hgranting.enter rfl false, g, hsized.kept htables (sizedKept_enter _ _ _ _), by simp [hg]⟩
  · rw [if_neg hg]
    obtain rfl : g = 0 := by omega
    have hreleased := hsized.released_zero
    rw [hreleased, hstands]
    by_cases hstarved : 0 < request ∧ j.released = 0
    · rcases hstate with hrun | hst
      · rw [if_pos ⟨hstarved.1, hstarved.2, hrun⟩]
        exact ⟨hgranting.enter rfl false, 0, hsized.kept htables (sizedKept_enter _ _ _ _), by simp [hstarved]⟩
      · rw [if_neg fun e => by rw [hst] at e; exact nomatch e.2.2]
        exact ⟨hgranting, 0, hsized, by rw [hstands]; simp [hstarved, hst]⟩
    · rw [if_neg fun e => hstarved ⟨e.1, e.2.1⟩]
      exact ⟨hgranting, 0, hsized, by rw [hstands]; simp [hstarved]⟩

end

/-- A consultation leaves the station in RUNNING or STARVED. -/
theorem Consulted.running_or_starved {before : StationState} {whole : Bool} {request released sets g : Nat}
    {n : StationId} {ses : Session} {s t : State} (h : Consulted before whole request n ses released sets s t g)
    (hbefore : before = .running ∨ before = .starved) : (t.st n).state = .running ∨ (t.st n).state = .starved := by
  rw [h.state]
  split
  · exact .inl rfl
  · split
    · exact .inr rfl
    · exact hbefore

end Sys2Proof.Machine
end

section
/-! PROOF. The wake walk (R115): a wake visits the next station of the walk, and a station that is STARVED retries its
grant. -/

namespace Sys2Proof.Machine

/-! ## Retries (R54) -/

/-- What a consultation keeps whatever the station has: RUNNING or STARVED, the gross mills, the log and the stations on
the funded lists. -/
structure RetryKeeps (n : StationId) (s t : State) : Prop where
  state : (t.st n).state = .running ∨ (t.st n).state = .starved
  gross : (t.st n).session.map Session.gross = (s.st n).session.map Session.gross
  log : t.log = s.log
  members : ∀ i, AccountTable.wf s.accounts →
    (t.account i).funded.map Funded.station = (s.account i).funded.map Funded.station
  accounts : ∀ i, AccountTable.wf s.accounts → t.account i = { s.account i with funded := (t.account i).funded }

/-- A station without a session record is granted nothing. -/
theorem sized_none {x : Station} (h : x.session = none) (whole : Bool) (request : Nat) : x.sized whole request = 0 := by
  cases whole <;> simp [Station.sized, Station.passes, Station.passing, h]

/-- A station without a session record has no funder to ask. -/
theorem askFunder_none {n : StationId} {s : State} (h : (s.st n).session = none) (request : Nat) :
    askFunder n request s = s := by
  unfold askFunder
  split
  · rfl
  · rw [h]

theorem consult_keeps {n : StationId} {s : State} (hstate : (s.st n).state = .running ∨ (s.st n).state = .starved)
    (atStart : Bool) : RetryKeeps n s (consult atStart n s) := by
  cases hj : (s.st n).job with
  | none =>
    rw [consult, hj]
    exact ⟨hstate, rfl, rfl, fun _ _ => rfl, fun _ _ => rfl⟩
  | some j =>
    cases h : (s.st n).session with
    | some ses =>
      obtain ⟨hgranting, g, hconsulted⟩ := consult_result h hj atStart hstate
      refine ⟨hconsulted.running_or_starved hstate, ?_, hgranting.log, hgranting.members, hgranting.accounts⟩
      rw [h]
      exact hconsulted.sized.gross
    | none =>
      rw [consult, hj]
      dsimp only
      rw [askFunder_none h, sized_none h]
      generalize j.request _ atStart = request
      have hgiven := st_giveGrant n request 0 (decide (j.mode = .set)) s
      have hrest := giveGrant_rest n request 0 (decide (j.mode = .set)) s
      have hnone : ((giveGrant n request 0 (decide (j.mode = .set)) s).st n).session = none := by rw [hgiven]; exact h
      have haccount : ∀ i, (giveGrant n request 0 (decide (j.mode = .set)) s).account i = s.account i :=
        fun i => by rw [hrest]; rfl
      unfold grantOutcome
      rw [if_neg (Nat.lt_irrefl 0)]
      split
      · have hat := atStation_enter false .starved n (giveGrant n request 0 (decide (j.mode = .set)) s)
        refine ⟨.inr (by rw [st_enter, entered_state]), by rw [st_enter, entered_session, hnone, h], ?_, fun i _ => ?_,
          fun i _ => ?_⟩
        · rw [hat.log, hrest]
        · rw [hat.account, haccount]
        · rw [hat.account, haccount]
      · exact ⟨by rw [hgiven]; exact hstate, by rw [hnone, h], by rw [hrest],
          fun i _ => by rw [haccount], fun i _ => by rw [haccount]⟩

/-! ## Walks and the stations on their lists -/

/-- Whether a wake has started depends on the stations of the list alone. -/
theorem WakeStarted.stations {l l' : List Funded} (h : l'.map Funded.station = l.map Funded.station)
    {before after : Option Walk} (k : WakeStarted l' before after) : WakeStarted l before after := by
  have hmem : ∀ n, (∃ e ∈ l', e.station = n) ↔ ∃ e ∈ l, e.station = n := fun n => by
    simpa only [List.mem_map] using (iff_of_eq (congrArg (n ∈ ·) h))
  have hnil : l' = [] ↔ l = [] := by rw [← List.map_eq_nil_iff (f := Funded.station), h, List.map_eq_nil_iff]
  refine ⟨fun e => k.ends (hnil.mpr e), fun e x hx hlow => ?_, fun w e hne => k.marks w e (hne ∘ hnil.mp)⟩
  obtain ⟨y, hy, hyx⟩ := (hmem x.station).mpr ⟨x, hx, rfl⟩
  rw [← hyx]
  refine k.starts e y hy fun z hz => ?_
  obtain ⟨f, hf, hfz⟩ := (hmem z.station).mp ⟨z, hz, rfl⟩
  rw [hyx, ← hfz]
  exact hlow f hf

/-- Whether a walk has moved depends on the stations of the list alone. -/
theorem WalkMoved.stations {l l' : List Funded} (h : l'.map Funded.station = l.map Funded.station) {w : Walk}
    {n : StationId} {after : Option Walk} (k : WalkMoved l' w n after) : WalkMoved l w n after := by
  have hforward : ∀ e ∈ l, ∃ f ∈ l', f.station = e.station := fun e he =>
    List.mem_map.mp (h ▸ List.mem_map_of_mem (f := Funded.station) he)
  have hback : ∀ e ∈ l', ∃ f ∈ l, f.station = e.station := fun e he =>
    List.mem_map.mp (h.symm ▸ List.mem_map_of_mem (f := Funded.station) he)
  have hle : (∀ e ∈ l, e.station ≤ n) → ∀ e ∈ l', e.station ≤ n := fun hl e he => by
    obtain ⟨f, hf, hfe⟩ := hback e he
    exact hfe ▸ hl f hf
  refine ⟨fun ⟨e, he, hlt⟩ => k.on ?_, fun hl => k.ended (hle hl), fun hl hr => (k.anew (hle hl) hr).stations h⟩
  obtain ⟨f, hf, hfe⟩ := hforward e he
  exact ⟨f, hf, hfe.symm ▸ hlt⟩

/-! ## Visits -/

/-- A visit before the walk goes on: the walk stands at its next station, which takes the wake (R115). -/
def visited (i : AccountId) (w : Walk) (n : StationId) (s : State) : State :=
  takeWake n (s.modAccount i (fun a => { a with walk := some { w with position := n, visited := true } }))

theorem visit_next {s : State} {i : AccountId} {w : Walk} {n : StationId} (h : (s.account i).walk = some w)
    (hn : w.VisitsNext (s.account i).funded n) :
    visit i s = (visited i w n s).modAccount i Account.closeWalk := by
  rw [visit, h]
  dsimp only
  rw [nextVisit_eq_some.mpr hn]
  rfl

theorem visit_none {s : State} {i : AccountId} {w : Walk} (h : (s.account i).walk = some w)
    (hn : ∀ n, ¬ w.VisitsNext (s.account i).funded n) : visit i s = s.modAccount i Account.closeWalk := by
  rw [visit, h]
  dsimp only
  rw [nextVisit_eq_none.mpr hn]

/-- An account whose walk moves keeps everything else, and a sizing that it carries. -/
theorem sizedKept_walk {n : StationId} {t : State} {i : AccountId} {f : Account → Account}
    (hf : ∀ a, f a = { a with walk := (f a).walk }) : SizedKept n t (t.modAccount i f) where
  session := rfl
  slot := rfl
  job := rfl
  grants _ := .rfl
  fetchOrder := rfl
  raised h := h.notices rfl
  accounts ht k := by
    by_cases hk : k = i
    · subst hk
      rw [account_modAccount_self ht, hf]
      exact ⟨rfl, rfl, rfl⟩
    · rw [account_modAccount_ne _ _ hk]
      exact ⟨rfl, rfl, rfl⟩

/-- A state whose walk has moved stands for the one before it. -/
theorem sizedFrom_walk {n : StationId} {s : State} {i : AccountId} {f : Account → Account}
    (hf : ∀ a, f a = { a with walk := (f a).walk }) : SizedFrom n s (s.modAccount i f) where
  ceiling := rfl
  slot := rfl
  grants _ := .rfl
  quantum := rfl
  clock := ⟨rfl, rfl⟩
  tables := (internal_modAccount n s i f).tables
  funded hs k := by
    by_cases hk : k = i
    · subst hk
      rw [account_modAccount_self hs, hf]
    · rw [account_modAccount_ne _ _ hk]

/-- A wake at a station that is not STARVED moves the walk alone (R115). -/
theorem visit_idle {s : State} {i : AccountId} {w : Walk} {n : StationId} (hs : AccountTable.wf s.accounts)
    (h : (s.account i).walk = some w) (hn : w.VisitsNext (s.account i).funded n) (hstate : (s.st n).state ≠ .starved) :
    ∃ t, exec (.wake i) s = .next t ∧ t = { s with accounts := t.accounts } ∧
    (∀ k, k ≠ i → t.account k = s.account k) ∧ t.account i = { s.account i with walk := (t.account i).walk } ∧
    WalkMoved (s.account i).funded w n (t.account i).walk := by
  have hmoved : visited i w n s =
      s.modAccount i (fun a => { a with walk := some { w with position := n, visited := true } }) := if_neg hstate
  have hwf := (internal_modAccount n s i (fun a => { a with
    walk := some { w with position := n, visited := true } })).tables hs
  have haccount : (visit i s).account i =
      ({ s.account i with walk := some { w with position := n, visited := true } } : Account).closeWalk := by
    rw [visit_next h hn, hmoved, account_modAccount_self hwf, account_modAccount_self hs]
  obtain ⟨hkeeps, hwalk⟩ := closeWalk_moved { s.account i with walk := some { w with position := n, visited := true } }
    w n rfl
  refine ⟨visit i s, rfl, ?_, fun k hk => ?_, ?_, ?_⟩
  · rw [visit_next h hn, hmoved]
    rfl
  · rw [visit_next h hn, hmoved, account_modAccount_ne _ _ hk, account_modAccount_ne _ _ hk]
  · rw [haccount, hkeeps]
  · rw [haccount]
    exact hwalk

/-- A wake of a walk with no station left closes the walk (R115; log entry 19). -/
theorem visit_over {s : State} {i : AccountId} {w : Walk} (hs : AccountTable.wf s.accounts)
    (h : (s.account i).walk = some w) (hn : ∀ n, ¬ w.VisitsNext (s.account i).funded n) :
    ∃ t, exec (.wake i) s = .next t ∧ t = { s with accounts := t.accounts } ∧
    (∀ k, k ≠ i → t.account k = s.account k) ∧ t.account i = { s.account i with walk := (t.account i).walk } ∧
    (w.restart = false → (t.account i).walk = none) ∧
    (w.restart = true → WakeStarted (s.account i).funded none (t.account i).walk) := by
  have haccount : (visit i s).account i = (s.account i).closeWalk := by
    rw [visit_none h hn, account_modAccount_self hs]
  have hwalk : ((visit i s).account i).walk = if w.restart then newWalk (s.account i).funded else none := by
    rw [haccount, Account.closeWalk, h]
    simp [nextVisit_eq_none.mpr hn]
  refine ⟨visit i s, rfl, ?_, fun k hk => ?_, ?_, fun hr => ?_, fun hr => ?_⟩
  · rw [visit_none h hn]
    rfl
  · rw [visit_none h hn, account_modAccount_ne _ _ hk]
  · rw [haccount]
    rfl
  · rw [hwalk, hr]
    rfl
  · rw [hwalk, hr]
    exact newWalk_started _

/-- A wake at a station that is STARVED retries its grant (R54, R115). -/
theorem visit_starved {s : State} {i : AccountId} {w : Walk} {n : StationId} (h : (s.account i).walk = some w)
    (hn : w.VisitsNext (s.account i).funded n) (hstate : (s.st n).state = .starved) :
    ∃ t, exec (.wake i) s = .next t ∧ (∀ m, m ≠ n → t.st m = s.st m) ∧ t.log = s.log ∧
    ((t.st n).state = .running ∨ (t.st n).state = .starved) ∧
    (AccountTable.wf s.accounts → WalkMoved (s.account i).funded w n (t.account i).walk) ∧
    (t.st n).session.map Session.gross = (s.st n).session.map Session.gross ∧
    ∀ ses j, (s.st n).session = some ses → (s.st n).job = some j → ∃ g, Consulted .starved (decide (j.mode = .set))
      (j.laterRequest (s.st n).settings.window j.released) n ses j.released j.setsRemaining s t g := by
  generalize hu : s.modAccount i (fun a => { a with walk := some { w with position := n, visited := true } }) = u
  have hust : ∀ m, u.st m = s.st m := fun m => by rw [← hu, modAccount_st]
  have hustarved : (u.st n).state = .starved := by rw [hust]; exact hstate
  have hvisited : visited i w n s = consult false n u := by
    rw [visited, hu, takeWake, if_pos hustarved, retry, if_pos (.inr hustarved)]
  have hkeeps := consult_keeps (n := n) (s := u) (.inr hustarved) false
  have hinternal := internal_consult false n u
  have hwf : AccountTable.wf s.accounts → AccountTable.wf u.accounts := by
    rw [← hu]
    exact (internal_modAccount n s i _).tables
  have hclose : ∀ a : Account, a.closeWalk = { a with walk := a.closeWalk.walk } := fun _ => rfl
  refine ⟨visit i s, rfl, ?_⟩
  rw [visit_next h hn, hvisited]
  refine ⟨fun m hm => (hinternal.others m hm).trans (hust m), ?_, hkeeps.state, fun hs => ?_, ?_, fun ses j hses hj => ?_⟩
  · exact hkeeps.log.trans (by rw [← hu]; rfl)
  · have huaccount : u.account i = { s.account i with walk := some { w with position := n, visited := true } } := by
      rw [← hu, account_modAccount_self hs]
    have hwalk : ((consult false n u).account i).walk = some { w with position := n, visited := true } := by
      rw [hkeeps.accounts i (hwf hs), huaccount]
    rw [account_modAccount_self (hinternal.tables (hwf hs))]
    refine (closeWalk_moved _ w n hwalk).2.stations ?_
    rw [hkeeps.members i (hwf hs), huaccount]
  · rw [modAccount_st, hkeeps.gross, hust]
  · obtain ⟨-, g, hconsulted⟩ := consult_result (n := n) (s := u) ((congrArg _ (hust n)).trans hses)
      ((congrArg _ (hust n)).trans hj) false (.inr hustarved)
    rw [request_eq_laterRequest, hustarved, hust] at hconsulted
    refine ⟨g, ?_, hconsulted.state⟩
    refine ((hconsulted.sized.kept hinternal.tables (sizedKept_walk hclose)).from ?_ rfl rfl rfl)
    rw [← hu]
    exact sizedFrom_walk fun _ => rfl

/-- Settles O35: the visited station is the next of the walk, and a retry there is a consultation. -/
theorem wakeVisitsNextStation : Obligations.WakeVisitsNextStation := by
  unfold Obligations.WakeVisitsNextStation
  refine ⟨fun s i h => ?_, fun s i w n hs h hn hstate => visit_idle hs h hn hstate,
    fun s i w hs h hn => visit_over hs h hn, fun s i w n h hn hstate => visit_starved h hn hstate⟩
  refine congrArg Host.Outcome.next ?_
  rw [visit, h]

end Sys2Proof.Machine
end

section
/-! PROOF. The period counters of the account table (R117 to R119), and a posting (R114, R115). -/

namespace Sys2Proof.Machine

/-! ## Postings (R114) -/

/-- The walk without a station that leaves the list. -/
theorem walkWithout_eq (n : StationId) (walk : Option Walk) : walk.map (Walk.leave n) = walkWithout n walk := by
  unfold walkWithout
  refine congrArg (walk.map ·) (funext fun w => ?_)
  unfold Walk.leave
  by_cases h : w.position = n
  · simp [h]
  · simp [h]

/-- The account after a posting, before a wake. -/
theorem posted_walk (n : StationId) (charge : Nat) (a : Account) : (a.posted n charge).walk =
    if (a.posted n charge).funded = [] then none else walkWithout n a.walk := by
  rw [← walkWithout_eq]
  simp only [Account.posted, List.isEmpty_iff]

/-- A wake started after a station has left the list starts on the walk without it. -/
theorem WakeStarted.without {n : StationId} {charge : Nat} {a : Account} {after : Option Walk}
    (h : WakeStarted (a.posted n charge).funded (a.posted n charge).walk after) :
    WakeStarted (a.posted n charge).funded (walkWithout n a.walk) after := by
  have hwalk := posted_walk n charge a
  by_cases hnil : (a.posted n charge).funded = []
  · exact ⟨h.ends, fun _ e he _ => by simp [hnil] at he, fun _ _ hne => absurd hnil hne⟩
  · rw [if_neg hnil] at hwalk
    rw [hwalk] at h
    exact h

/-- A posting changes its account alone. -/
theorem requestPosting_rest (i : AccountId) (n : StationId) (charge : Nat) (s : State) :
    requestPosting i n charge s = { s with accounts := (requestPosting i n charge s).accounts } := by
  unfold requestPosting
  split
  · rfl
  · dsimp only
    split <;> rfl

theorem requestPosting_account_ne {i k : AccountId} (n : StationId) (charge : Nat) (s : State) (h : k ≠ i) :
    (requestPosting i n charge s).account k = s.account k := by
  unfold requestPosting
  split
  · rfl
  · dsimp only
    split
    · rw [startWake_account_ne _ h, account_modAccount_ne _ _ h]
    · rw [account_modAccount_ne _ _ h]

/-- A posting below the hold of the station's entry starts a wake, and any other takes the charge alone (R114, R115). -/
theorem requestPosting_account {s : State} (hs : AccountTable.wf s.accounts) {i : AccountId} {n : StationId} {charge : Nat}
    {e : Funded} (h : (s.account i).entryOf n = some e) :
    ∃ walk, (requestPosting i n charge s).account i = { (s.account i).posted n charge with walk := walk } ∧
      (charge < e.hold → WakeStarted ((s.account i).posted n charge).funded (walkWithout n (s.account i).walk) walk) ∧
      (e.hold ≤ charge → walk = ((s.account i).posted n charge).walk) := by
  rw [requestPosting, h]
  dsimp only
  by_cases hlt : charge < e.hold
  · rw [if_pos hlt]
    obtain ⟨walk, haccount, hstarted⟩ := startWake_account (modAccount_wf hs i (Account.posted n charge)) i
    rw [account_modAccount_self hs] at haccount hstarted
    exact ⟨walk, haccount, fun _ => hstarted.without, fun hle => absurd hlt (Nat.not_lt.mpr hle)⟩
  · rw [if_neg hlt, account_modAccount_self hs]
    exact ⟨_, rfl, fun hlt' => absurd hlt' hlt, fun _ => rfl⟩

/-- An entry found is the station's on the list. -/
theorem entryOf_mem {a : Account} {n : StationId} {e : Funded} (h : a.entryOf n = some e) :
    e ∈ a.funded ∧ e.station = n :=
  ⟨List.mem_of_find?_eq_some h, by simpa using List.find?_some (p := fun f : Funded => decide (f.station = n)) h⟩

/-- A station on the list has an entry there. -/
theorem entryOf_of_mem {a : Account} {n : StationId} (h : ∃ e ∈ a.funded, e.station = n) : ∃ e, a.entryOf n = some e := by
  obtain ⟨e, he, hn⟩ := h
  refine Option.isSome_iff_exists.mp ?_
  rw [Account.entryOf, List.find?_isSome]
  exact ⟨e, he, decide_eq_true hn⟩

/-- A posting by a station on the list is what R114 says of the account. -/
theorem requestPosting_charged {s : State} (hs : AccountTable.wf s.accounts) {i : AccountId} {n : StationId}
    (charge : Nat) (h : ∃ e ∈ (s.account i).funded, e.station = n) :
    (s.account i).Charged n charge ((requestPosting i n charge s).account i) := by
  obtain ⟨e, he⟩ := entryOf_of_mem h
  obtain ⟨walk, haccount, hbelow, hat⟩ := requestPosting_account hs (charge := charge) he
  rw [haccount]
  refine ⟨rfl, rfl, rfl, fun hall => hbelow (hall e (entryOf_mem he).1 (entryOf_mem he).2),
    fun hall hne => ?_, rfl, rfl, rfl, rfl, rfl, rfl, rfl, rfl, rfl⟩
  rw [hat (hall e (entryOf_mem he).1 (entryOf_mem he).2), posted_walk, if_neg hne]

/-- A list without the station's entry between the others. -/
theorem filter_entry {n : StationId} {before after : List Funded} (hold : Nat)
    (h : ∀ e ∈ before ++ after, e.station ≠ n) :
    (before ++ { station := n, hold := hold } :: after).filter (fun x => decide (x.station ≠ n)) = before ++ after := by
  simp only [List.filter_append, List.filter_cons, ne_eq, not_true, decide_false, Bool.false_eq_true, if_false]
  rw [List.filter_eq_self.mpr fun e he => decide_eq_true (h e (List.mem_append_left _ he)),
    List.filter_eq_self.mpr fun e he => decide_eq_true (h e (List.mem_append_right _ he))]

/-- The entry of a station that stands once on the list. -/
theorem entryOf_between {a : Account} {n : StationId} {before after : List Funded} {hold : Nat}
    (hf : a.funded = before ++ { station := n, hold := hold } :: after) (h : ∀ e ∈ before ++ after, e.station ≠ n) :
    a.entryOf n = some { station := n, hold := hold } := by
  have hbefore : before.find? (fun e => decide (e.station = n)) = none :=
    List.find?_eq_none.mpr fun e he => by simpa using h e (List.mem_append_left _ he)
  rw [Account.entryOf, hf, List.find?_append, hbefore]
  simp

/-! ## The period counters (R117 to R119) -/

/-- What a side advance asked ahead leaves at its asker (R60; log entry 17). -/
theorem keepAdvance_st (i : AccountId) (c : ClassId) (count : Nat) (n : StationId) (s : State) (m : StationId) :
    (keepAdvance i c count n s).st m =
      if n = m ∧ (s.st m).session.map Session.funding = some (.account i) then
        { s.st m with advances := (s.st m).advances ++ [(c, count)] } else s.st m := by
  have hindex : (s.st n).accountIndex = some i ↔ (s.st n).session.map Session.funding = some (.account i) := by
    rw [accountIndex_eq_some, Option.map_eq_some_iff]
  unfold keepAdvance
  by_cases hi : (s.st n).accountIndex = some i
  · rw [if_pos hi]
    by_cases hm : n = m
    · subst hm
      rw [if_pos ⟨rfl, hindex.mp hi⟩, st_modSt_self]
    · rw [if_neg fun e => hm e.1, st_modSt_ne _ _ fun e => hm e.symm]
  · rw [if_neg hi, if_neg]
    rintro ⟨rfl, h⟩
    exact hi (hindex.mpr h)

/-- A side advance (R117). -/
theorem sideAdvance_result (s : State) (asker : Option StationId) (i : AccountId) (c : ClassId)
    (hs : AccountTable.wf s.accounts) : ∃ t,
    exec (.sideAdvance i c asker) s = .next t ∧ t.answer = some (.count (s.account i).sides[c]) ∧
    t = { s with stations := t.stations, accounts := t.accounts, answer := t.answer } ∧
    (∀ n, t.st n = (if asker = some n ∧ (s.st n).session.map Session.funding = some (.account i) then
      { s.st n with advances := (s.st n).advances ++ [(c, (s.account i).sides[c])] } else s.st n)) ∧
    (∀ k, k ≠ i → t.account k = s.account k) ∧
    t.account i = { s.account i with
      sides := (s.account i).sides.set c.val (min 16777215 ((s.account i).sides[c] + 1)) } := by
  generalize hu : (requestSideAdvance i c s).2 = u
  have huaccounts : u = { s with accounts := u.accounts } := by rw [← hu]; rfl
  have hkept : atAsker asker (keepAdvance i c (s.account i).sides[c]) u =
      { u with stations := (atAsker asker (keepAdvance i c (s.account i).sides[c]) u).stations } :=
    atAsker_stations fun n => by unfold keepAdvance; split <;> rfl
  refine ⟨answerWith (.count (s.account i).sides[c]) (atAsker asker (keepAdvance i c (s.account i).sides[c]) u),
    congrArg Host.Outcome.next (by rw [← hu]; rfl), rfl, ?_, fun n => ?_, fun k hk => ?_, ?_⟩
  · rw [hkept, huaccounts]
    rfl
  · rw [st_answerWith]
    have hust : u.st n = s.st n := by rw [huaccounts]; rfl
    cases asker with
    | none => rw [if_neg (by simp)]; exact hust
    | some m =>
      rw [atAsker, keepAdvance_st, hust]
      simp only [Option.some.injEq]
  · have : (answerWith (.count (s.account i).sides[c]) (atAsker asker (keepAdvance i c (s.account i).sides[c]) u)).account k =
        u.account k := by rw [hkept]; rfl
    rw [this, ← hu]
    exact account_modAccount_ne s _ hk
  · have : (answerWith (.count (s.account i).sides[c]) (atAsker asker (keepAdvance i c (s.account i).sides[c]) u)).account i =
        u.account i := by rw [hkept]; rfl
    rw [this, ← hu]
    refine (account_modAccount_self hs i _).trans ?_
    simp only [modClass, satAdd, maxSides]

/-- A posting that the hold bounds (R114, R115). -/
theorem posting_result {s : State} {i : AccountId} {n : StationId} {hold charge : Nat} {before after : List Funded}
    (hs : AccountTable.wf s.accounts) (hf : (s.account i).funded = before ++ { station := n, hold := hold } :: after)
    (hothers : ∀ e ∈ before ++ after, e.station ≠ n) (hle : charge ≤ hold) : ∃ t,
    exec (.posting i n charge) s = .next t ∧
    t = { s with accounts := t.accounts } ∧ (∀ k, k ≠ i → t.account k = s.account k) ∧
    (t.account i).balance = (s.account i).balance - charge ∧ (t.account i).funded = before ++ after ∧
    (t.account i).charge = min 999999999 ((s.account i).charge + charge) ∧
    (t.account i).available = (s.account i).available + (hold - charge : Nat) ∧
    (charge < hold → WakeStarted (before ++ after) (walkWithout n (s.account i).walk) (t.account i).walk) ∧
    (charge = hold → (t.account i).walk =
      if before ++ after = [] then none else walkWithout n (s.account i).walk) := by
  have hentry := entryOf_between hf hothers
  have hfunded : ((s.account i).posted n charge).funded = before ++ after := by
    rw [Account.posted, hf]
    exact filter_entry hold hothers
  obtain ⟨walk, haccount, hbelow, hat⟩ := requestPosting_account hs (charge := charge) hentry
  rw [hfunded] at hbelow
  have hexec : exec (.posting i n charge) s = .next (requestPosting i n charge s) := by
    show execPosting i n charge s = _
    rw [execPosting, Account.postable, hentry, if_pos (decide_eq_true hle)]
  refine ⟨_, hexec, requestPosting_rest i n charge s, fun k hk => requestPosting_account_ne n charge s hk, ?_⟩
  rw [haccount]
  refine ⟨rfl, hfunded, rfl, ?_, hbelow, fun he => ?_⟩
  · have hheld : (({ (s.account i).posted n charge with walk := walk } : Account).held : Int) =
        ((before ++ after).map Funded.hold).sum := by
      rw [← hfunded]
      rfl
    have hbefore : ((s.account i).held : Int) = ((before ++ after).map Funded.hold).sum + hold := by
      rw [Account.held, hf]
      simp only [List.map_append, List.map_cons, List.sum_append, List.sum_cons]
      omega
    rw [Account.available, Account.available, hheld, hbefore]
    have hbalance : ((s.account i).posted n charge).balance = (s.account i).balance - charge := rfl
    have hkind : ((s.account i).posted n charge).kind = (s.account i).kind := rfl
    have hlimit : ((s.account i).posted n charge).creditLimit = (s.account i).creditLimit := rfl
    dsimp only
    rw [hbalance, hkind, hlimit]
    omega
  · dsimp only
    rw [hat he.ge, posted_walk, hfunded]

/-- Settles O34: each counter and the posting change the one account. -/
theorem periodCountersAndPosting : Obligations.PeriodCountersAndPosting := by
  unfold Obligations.PeriodCountersAndPosting
  refine ⟨sideAdvance_result, fun s i c sides hs => ?_, fun s i hs => ?_,
    fun s i n hold charge before after hs hf hothers hle => posting_result hs hf hothers hle⟩
  · exact ⟨requestSideReturn i c sides s, rfl, rfl, fun k hk => account_modAccount_ne s _ hk,
      account_modAccount_self hs i _⟩
  · exact ⟨requestJobCount i s, rfl, rfl, fun k hk => account_modAccount_ne s _ hk,
      (account_modAccount_self hs i _).trans (by rw [satAdd_one])⟩

end Sys2Proof.Machine
end

section
/-! PROOF. A record's arrival at a station that is up, refused admissions (R101, R102), and the account table's admissions
and hold extensions (R112, R113). -/

namespace Sys2Proof.Machine

/-! ## Arrivals -/

/-- An arrival at a station that is up, with no card in passage, is life on the link alone (R8). -/
theorem arrive_up {n : StationId} {s : State} (hp : (s.st n).passage = none) (hd : (s.st n).state ≠ .down)
    (hs : (s.st n).state ≠ .suspended) : arrive n s = s.modSt n (fun x => { x with silence := 0 }) := by
  have hpassage : finishPassage n (s.modSt n (fun x => { x with silence := 0 })) =
      s.modSt n (fun x => { x with silence := 0 }) := finishPassage_none (by rw [st_modSt_self]; exact hp)
  unfold arrive
  rw [hpassage]
  dsimp only
  rw [st_modSt_self, if_neg hd, if_neg hs]

/-- What a record with a rule of its own leaves of its station besides (R8, R11, R13; log entry 21). -/
def Station.heard (clock : Nat) (x : Station) : Station :=
  { x with
    silence := 0
    idleTimer := x.idleTimer.map (fun _ => x.settings.idleTime)
    session := x.session.map (fun ses => { ses with lastActivity := clock }) }

/-- The arrival and the activity of a record at a station that is up. -/
theorem activity_arrive {n : StationId} {s : State} (hp : (s.st n).passage = none) (hd : (s.st n).state ≠ .down)
    (hs : (s.st n).state ≠ .suspended) : activity n (arrive n s) = s.modSt n (Station.heard s.clock) := by
  rw [arrive_up hp hd hs]
  simp only [activity, touchSession, restartIdle, modSession, modSt_modSt]
  rfl

/-! ## Refused admissions (R101, R102) -/

/-- What a refused admission leaves: its reservation is returned and its station is told. -/
structure Refuses (code : PanelCode) (n : StationId) (s t : State) : Prop where
  station : t.st n = { s.st n with
    passage := none, sendList := listPanel true 0 (some code) (s.st n).sendList }
  others : ∀ m, m ≠ n → t.st m = s.st m
  records : t.log.records = s.log.records
  reservations : t.log.reservations = s.log.reservations - 1
  accounts : t.accounts = s.accounts
  bindings : t.bindings = s.bindings
  raised : ∀ src, Raised src n s → Raised src n t

/-- The log-low check takes no station out of any bitmap. -/
theorem Raised.logLowCheck {src : NoticeSource} {n : StationId} {s : State} (h : Raised src n s) :
    Raised src n (logLowCheck s) := by
  unfold Machine.logLowCheck
  split
  · split
    · exact Raised.notices (h.raiseMask .logLow 0#16) rfl
    · exact h
  · exact h.notices rfl

theorem refuseAdmission_result (code : PanelCode) (n : StationId) (s : State) :
    Refuses code n s (refuseAdmission code n s) := by
  obtain ⟨hreservations, hrecords, -⟩ := returnReservation_log (endPassage n s)
  have hinternal := internal_refuseAdmission code n s
  refine ⟨?_, hinternal.others, hrecords, hreservations, ?_, hinternal.bindings, fun src h => ?_⟩
  · rw [refuseAdmission, refusalPanel, st_sendPanel, st_congr (returnReservation_stations _), endPassage, st_modSt_self]
  · exact returnReservation_accounts _
  · exact Raised.notices (Raised.logLowCheck (s := { endPassage n s with
      log := { (endPassage n s).log with reservations := (endPassage n s).log.reservations - 1 } }) (h.notices rfl)) rfl

/-- A refusal PANEL is the last of the send list. -/
theorem listPanel_getLast (locked : Bool) (amount : Nat) (code : Option PanelCode) (l : List OutRecord) :
    (listPanel locked amount code l).getLast? = some (.panel locked amount code) := by
  rw [listPanel, List.getLast?_append]
  rfl

theorem panel_mem_listPanel (locked : Bool) (amount : Nat) (code : Option PanelCode) (l : List OutRecord) :
    OutRecord.panel locked amount code ∈ listPanel locked amount code l :=
  List.mem_append_right _ (List.mem_singleton_self _)

/-! ## The account table's admission (R112) -/

section
variable {i : AccountId} {n : StationId} {floor : Nat} {s : State}

theorem requestAdmission_notActive (h : (s.account i).state ≠ .active) :
    requestAdmission i n floor s = (.refusedState, s) := by
  rw [requestAdmission, if_pos h]

theorem requestAdmission_full (h : (s.account i).state = .active) (hcap : (s.account i).cap ≤ (s.account i).funded.length) :
    requestAdmission i n floor s = (.refusedCap, s) := by
  rw [requestAdmission, if_neg (not_not_intro h), if_pos hcap]

theorem requestAdmission_short (h : (s.account i).state = .active)
    (hcap : (s.account i).funded.length < (s.account i).cap) (hfloor : (s.account i).available < (floor : Int)) :
    requestAdmission i n floor s = (.refusedFloor, s) := by
  rw [requestAdmission, if_neg (not_not_intro h), if_neg (Nat.not_le.mpr hcap), if_pos hfloor]

/-- The hold of an admission that is placed (R112). -/
def holdPlaced (i : AccountId) (n : StationId) (s : State) : State :=
  s.modAccount i (fun a => { a with
    funded := a.funded ++ [{ station := n, hold := min (s.account i).available.toNat s.quantum }]
    sessions := satAdd max32 a.sessions 1 })

theorem requestAdmission_placed (h : (s.account i).state = .active)
    (hcap : (s.account i).funded.length < (s.account i).cap) (hfloor : (floor : Int) ≤ (s.account i).available) :
    requestAdmission i n floor s =
      (.admitted (min (s.account i).available.toNat s.quantum) (s.account i).discountClass, holdPlaced i n s) := by
  rw [requestAdmission, if_neg (not_not_intro h), if_neg (Nat.not_le.mpr hcap), if_neg (Int.not_lt.mpr hfloor)]
  rfl

theorem holdPlaced_account (hs : AccountTable.wf s.accounts) : (holdPlaced i n s).account i = { s.account i with
    funded := (s.account i).funded ++ [{ station := n, hold := min (s.account i).available.toNat s.quantum }]
    sessions := min 4294967295 ((s.account i).sessions + 1) } := by
  rw [holdPlaced, account_modAccount_self hs, satAdd_one]

end

/-- The floor of an admission at a station with a tariff (R66). -/
theorem floor_eq {x : Station} {tf : Tariff} (h : x.tariff.active = some tf) :
    x.floor = max tf.header.minimum ((tf.ceiling + 9) / 10) := by
  rw [Station.floor, h]
  rfl

/-! ## The rows of the account table -/

/-- A change of a station is what it makes of the station as it stands. -/
theorem modSt_congr {n : StationId} {s : State} {f g : Station → Station} (h : f (s.st n) = g (s.st n)) :
    s.modSt n f = s.modSt n g := by
  rw [State.modSt, State.modSt, h]

/-- A change of the card in passage (R101). -/
theorem modPassage_eq {f : Passage → Passage} {n : StationId} {s : State} {p : Passage}
    (hp : (s.st n).passage = some p) :
    modPassage n f s = s.modSt n (fun x => { x with passage := some (f p) }) :=
  modSt_congr (by rw [hp]; rfl)

/-- The admission of a card in passage that the account table has not answered yet (R112). -/
theorem exec_admission {n : StationId} {i : AccountId} {s : State} {p : Passage} (hp : (s.st n).passage = some p)
    (hhold : p.hold = none) (hrefused : p.refused = none) (htariff : (s.st n).tariff.active.isSome = true) :
    exec (.admission n i) s = .next (takeAdmission n i s) := by
  show execAdmission n i s = _
  refine if_pos ?_
  rw [Station.awaitsHold, hp]
  simp [hhold, hrefused, htariff]

/-- The four ends of an admission (R112, R105). -/
theorem admission_results {s : State} {n : StationId} {i : AccountId} {p : Passage} {tf : Tariff}
    (hs : AccountTable.wf s.accounts) (hp : (s.st n).passage = some p) (hhold : p.hold = none)
    (hrefused : p.refused = none) (htariff : (s.st n).tariff.active = some tf) :
    let a := s.account i
    let refusal (answer : AdmissionAnswer) (code : PanelCode) : State :=
      { s.modSt n (fun x => { x with passage := some { p with refused := some code } }) with
        answer := some (.admission answer) }
    (a.state ≠ .active → exec (.admission n i) s = .next (refusal .refusedState .refused)) ∧
    (a.state = .active → a.cap ≤ a.funded.length → exec (.admission n i) s = .next (refusal .refusedCap .inUse)) ∧
    (a.state = .active → a.funded.length < a.cap → a.available < (max tf.header.minimum ((tf.ceiling + 9) / 10) : Nat) →
      exec (.admission n i) s = .next (refusal .refusedFloor .noFunds)) ∧
    (a.state = .active → a.funded.length < a.cap → ((max tf.header.minimum ((tf.ceiling + 9) / 10) : Nat) : Int) ≤
        a.available → ∃ t, exec (.admission n i) s = .next t ∧
      t.answer = some (.admission (.admitted (min a.available.toNat s.quantum) a.discountClass)) ∧
      t = { s with stations := t.stations, accounts := t.accounts, answer := t.answer } ∧
      (∀ m, m ≠ n → t.st m = s.st m) ∧ (∀ k, k ≠ i → t.account k = s.account k) ∧
      t.account i = { a with funded := a.funded ++ [{ station := n, hold := min a.available.toNat s.quantum }]
                             sessions := min 4294967295 (a.sessions + 1) } ∧
      t.st n = { s.st n with
        passage := some { p with hold := some (i, min a.available.toNat s.quantum, a.discountClass) } }) := by
  intro a refusal
  have hexec := exec_admission (i := i) hp hhold hrefused (by rw [htariff]; rfl)
  rw [hexec]
  unfold takeAdmission
  rw [floor_eq htariff]
  refine ⟨fun h => ?_, fun h hcap => ?_, fun h hcap hfloor => ?_, fun h hcap hfloor => ?_⟩
  · rw [requestAdmission_notActive h]
    show Host.Outcome.next (answerWith _ (modPassage n _ s)) = _
    rw [modPassage_eq hp]
    rfl
  · rw [requestAdmission_full h hcap]
    show Host.Outcome.next (answerWith _ (modPassage n _ s)) = _
    rw [modPassage_eq hp]
    rfl
  · rw [requestAdmission_short h hcap hfloor]
    show Host.Outcome.next (answerWith _ (modPassage n _ s)) = _
    rw [modPassage_eq hp]
    rfl
  · rw [requestAdmission_placed h hcap hfloor]
    dsimp only [keepAdmission, placeHold]
    rw [modPassage_eq (s := holdPlaced i n s) (p := p) hp]
    refine ⟨_, rfl, rfl, rfl, fun m hm => ?_, fun k hk => ?_, ?_, ?_⟩
    · rw [st_answerWith, st_modSt_ne _ _ hm]
      rfl
    · exact account_modAccount_ne s (fun a' => { a' with
        funded := a'.funded ++ [{ station := n, hold := min (s.account i).available.toNat s.quantum }]
        sessions := satAdd max32 a'.sessions 1 }) hk
    · exact holdPlaced_account hs
    · rw [st_answerWith, st_modSt_self]
      rfl

/-- An admission that the account table has refused ends in a refusal PANEL at the next record (R105). -/
theorem refused_ends {s : State} {n : StationId} {i : AccountId} {p : Passage} {code : PanelCode}
    (hstate : (s.st n).state = .idle) (hp : (s.st n).passage = some p) (hhold : p.hold = none)
    (hrefused : p.refused = some code) :
    exec (.admission n i) s = .next s ∧ exec (.handover n) s = .next s ∧
    ∃ t, exec (.status n) s = .next t ∧ t.accounts = s.accounts ∧ t.log.records = s.log.records ∧
      t.log.reservations = s.log.reservations - 1 ∧ (∀ m, m ≠ n → t.st m = s.st m) ∧ (t.st n).state = .idle ∧
      (t.st n).passage = none ∧ (t.st n).session = (s.st n).session ∧ (t.st n).slot = (s.st n).slot ∧
      OutRecord.panel true 0 (some code) ∈ (t.st n).sendList := by
  refine ⟨if_neg ?_, if_neg ?_, ?_⟩
  · rw [Station.awaitsHold, hp]
    simp [hhold, hrefused]
  · rw [handoverReady, hp]
    simp [hhold, hrefused]
  · generalize hu : s.modSt n (fun x => { x with silence := 0 }) = u
    have hust : u.st n = { s.st n with silence := 0 } := by rw [← hu, st_modSt_self]
    have hpassage : finishPassage n u = refuseAdmission code n u := by
      have : (u.st n).passage = some p := by rw [hust]; exact hp
      rw [finishPassage, this]
      dsimp only
      rw [hhold, hrefused]
    have href := refuseAdmission_result code n u
    have hstate' : ((refuseAdmission code n u).st n).state = .idle := by rw [href.station, hust]; exact hstate
    have harrive : arrive n s = refuseAdmission code n u := by
      rw [arrive, hu, hpassage]
      rw [hstate', if_neg (by simp), if_neg (by simp)]
    refine ⟨refuseAdmission code n u, congrArg Host.Outcome.next harrive, ?_, ?_, ?_, fun m hm => ?_, hstate', ?_⟩
    · rw [href.accounts, ← hu]
      rfl
    · rw [href.records, ← hu]
      rfl
    · rw [href.reservations, ← hu]
      rfl
    · rw [href.others m hm, ← hu, st_modSt_ne _ _ hm]
    · rw [href.station, hust]
      exact ⟨rfl, rfl, rfl, panel_mem_listPanel _ _ _ _⟩

/-- A hold extension that a station asks for (R113). -/
theorem holdExtension_results {s : State} {n : StationId} {i : AccountId} {ses : Session} {limit : Nat}
    (hs : AccountTable.wf s.accounts) (hses : (s.st n).session = some ses) (hf : ses.funding = .account i)
    (hl : ses.limit = some limit) :
    let a := s.account i
    ((a.state = .blocked ∨ a.available ≤ 0) →
      exec (.holdExtension n) s = .next { s with answer := some (.extension none) }) ∧
    (a.state ≠ .blocked → 0 < a.available → ∃ t, exec (.holdExtension n) s = .next t ∧
      t.answer = some (.extension (some (min a.available.toNat s.quantum))) ∧
      t = { s with stations := t.stations, accounts := t.accounts, answer := t.answer } ∧
      (∀ m, m ≠ n → t.st m = s.st m) ∧ (∀ k, k ≠ i → t.account k = s.account k) ∧
      (t.st n).session = some { ses with limit := some (limit + min a.available.toNat s.quantum) } ∧
      t.account i = { a with funded := a.funded.map (fun e =>
        if e.station = n then { e with hold := e.hold + min a.available.toNat s.quantum } else e) }) := by
  intro a
  have hindex : (s.st n).accountIndex = some i := accountIndex_eq_some.mpr ⟨ses, hses, hf⟩
  have hexec : exec (.holdExtension n) s =
      .next (answerWith (.extension (requestExtension i n s).1) (requestExtension i n s).2) := by
    show execHoldExtension n s = _
    rw [execHoldExtension, hindex]
  rw [hexec]
  refine ⟨fun h => ?_, fun hblocked hfunds => ?_⟩
  · have hnone : extensionAmount i s = none := by
      rw [extensionAmount]
      split
      · rfl
      · rw [if_pos (h.resolve_left ‹_›)]
    rw [requestExtension, hnone]
    rfl
  · have hsome : extensionAmount i s = some (min a.available.toNat s.quantum) := by
      rw [extensionAmount]
      rw [if_neg hblocked, if_neg (Int.not_le.mpr hfunds)]
    have hext := extended_requestExtension (n := n) hsome
    obtain ⟨l, hst, -⟩ := hext.station
    have hfirst : (requestExtension i n s).1 = some (min a.available.toNat s.quantum) := by rw [requestExtension, hsome]
    have hpanel := atStation_statePanel n (extendHold i n (min a.available.toNat s.quantum) s)
    have hrest : (requestExtension i n s).2 = statePanel n (extendHold i n (min a.available.toNat s.quantum) s) := by
      rw [requestExtension, hsome]
    refine ⟨_, rfl, ?_, ?_, fun m hm => ?_, fun k hk => hext.others k hk, ?_, hext.account hs⟩
    · rw [hfirst]
      rfl
    · rw [hrest, hpanel.rest, statePanel_notices]
      rfl
    · exact (internal_requestExtension i n s).others m hm
    · rw [st_answerWith, hst, hses]
      simp [Session.raisedBy, hl]

/-- Settles O33: the hold is the smaller of the funds and the quantum, and a refusal stands with the card. -/
theorem admissionAndExtensionResults : Obligations.AdmissionAndExtensionResults := by
  unfold Obligations.AdmissionAndExtensionResults
  exact ⟨fun s n i p tf hs hp hhold hrefused htariff => admission_results hs hp hhold hrefused htariff,
    fun s n i p code hstate hp hhold hrefused => refused_ends hstate hp hhold hrefused,
    fun s n i ses limit hs hses hf hl => holdExtension_results hs hses hf hl⟩

end Sys2Proof.Machine
end

section
/-! PROOF. A card at a station in IDLE (R100 to R103): its reservation, and the admission's end by the card's outcome. -/

namespace Sys2Proof.Machine

/-! ## The reservation (R168) -/

/-- The state after an admission's reservation. -/
def reservedState (s : State) : State := logLowCheck { s with log := { s.log with reservations := s.log.reservations + 1 } }

theorem reserve_eq {s : State} (h : 1 ≤ s.log.unreserved) : reserve s = (true, reservedState s) := if_pos h

theorem reservedState_frame (s : State) : reservedState s =
    { s with log := (reservedState s).log, notices := (reservedState s).notices } := by
  unfold reservedState logLowCheck
  split
  · split <;> rfl
  · rfl

/-- The state with a card in passage that has its reservation (R101). -/
def carried (card : CardId) (n : StationId) (s : State) : State :=
  (reservedState s).modSt n (fun x => { x with passage := some { card := card, hold := none } })

theorem carried_st (card : CardId) (n : StationId) (s : State) :
    (carried card n s).st n = { s.st n with passage := some { card := card, hold := none } } := by
  rw [carried, st_modSt_self, reservedState_frame]
  rfl

/-- A card that passes takes nothing but its reservation. -/
theorem carried_frame (card : CardId) (n : StationId) (s : State) : carried card n s =
    { s with log := (carried card n s).log, notices := (carried card n s).notices
             stations := (carried card n s).stations } := by
  rw [carried, reservedState_frame]
  rfl

theorem carried_log (card : CardId) (n : StationId) (s : State) :
    (carried card n s).log.records = s.log.records ∧
      (carried card n s).log.reservations = s.log.reservations + 1 :=
  ⟨logLowCheck_records _, logLowCheck_reservations _⟩

theorem classify_carried (card card' : CardId) (n : StationId) (s : State) :
    classify (carried card n s) card' = classify s card' := by
  rw [carried_frame]
  rfl

/-! ## What every end of an admission keeps -/

/-- The records of the log, the bindings, the silence measure and the other stations are no admission's. -/
structure AdmissionKeeps (n : StationId) (s t : State) : Prop where
  records : t.log.records = s.log.records
  silence : (t.st n).silence = (s.st n).silence
  bindings : t.bindings = s.bindings
  others : ∀ m, m ≠ n → t.st m = s.st m

theorem AdmissionKeeps.trans {n : StationId} {s t u : State} (h : AdmissionKeeps n s t) (k : AdmissionKeeps n t u) :
    AdmissionKeeps n s u :=
  ⟨k.records.trans h.records, k.silence.trans h.silence, k.bindings.trans h.bindings,
    fun m hm => (k.others m hm).trans (h.others m hm)⟩

theorem admissionKeeps_refuse (code : PanelCode) (n : StationId) (s : State) :
    AdmissionKeeps n s (refuseAdmission code n s) := by
  have h := refuseAdmission_result code n s
  exact ⟨h.records, by rw [h.station], h.bindings, h.others⟩

theorem admissionKeeps_openSession (funding : Funding) (card : CardId) (limit : Option Nat) (discount : Nat)
    (n : StationId) (s : State) : AdmissionKeeps n s (openSession funding card limit discount n (endPassage n s)) := by
  have h := atStation_openSession funding card limit discount n (endPassage n s)
  refine ⟨by rw [h.log]; rfl, ?_, by rw [h.rest]; rfl, fun m hm => ?_⟩
  · rw [st_openSession, entered_silence, endPassage, st_modSt_self]
    rfl
  · exact (h.others m hm).trans ((atStation_endPassage n s).others m hm)

theorem admissionKeeps_requestBank (card : CardId) (dc : Nat) (n : StationId) (s : State) :
    AdmissionKeeps n s (requestBank card dc n s) := by
  obtain ⟨hlog, hothers, -⟩ := requestBank_result card dc n s
  have h := (atStation_firstRequest card dc n (endPassage n s)).trans (atStation_enter false .authorizing n _)
  refine ⟨by rw [hlog], ?_, ?_, hothers⟩
  · rw [st_requestBank, entered_silence]
  · exact (congrArg State.bindings h.rest).trans rfl

theorem admissionKeeps_admitAccount (p : Passage) (n : StationId) (s : State) :
    AdmissionKeeps n s (admitAccount p n s) := by
  unfold admitAccount
  split
  · exact admissionKeeps_refuse _ n s
  · split
    · exact AdmissionKeeps.trans (t := raiseFor .lostCard n s) ⟨rfl, rfl, rfl, fun _ _ => rfl⟩
        (admissionKeeps_refuse _ n _)
    · split
      next u h =>
        have hplaced : AdmissionKeeps n s u := by
          obtain ⟨-, -, -, -, -, rfl⟩ := requestAdmission_admitted h
          exact ⟨rfl, rfl, rfl, fun _ _ => rfl⟩
        exact hplaced.trans (admissionKeeps_openSession _ _ _ _ n u)
      all_goals
        next h =>
          obtain rfl := requestAdmission_refused h (by simp)
          exact admissionKeeps_refuse _ n _

theorem admissionKeeps_admitOutcome (o : CardOutcome) (p : Passage) (n : StationId) (s : State) :
    AdmissionKeeps n s (admitOutcome o p n s) := by
  cases ha : o.action with
  | refuse =>
    rw [admitOutcome, ha]
    exact admissionKeeps_refuse _ n s
  | free =>
    rw [admitOutcome_free ha]
    exact admissionKeeps_openSession _ _ _ _ n s
  | bank =>
    rw [admitOutcome_bank ha]
    exact admissionKeeps_requestBank _ _ n s
  | account =>
    rw [admitOutcome, ha]
    exact admissionKeeps_admitAccount p n s

/-! ## A card at a station in IDLE -/

/-- A card without unreserved space is refused with LOG_FULL (R101). -/
theorem presentCard_full {s : State} (h : s.log.unreserved = 0) (card : CardId) (n : StationId) :
    presentCard card n s = refusalPanel n .logFull s := by
  rw [presentCard, reserve_refused h]

section
variable {s : State} {n : StationId} {card : CardId} (hlock : (s.st n).settings.auditLock = false)
  (hspace : 1 ≤ s.log.unreserved)
include hspace

theorem presentCard_eq : presentCard card n s = finishPassage n (carried card n s) := by
  rw [presentCard, reserve_eq hspace]
  rfl

include hlock

/-- A card without a tariff is refused with NO_TARIFF (R101). -/
theorem presentCard_noTariff (h : (s.st n).tariff.active = none) :
    presentCard card n s = refuseAdmission .noTariff n (carried card n s) := by
  have hst := carried_st card n s
  have hopen : ((carried card n s).st n).lockedOut = false := by rw [hst]; simp [Station.lockedOut, hlock]
  have hnone : ((carried card n s).st n).tariff.active.isNone = true := by rw [hst, h]; rfl
  have hpassage : ((carried card n s).st n).passage = some { card := card, hold := none } := by rw [hst]
  rw [presentCard_eq hspace, finishPassage, hpassage]
  dsimp only
  rw [hopen, if_neg Bool.false_ne_true, if_pos hnone]

/-- A card under a tariff goes on with its classification (R101). -/
theorem presentCard_outcome (h : (s.st n).tariff.active.isSome = true) :
    presentCard card n s = admitOutcome (classify s card) { card := card, hold := none } n (carried card n s) := by
  have hst := carried_st card n s
  rw [presentCard_eq hspace]
  refine finishPassage_outcome (p := { card := card, hold := none }) (by rw [hst]) rfl rfl (.inr ⟨rfl, ?_, ?_, ?_⟩)
  · exact classify_carried card card n s
  · rw [hst]
    exact h
  · rw [hst]
    simp [hlock]

end

/-- Every end of a card at a station in IDLE keeps what no admission works on. -/
theorem admissionKeeps_presentCard {s : State} {n : StationId} (hlock : (s.st n).settings.auditLock = false)
    (card : CardId) : AdmissionKeeps n s (presentCard card n s) := by
  have hcarried : AdmissionKeeps n s (carried card n s) := by
    refine ⟨(carried_log card n s).1, by rw [carried_st], by rw [carried_frame], fun m hm => ?_⟩
    rw [carried, st_modSt_ne _ _ hm, reservedState_frame]
    rfl
  rcases Nat.eq_zero_or_pos s.log.unreserved with h | h
  · rw [presentCard_full h]
    have hat := atStation_sendPanel n true 0 (some .logFull) s
    exact ⟨by rw [refusalPanel, hat.log], by rw [refusalPanel, st_sendPanel], by rw [refusalPanel, hat.rest], hat.others⟩
  · cases ht : (s.st n).tariff.active with
    | none =>
      rw [presentCard_noTariff hlock h ht]
      exact hcarried.trans (admissionKeeps_refuse _ n _)
    | some tf =>
      rw [presentCard_outcome hlock h (by rw [ht]; rfl)]
      exact hcarried.trans (admissionKeeps_admitOutcome _ _ n _)

/-- What a refusal leaves of a card that has its reservation: the station in its state, the reservation returned. -/
theorem refused_carried (code : PanelCode) (card : CardId) (n : StationId) (s : State) :
    ((refuseAdmission code n (carried card n s)).st n).state = (s.st n).state ∧
      (refuseAdmission code n (carried card n s)).log.reservations = s.log.reservations ∧
      (refuseAdmission code n (carried card n s)).accounts = s.accounts ∧
      ((refuseAdmission code n (carried card n s)).st n).sendList.getLast? = some (.panel true 0 (some code)) := by
  have h := refuseAdmission_result code n (carried card n s)
  refine ⟨by rw [h.station, carried_st], ?_, ?_, ?_⟩
  · rw [h.reservations, (carried_log card n s).2]
    rfl
  · rw [h.accounts, carried_frame]
  · rw [h.station]
    exact listPanel_getLast _ _ _ _

/-- A card record at a station in IDLE presents its card (R100). -/
theorem exec_card_idle {s : State} {n : StationId} {card : CardId} (hwf : CardId.wf card = true)
    (hstate : (s.st n).state = .idle) (hp : (s.st n).passage = none) :
    exec (.card n (beCardId card)) s = .next (presentCard card n (s.modSt n (Station.heard s.clock))) := by
  refine congrArg Host.Outcome.next ?_
  show takeCard (beCardId card) n (activity n (arrive n s)) = _
  rw [activity_arrive hp (by rw [hstate]; simp) (by rw [hstate]; simp), takeCard, st_modSt_self]
  have : ((s.st n).heard s.clock).state = .idle := hstate
  rw [this, cardIdOf_beCardId hwf]

/-- Settles O27: the checks of R101 in order, then the card's outcome. -/
theorem cardAdmissionResult : Obligations.CardAdmissionResult := by
  unfold Obligations.CardAdmissionResult
  intro s n card hwf hstate hp hnone hlock hslot
  have hexec := exec_card_idle hwf hstate hp
  generalize hu : s.modSt n (Station.heard s.clock) = u at hexec
  have hust : u.st n = (s.st n).heard s.clock := by rw [← hu, st_modSt_self]
  have hrest : u = { s with stations := u.stations } := by rw [← hu]; rfl
  have hlog : u.log = s.log := by rw [hrest]
  have hustate : (u.st n).state = .idle := by rw [hust]; exact hstate
  have hulock : (u.st n).settings.auditLock = false := by rw [hust]; exact hlock
  have hutariff : (u.st n).tariff = (s.st n).tariff := by rw [hust]; rfl
  have hclassify : classify u card = classify s card := by rw [hrest]; rfl
  have hkeeps := admissionKeeps_presentCard hulock card
  refine ⟨presentCard card n u, hexec, fun m hm => (hkeeps.others m hm).trans (by rw [← hu, st_modSt_ne _ _ hm]), ?_, ?_,
    fun hfull => ?_, fun hspace htariff => ?_, fun hspace htariff haction => ?_, fun hspace htariff haction => ?_,
    fun hspace htariff haction => ?_⟩
  · rw [hkeeps.silence, hust]
    rfl
  · rw [hkeeps.records, hlog]
  · rw [presentCard_full (by rw [hlog]; exact hfull)]
    refine ⟨by rw [refusalPanel, st_sendPanel]; exact hustate, hlog, ?_⟩
    rw [refusalPanel, st_sendPanel]
    exact listPanel_getLast _ _ _ _
  · rw [presentCard_noTariff hulock (by rw [hlog]; exact hspace) (by rw [hutariff]; exact htariff)]
    obtain ⟨h1, h2, -, h4⟩ := refused_carried .noTariff card n u
    exact ⟨h1.trans hustate, by rw [h2, hlog], h4⟩
  all_goals
    rw [presentCard_outcome hulock (by rw [hlog]; exact hspace) (by rw [hutariff]; exact htariff), hclassify]
  · rw [admitOutcome, haction]
    obtain ⟨h1, h2, -, h4⟩ := refused_carried .refused card n u
    exact ⟨h1.trans hustate, by rw [h2, hlog], h4⟩
  · rw [admitOutcome_free haction]
    obtain ⟨hopenLog, -, hopened, -, hsession⟩ := openFree_result card n (carried card n u)
    refine ⟨hopened, ?_, _, hsession, ?_, rfl, rfl, rfl, rfl, rfl, ?_⟩
    · rw [hopenLog, (carried_log card n u).2, hlog]
    · rw [carried_frame, hrest]
      rfl
    · rw [carried_frame, hrest]
      rfl
  · rw [admitOutcome_bank haction]
    obtain ⟨hbankLog, -, hfetch⟩ := requestBank_result card (classify s card).discountClass n (carried card n u)
    have hst := st_requestBank card (classify s card).discountClass n (carried card n u)
    have hcarried := carried_frame card n u
    refine ⟨by rw [hst, entered_state], ?_, ?_, ?_, newRequest (takeTag (endPassage n (carried card n u))).1 (carried card n u),
      ?_, ?_, ?_, rfl, rfl⟩
    · rw [hbankLog, (carried_log card n u).2, hlog]
    · rw [hst, entered_session, carried_st, hust]
      simp [Station.heard, hnone]
    · rw [hfetch, hcarried, hrest]
    · rw [hst, entered_slot]
    · rw [hcarried, hrest]
      rfl
    · rw [hcarried, hrest]
      rfl

/-! ## ACCOUNT cards (R102) -/

/-- A card ID that no binding carries is found in none. -/
theorem lookupBinding_none {s : State} {card : CardId} (h : ∀ b ∈ s.bindings, b.card ≠ card) :
    lookupBinding s card = none := by
  unfold lookupBinding
  split
  · exact List.find?_eq_none.mpr fun b hb => by simpa using h b hb
  · rfl

/-- An account's session that opens on a hold placed now. -/
theorem openAccountSession_frame (i : AccountId) (card : CardId) (limit dc : Nat) (n : StationId) (s : State) :
    (openAccountSession i card limit dc n s).accounts = s.accounts :=
  (atStation_openSession (.account i) card (some limit) ((s.st n).discountOf dc) n (endPassage n s)).accounts

/-- Settles O28: the binding, then the account table's checks in order. -/
theorem accountCardAdmission : Obligations.AccountCardAdmission := by
  unfold Obligations.AccountCardAdmission
  intro s n card tf hwf hstate hp hnone hlock hready hs hspace htariff haction
  have hexec := exec_card_idle hwf hstate hp
  generalize hu : s.modSt n (Station.heard s.clock) = u at hexec
  have hust : u.st n = (s.st n).heard s.clock := by rw [← hu, st_modSt_self]
  have hrest : u = { s with stations := u.stations } := by rw [← hu]; rfl
  have hlog : u.log = s.log := by rw [hrest]
  have hustate : (u.st n).state = .idle := by rw [hust]; exact hstate
  have hulock : (u.st n).settings.auditLock = false := by rw [hust]; exact hlock
  have hutariff : (u.st n).tariff.active = some tf := by rw [hust]; exact htariff
  have hclassify : classify u card = classify s card := by rw [hrest]; rfl
  have hkeeps := admissionKeeps_presentCard hulock card
  have hpresent : presentCard card n u = admitAccount { card := card, hold := none } n (carried card n u) := by
    rw [presentCard_outcome hulock (by rw [hlog]; exact hspace) (by rw [hutariff]; rfl), hclassify, admitOutcome, haction]
  have hcarried := carried_frame card n u
  have hcst := carried_st card n u
  have haccounts : (carried card n u).accounts = s.accounts := by rw [hcarried, hrest]
  have haccount : ∀ k, (carried card n u).account k = s.account k := fun k => by rw [hcarried, hrest]; rfl
  have hquantum : (carried card n u).quantum = s.quantum := by rw [hcarried, hrest]
  have hlookup : lookupBinding (carried card n u) card = lookupBinding s card := by rw [hcarried, hrest]; rfl
  have hfloor : ((carried card n u).st n).floor = max tf.header.minimum ((tf.ceiling + 9) / 10) :=
    floor_eq (by rw [hcst]; exact hutariff)
  have hreservations : (carried card n u).log.reservations = s.log.reservations + 1 := by
    rw [(carried_log card n u).2, hlog]
  have hbinding : ∀ o, lookupBinding s card = o →
      ({ card := card, hold := none } : Passage).binding (carried card n u) = o := fun o ho => hlookup.trans ho
  have hrefused (code : PanelCode) := refused_carried code card n u
  have huaccounts : u.accounts = s.accounts := by rw [hrest]
  refine ⟨presentCard card n u, hexec, fun m hm => (hkeeps.others m hm).trans (by rw [← hu, st_modSt_ne _ _ hm]), ?_, ?_,
    fun hfree => ?_, fun b hb => ⟨fun hlost => ?_, fun hlost href => ?_, fun hlost hactive hcap hfunds => ?_⟩⟩
  · rw [hkeeps.records, hlog]
  · rw [hkeeps.bindings, hrest]
  all_goals rw [hpresent, admitAccount]
  · rw [hbinding none (lookupBinding_none hfree)]
    obtain ⟨h1, h2, h3, h4⟩ := hrefused .unknownCard
    exact ⟨h1.trans hustate, by rw [h2, hlog], by rw [h3, huaccounts], h4⟩
  all_goals
    rw [hbinding _ hb]
    dsimp only
    rw [hlost]
  · rw [if_pos rfl]
    have h := refuseAdmission_result .lostCard n (raiseFor .lostCard n (carried card n u))
    have hraised := h.raised .lostCard (raiseFor_raised .lostCard n _)
    refine ⟨?_, ?_, ?_, ?_, hraised.1, hraised.2⟩
    · rw [h.station, st_raiseFor, hcst]
      exact hustate
    · rw [h.reservations]
      exact (congrArg (· - 1) hreservations).trans rfl
    · rw [h.accounts]
      exact haccounts
    · rw [h.station]
      exact listPanel_getLast _ _ _ _
  · rw [if_neg Bool.false_ne_true, hfloor]
    by_cases hactive : (s.account b.account).state = .active
    · by_cases hcap : (s.account b.account).cap ≤ (s.account b.account).funded.length
      · rw [requestAdmission_full (by rw [haccount]; exact hactive) (by rw [haccount]; exact hcap)]
        obtain ⟨h1, h2, h3, h4⟩ := hrefused .inUse
        refine ⟨h1.trans hustate, by rw [h2, hlog], by rw [h3, huaccounts], ?_⟩
        rw [if_neg (not_not_intro hactive), if_pos hcap]
        exact h4
      · have hfunds := (href.resolve_left (not_not_intro hactive)).resolve_left hcap
        rw [requestAdmission_short (by rw [haccount]; exact hactive) (by rw [haccount]; exact Nat.not_le.mp hcap)
          (by rw [haccount]; exact hfunds)]
        obtain ⟨h1, h2, h3, h4⟩ := hrefused .noFunds
        refine ⟨h1.trans hustate, by rw [h2, hlog], by rw [h3, huaccounts], ?_⟩
        rw [if_neg (not_not_intro hactive), if_neg hcap]
        exact h4
    · rw [requestAdmission_notActive (by rw [haccount]; exact hactive)]
      obtain ⟨h1, h2, h3, h4⟩ := hrefused .refused
      refine ⟨h1.trans hustate, by rw [h2, hlog], by rw [h3, huaccounts], ?_⟩
      rw [if_pos hactive]
      exact h4
  · rw [if_neg Bool.false_ne_true, hfloor, requestAdmission_placed (by rw [haccount]; exact hactive)
      (by rw [haccount]; exact hcap) (by rw [haccount]; exact hfunds)]
    dsimp only
    rw [haccount, hquantum]
    have hholdst : (holdPlaced b.account n (carried card n u)).st n = (carried card n u).st n := rfl
    obtain ⟨hopenLog, -, hopened, -, hsession⟩ := openAccountSession_result b.account card
      (min (s.account b.account).available.toNat s.quantum) (s.account b.account).discountClass n
      (holdPlaced b.account n (carried card n u))
    have hframe := openAccountSession_frame b.account card (min (s.account b.account).available.toNat s.quantum)
      (s.account b.account).discountClass n (holdPlaced b.account n (carried card n u))
    have hopenAccount : ∀ k, (openAccountSession b.account card (min (s.account b.account).available.toNat s.quantum)
        (s.account b.account).discountClass n (holdPlaced b.account n (carried card n u))).account k =
          (holdPlaced b.account n (carried card n u)).account k := fun k => by rw [State.account, hframe]; rfl
    refine ⟨hopened, by rw [hopenLog]; exact hreservations, ?_, fun k hk => ?_, ?_⟩
    · rw [hsession, hholdst, hcst]
      have hnumber : (holdPlaced b.account n (carried card n u)).sessionCounter = s.sessionCounter := by
        rw [holdPlaced, modAccount_sessionCounter, hcarried, hrest]
      have hstamp : (u.st n).stamp = tf.header.stamp := by rw [Station.stamp, hutariff]
      have hdiscount : (u.st n).discountOf (s.account b.account).discountClass =
          tf.header.discounts.toList.getD (s.account b.account).discountClass 0 := by
        rw [Station.discountOf, hutariff]
        rfl
      rw [hnumber]
      show some (_, _, _, _, (u.st n).stamp, (u.st n).discountOf _) = _
      rw [hstamp, hdiscount]
      rfl
    · rw [hopenAccount, holdPlaced, account_modAccount_ne _ _ hk, haccount]
    · rw [hopenAccount, holdPlaced_account (by rw [haccounts]; exact hs), haccount, hquantum]

end Sys2Proof.Machine
end

section
/-! PROOF. Starts: the START record (R15 to R17), the host's answers to a start that waits in CONFIRMING (R18, R19), and the
start grant (R16, R20 to R23). -/

namespace Sys2Proof.Machine

/-! ## Faults and entries at their station -/

@[simp] theorem st_protocolFault (n : StationId) (s : State) : (protocolFault n s).st n = faulted (s.st n) := by
  rw [protocolFault, st_raiseFor, st_modSt_self]
  rfl

/-- A fault's notice is raised (R31). -/
theorem protocolFault_raised (n : StationId) (s : State) : Raised .protocol n (protocolFault n s) :=
  raiseFor_raised .protocol n _

/-- An entry raises its state's notice with the station in the bitmap (R1). -/
theorem enter_raised {q : Bool} {new : StationState} {n : StationId} {s : State} {src : NoticeSource}
    (h : (s.st n).state ≠ new) (hsrc : new.entryNotice = some src) : Raised src n (enter q new n s) := by
  have hpanel : Raised src n (statePanel n (raiseEntry new n (s.modSt n (Station.entering new)))) := by
    refine Raised.notices ?_ (statePanel_notices _ _)
    rw [raiseEntry, hsrc]
    exact raiseFor_raised src n _
  unfold enter
  rw [if_neg h]
  dsimp only
  split
  · unfold commitTariff
    split
    · exact hpanel
    · dsimp only
      split
      · exact hpanel
      · exact hpanel.raiseMask _ _
  · exact hpanel

/-- What changes at one station alone changes nothing else. -/
theorem AtStation.onlyAt {n : StationId} {s t : State} (h : AtStation n s t) : OnlyAt n s t := ⟨h.others, h.rest⟩

/-! ## Sizings counted from before -/

/-- A change at the station that keeps its ceiling, its slot and its GRANTs stands for the state before it. -/
theorem sizedFrom_at {n : StationId} {s t : State} (h : AtStation n s t) (hceiling : (t.st n).ceiling = (s.st n).ceiling)
    (hslot : (t.st n).slot = (s.st n).slot)
    (hgrants : ∀ k, OutRecord.grant k ∈ (t.st n).sendList ↔ OutRecord.grant k ∈ (s.st n).sendList) : SizedFrom n s t where
  ceiling := hceiling
  slot := hslot
  grants := hgrants
  quantum := h.quantum
  clock := ⟨h.clock, h.clockSet⟩
  tables hs := by rw [h.accounts]; exact hs
  funded _ i := by rw [h.account]

/-- An entry to a state without a commit keeps what a sizing reads. -/
theorem sizedFrom_enter (q : Bool) {new : StationState} (hnew : new.commits = false) (n : StationId) (s : State) :
    SizedFrom n s (enter q new n s) := by
  refine sizedFrom_at (atStation_enter q new n s) ?_ ?_ fun k => ?_
  · rw [st_enter, Station.ceiling, entered_tariff hnew]
    rfl
  · rw [st_enter, entered_slot]
  · rw [st_enter]
    exact grant_mem_entered k new _

/-- A consultation counts from an earlier state that stands for its own. -/
theorem Consulted.from {before : StationState} {whole : Bool} {request : Nat} {n : StationId} {ses ses₀ : Session}
    {released sets : Nat} {s₀ s t : State} {g : Nat} (h : Consulted before whole request n ses released sets s t g)
    (k : SizedFrom n s₀ s) (hgross : ses.gross = ses₀.gross) (hlimit : ses.limit = ses₀.limit)
    (hfunding : ses.funding = ses₀.funding) : Consulted before whole request n ses₀ released sets s₀ t g :=
  ⟨h.sized.from k hgross hlimit hfunding, h.state⟩

/-! ## The job of a descriptor (R14, R16) -/

theorem jobOf_asSet (d : Descriptor) : (decide (d.mode = .set) && decide (0 < d.originals) &&
    decide ((if d.duplex then d.originals * 2 else d.originals) ≤ 64)) = d.runsAsSet := by
  unfold Descriptor.runsAsSet Descriptor.setSides
  have hpos : (0 < d.originals) = (1 ≤ d.originals) := rfl
  cases d.duplex <;> simp [hpos]

/-- A descriptor that runs in SET mode gives a SET job of its set sides and copies, and any other a job without sets. -/
theorem jobOf_eq (d : Descriptor) : jobOf d =
    { mode := if d.runsAsSet then .set else if d.mode = .set then .run else d.mode
      originals := d.originals, copies := d.copies, duplex := d.duplex
      setSides := if d.runsAsSet then d.setSides else 0
      setsRemaining := if d.runsAsSet then d.copies else 0
      released := 0, reprint := 0, unmet := 0, lastSheet := none } := by
  have hsides : (if d.duplex then d.originals * 2 else d.originals) = d.setSides := by
    unfold Descriptor.setSides
    cases d.duplex <;> simp
  unfold jobOf
  dsimp only
  rw [jobOf_asSet, hsides]
  by_cases h : d.runsAsSet = true
  · have hset : d.mode = .set := by simp_all [Descriptor.runsAsSet]
    simp [h, hset]
  · simp [h]

theorem jobOf_mode (d : Descriptor) : decide ((jobOf d).mode = .set) = d.runsAsSet := by
  rw [jobOf_eq]
  by_cases h : d.runsAsSet = true
  · simp [h]
  · by_cases hm : d.mode = .set <;> simp [h, hm]

/-- The request of a start grant (R21, R22, R23, R48). -/
theorem jobOf_request {d : Descriptor} (hcopies : 1 ≤ d.copies) (window : Nat) :
    (jobOf d).request window true = d.startRequest window := by
  rw [jobOf_eq]
  unfold Job.request Job.want Job.cap Descriptor.startRequest
  by_cases h : d.runsAsSet = true
  · have hpos : 0 < d.setSides := by
      have horiginals : 1 ≤ d.originals := by
        simp only [Descriptor.runsAsSet, Bool.and_eq_true, decide_eq_true_eq] at h
        exact h.1.2
      unfold Descriptor.setSides
      exact Nat.mul_pos horiginals (by split <;> omega)
    simp only [h, if_true, Nat.zero_le, true_and, show 0 < d.copies from hcopies, hpos, Nat.sub_zero]
    omega
  · simp only [h, Bool.false_eq_true, if_false]
    cases hm : d.mode with
    | single => cases d.duplex <;> simp
    | run => by_cases hw : window = 0 <;> simp [hw, Nat.pos_iff_ne_zero]
    | set => by_cases hw : window = 0 <;> simp [hw, Nat.pos_iff_ne_zero]

/-! ## The start grant -/

/-- The station as a start grant makes the job of its descriptor (R16). -/
def Station.started (d : Descriptor) (x : Station) : Station :=
  { x with
    job := some (jobOf d)
    startPending := false
    descriptor := none
    confirmTimer := none
    session := x.session.map (fun ses => { ses with jobs := satAdd max32 ses.jobs 1 })
    counters := { x.counters with jobs := satAdd max32 x.counters.jobs 1 } }

/-- The state that the first grant of a start is consulted in (R16). -/
def startConsulted (d : Descriptor) (ses : Session) (n : StationId) (s : State) : State :=
  enter false .running n (match ses.funding with
    | .account i => requestJobCount i (s.modSt n (Station.started d))
    | .bank _ _ _ => s.modSt n (Station.started d)
    | .free => s.modSt n (Station.started d))

section
variable {s : State} {n : StationId} {d : Descriptor} {ses : Session}

theorem startGrant_eq (hd : (s.st n).descriptor = some d) (h : (s.st n).session = some ses) :
    startGrant n s = consult true n (startConsulted d ses n s) := by
  rw [startGrant, hd]
  dsimp only
  rw [h]
  rfl

/-- The station in which the first grant is consulted. -/
theorem startConsulted_st : (startConsulted d ses n s).st n = ((s.st n).started d).entered .running := by
  rw [startConsulted, st_enter]
  cases ses.funding <;> exact congrArg (Station.entered .running) (st_modSt_self s n _)

/-- What the start grant's request reads is as it was before the start. -/
theorem sizedFrom_startConsulted : SizedFrom n s (startConsulted d ses n s) := by
  have hstart : SizedFrom n s (s.modSt n (Station.started d)) :=
    sizedFrom_at (atStation_modSt s n _) (by rw [st_modSt_self]; rfl) (by rw [st_modSt_self]; rfl)
      fun k => by rw [st_modSt_self]; exact .rfl
  have hcount : ∀ i : AccountId, SizedFrom n (s.modSt n (Station.started d))
      (requestJobCount i (s.modSt n (Station.started d))) := fun i => by
    refine ⟨rfl, rfl, fun _ => .rfl, rfl, ⟨rfl, rfl⟩, (internal_modAccount n _ i _).tables, fun hs k => ?_⟩
    by_cases hk : k = i
    · subst hk
      rw [requestJobCount, account_modAccount_self hs]
    · rw [requestJobCount, account_modAccount_ne _ _ hk]
  unfold startConsulted
  cases ses.funding with
  | account i => exact (hstart.trans (hcount i)).trans (sizedFrom_enter false rfl n _)
  | bank a v k => exact hstart.trans (sizedFrom_enter false rfl n _)
  | free => exact hstart.trans (sizedFrom_enter false rfl n _)

/-- A job count leaves the stations. -/
theorem startConsulted_others {m : StationId} (hm : m ≠ n) : (startConsulted d ses n s).st m = s.st m := by
  unfold startConsulted
  rw [(atStation_enter false .running n _).others m hm]
  cases ses.funding <;> exact st_modSt_ne s _ hm

/-- What a start grant leaves at its station (R16). -/
structure StartGranted (d : Descriptor) (ses : Session) (n : StationId) (s t : State) : Prop where
  others : ∀ m, m ≠ n → t.st m = s.st m
  state : (t.st n).state = .running ∨ (t.st n).state = .starved
  pending : (t.st n).startPending = false ∧ (t.st n).descriptor = none ∧ (t.st n).confirmTimer = none
  job : ∃ r u k, (t.st n).job = some { jobOf d with released := r, unmet := u, setsRemaining := k }
  jobs : (t.st n).session.map Session.jobs = some (min 4294967295 (ses.jobs + 1)) ∧
    (t.st n).counters.jobs = min 4294967295 ((s.st n).counters.jobs + 1)
  consulted : 1 ≤ d.copies → ∃ g, Consulted .running d.runsAsSet (d.startRequest (s.st n).settings.window) n ses 0
    (if d.runsAsSet then d.copies else 0) s t g

theorem startGrant_result (hd : (s.st n).descriptor = some d) (h : (s.st n).session = some ses) :
    StartGranted d ses n s (startGrant n s) := by
  rw [startGrant_eq hd h]
  generalize hu : startConsulted d ses n s = u
  have hst : u.st n = ((s.st n).started d).entered .running := by rw [← hu]; exact startConsulted_st
  have hsession : (u.st n).session = some { ses with jobs := satAdd max32 ses.jobs 1 } := by
    rw [hst, entered_session]
    simp [Station.started, h]
  have hjob : (u.st n).job = some (jobOf d) := by
    rw [hst, entered_job]
    rfl
  have hrunning : (u.st n).state = .running := by rw [hst, entered_state]
  obtain ⟨hgranting, g, hconsulted⟩ := consult_result hsession hjob true (.inl hrunning)
  have hframe := hgranting.frame
  have hwindow : (u.st n).settings.window = (s.st n).settings.window := by
    rw [hst, entered_settings]
    rfl
  refine ⟨fun m hm => ?_, hconsulted.running_or_starved (.inl hrunning), ?_, hgranting.job, ?_, fun hcopies => ⟨g, ?_⟩⟩
  · rw [(internal_consult true n u).others m hm, ← hu]
    exact startConsulted_others hm
  · rw [hframe, hst]
    simp [Station.started]
  · obtain ⟨l, f, hs⟩ := hgranting.session
    rw [hs, hframe, hst]
    simp [Station.started, satAdd_one]
  · rw [hrunning, jobOf_mode, jobOf_request hcopies, hwindow] at hconsulted
    have hzero : (jobOf d).released = 0 := rfl
    have hsets : (jobOf d).setsRemaining = if d.runsAsSet then d.copies else 0 := by rw [jobOf_eq]
    rw [hzero, hsets] at hconsulted
    refine hconsulted.from ?_ rfl rfl rfl
    rw [← hu]
    exact sizedFrom_startConsulted

end

/-! ## The host's answers in CONFIRMING (R18, R19) -/

/-- A start given up returns its station to OPEN. -/
theorem dropped_result {s : State} {n : StationId} (h : (s.st n).state = .confirming) :
    let t := enter false .opened n (dropStart n s)
    OnlyAt n s t ∧ (t.st n).state = .opened ∧ (t.st n).startPending = false ∧ (t.st n).descriptor = none ∧
      (t.st n).confirmTimer = none ∧ (t.st n).idleTimer = some (s.st n).settings.idleTime ∧
      (t.st n).session = (s.st n).session ∧
      (t.st n).sendList.getLast? = some (.panel false (s.st n).remaining none) := by
  intro t
  have hat : AtStation n s t := (atStation_modSt s n _).trans (atStation_enter false .opened n _)
  have hst : t.st n = ({ s.st n with startPending := false, descriptor := none, confirmTimer := none } :
      Station).entered .opened := by
    show (enter false .opened n (dropStart n s)).st n = _
    rw [st_enter, dropStart, st_modSt_self]
  have hne : ({ s.st n with startPending := false, descriptor := none, confirmTimer := none } : Station).state ≠
      .opened := by
    show (s.st n).state ≠ _
    rw [h]
    exact StationState.noConfusion
  refine ⟨hat.onlyAt, by rw [hst, entered_state], by rw [hst, entered_startPending], by rw [hst, entered_descriptor],
    by rw [hst, entered_confirmTimer], ?_, by rw [hst, entered_session], ?_⟩
  · rw [hst, entered_idleTimer hne]
    rfl
  · rw [hst, entered_sendList hne]
    exact listPanel_getLast _ _ _ _

/-- Settles O16: the three answers, refused out of range and outside CONFIRMING. -/
theorem attendedStartResults : Obligations.AttendedStartResults := by
  unfold Obligations.AttendedStartResults
  have hat (n : StationId) : fieldAt (be1 n.val) 0 1 = n.val :=
    fieldAt_be1_alone (n.isLt.trans (show 16 < 256 by decide))
  have hrule (act : StationId → State → State) {s : State} {n : StationId} :
      whenConfirming (be1 n.val) s act =
        if (s.st n).state = .confirming then done (act n s) else refuse .notPending s := onStation_at (hat n) s _
  have hbeyond (act : StationId → State → State) {s : State} {byte : Byte} (h : 15 < byte.toNat) :
      whenConfirming [byte] s act = refuse .badParameter s := onStation_beyond (by simpa using h) s _
  refine ⟨fun s tag rest n hstate => ⟨fun h => ?_, fun h => ?_, fun h => ?_⟩,
    fun s tag byte rest hb => ⟨fun h => ?_, fun h => ?_, fun h => ?_⟩,
    fun s tag rest n hstate => ⟨fun h => ?_, fun h => ?_, fun h d ses hd hses => ?_⟩⟩
  iterate 3
    exact congrArg Host.Outcome.next (runCommand_answers h rfl rfl (fun ht => absurd ht Bool.false_ne_true)
      ((hrule _).trans (if_neg hstate)) rfl)
  iterate 3
    exact congrArg Host.Outcome.next (runCommand_answers h rfl rfl (fun ht => absurd ht Bool.false_ne_true)
      (hbeyond _ hb) rfl)
  · obtain ⟨honly, hopened, hpend, hdesc, htimer, hidle, hses, hlast⟩ := dropped_result hstate
    have hpanel := atStation_sendPanel n false ((enter false .opened n (dropStart n s)).st n).remaining (some .refused)
      (enter false .opened n (dropStart n s))
    have hremaining : ((enter false .opened n (dropStart n s)).st n).remaining = (s.st n).remaining := by
      rw [Station.remaining, hses]
      rfl
    refine ⟨denyStart n s, congrArg Host.Outcome.next (runCommand_answers h rfl rfl
      (fun ht => absurd ht Bool.false_ne_true) ((hrule _).trans (if_pos hstate)) (internal_denyStart n s).host), ?_⟩
    rw [denyStart, st_sendPanel]
    refine ⟨⟨fun m hm => (hpanel.others m hm).trans (honly.1 m hm), ?_⟩, hopened, hpend, hdesc, htimer, hidle, hses, ?_⟩
    · rw [hpanel.rest, honly.2]
    · rw [hremaining]
      exact listPanel_getLast _ _ _ _
  · refine ⟨cancelPending n s, congrArg Host.Outcome.next (runCommand_answers h rfl rfl
      (fun ht => absurd ht Bool.false_ne_true) ((hrule _).trans (if_pos hstate)) ?_), dropped_result hstate⟩
    exact ((internal_modSt s n _ rfl).trans (internal_enter false .opened n _)).host
  · have hgranted := startGrant_result hd hses
    obtain ⟨r, u, k, hjob⟩ := hgranted.job
    obtain ⟨hpend, hdesc, htimer⟩ := hgranted.pending
    refine ⟨startGrant n s, congrArg Host.Outcome.next (runCommand_answers h rfl rfl
      (fun ht => absurd ht Bool.false_ne_true) ((hrule _).trans (if_pos hstate)) ?_), hgranted.others, hgranted.state,
      hpend, hdesc, htimer, ?_, hgranted.jobs.1, hgranted.jobs.2, ?_, hgranted.consulted⟩
    · exact (internal_startGrant n s).host
    · rw [hjob]
      rfl
    · rw [hjob, jobOf_eq]
      by_cases hset : d.runsAsSet = true <;> simp [hset]

/-! ## START records (R15, R17) -/

/-- A code of a mode is read as the mode. -/
theorem jobModeOf_code (m : JobMode) : jobModeOf m.code = some m := by cases m <;> rfl

/-- A code read as a mode is the mode's. -/
theorem jobModeOf_some {k : Nat} (h : k ≤ 2) : ∃ m : JobMode, jobModeOf k = some m ∧ m.code = k := by
  obtain rfl | rfl | rfl : k = 0 ∨ k = 1 ∨ k = 2 := by omega
  exacts [⟨.single, rfl, rfl⟩, ⟨.run, rfl, rfl⟩, ⟨.set, rfl, rfl⟩]

theorem jobModeOf_beyond {k : Nat} (h : 2 < k) : jobModeOf k = none := by
  obtain ⟨j, rfl⟩ : ∃ j, k = j + 3 := ⟨k - 3, by omega⟩
  rfl

/-- A descriptor in its ranges is valid (R15). -/
theorem descriptorOf_valid {mode originals copies : Nat} {duplex : Bool} (hm : mode ≤ 2) (ho : originals ≤ 999)
    (hlow : 1 ≤ copies) (hhigh : copies ≤ 9999) : ∃ m : JobMode, m.code = mode ∧
      descriptorOf mode originals copies duplex =
        some { mode := m, originals := originals, copies := copies, duplex := duplex } := by
  obtain ⟨m, hmode, hcode⟩ := jobModeOf_some hm
  refine ⟨m, hcode, ?_⟩
  rw [descriptorOf, hmode]
  exact if_pos ⟨hlow, hhigh, ho⟩

/-- A descriptor out of its ranges is invalid (R15). -/
theorem descriptorOf_invalid {mode originals copies : Nat} {duplex : Bool}
    (h : 2 < mode ∨ 999 < originals ∨ copies = 0 ∨ 9999 < copies) :
    descriptorOf mode originals copies duplex = none := by
  rw [descriptorOf]
  split
  · rfl
  next m hm =>
    rw [if_neg]
    rintro ⟨hlow, hhigh, ho⟩
    obtain h | h | h | h := h
    · rw [jobModeOf_beyond h] at hm
      exact nomatch hm
    all_goals omega

/-- The state that a START record's rule works on. -/
theorem exec_start {s : State} {n : StationId} (hp : (s.st n).passage = none) (hd : (s.st n).state ≠ .down)
    (hs : (s.st n).state ≠ .suspended) (mode : Byte) (originals copies : BitVec 16) (duplex : Byte) :
    exec (.start n mode originals copies duplex) s =
      .next (takeStart mode.toNat originals.toNat copies.toNat (decide (duplex ≠ 0#8)) n
        (s.modSt n (Station.heard s.clock))) := by
  refine congrArg Host.Outcome.next ?_
  show takeStart _ _ _ _ n (activity n (arrive n s)) = _
  rw [activity_arrive hp hd hs]

/-- A hearing stands for the state before it. -/
theorem sizedFrom_heard (n : StationId) (s : State) : SizedFrom n s (s.modSt n (Station.heard s.clock)) :=
  sizedFrom_at (atStation_modSt s n _) (by rw [st_modSt_self]; rfl) (by rw [st_modSt_self]; rfl)
    fun k => by rw [st_modSt_self]; exact .rfl

/-- A START that waits for the host (R17). -/
theorem start_attended {s : State} {n : StationId} {d : Descriptor} (h : (s.st n).state = .opened)
    (hmode : (s.st n).settings.startMode = .attended) :
    OnlyAt n s (pendStart d n s) ∧ ((pendStart d n s).st n).state = .confirming ∧
      ((pendStart d n s).st n).startPending = true ∧ ((pendStart d n s).st n).descriptor = some d ∧
      ((pendStart d n s).st n).confirmTimer = some (s.st n).settings.confirmTime ∧
      ((pendStart d n s).st n).idleTimer = none ∧ Raised .confirmWaiting n (pendStart d n s) := by
  have heq : pendStart d n s = enter false .confirming n (s.modSt n (fun x => { x with
      startPending := true, descriptor := some d, confirmTimer := some x.settings.confirmTime })) := by
    rw [pendStart, hmode]
    dsimp only
    rw [modSt_modSt]
  have hne : (s.st n).state ≠ .confirming := by
    rw [h]
    exact StationState.noConfusion
  have hst : (pendStart d n s).st n = ({ s.st n with
      startPending := true, descriptor := some d, confirmTimer := some (s.st n).settings.confirmTime } :
        Station).entered .confirming := by
    rw [heq, st_enter, st_modSt_self]
  refine ⟨?_, by rw [hst, entered_state], by rw [hst, entered_startPending], by rw [hst, entered_descriptor],
    by rw [hst, entered_confirmTimer], ?_, ?_⟩
  · rw [heq]
    exact ((atStation_modSt s n _).trans (atStation_enter false .confirming n _)).onlyAt
  · rw [hst]
    exact entered_idleTimer (x := { s.st n with
      startPending := true, descriptor := some d, confirmTimer := some (s.st n).settings.confirmTime }) hne
  · rw [heq]
    exact enter_raised (by rw [st_modSt_self]; exact hne) rfl

/-- A START that is granted at once (R16). -/
theorem start_panel {s : State} {n : StationId} {d : Descriptor} {ses : Session}
    (hmode : (s.st n).settings.startMode = .panel) (hses : (s.st n).session = some ses) :
    StartGranted d ses n s (pendStart d n s) := by
  generalize hu : s.modSt n (fun x => { x with startPending := true, descriptor := some d }) = u
  have hust : u.st n = { s.st n with startPending := true, descriptor := some d } := by rw [← hu, st_modSt_self]
  have heq : pendStart d n s = startGrant n u := by
    rw [pendStart, hmode, ← hu]
  have hgranted := startGrant_result (s := u) (n := n) (d := d) (ses := ses) (by rw [hust]) (by rw [hust]; exact hses)
  rw [heq]
  refine ⟨fun m hm => (hgranted.others m hm).trans (by rw [← hu, st_modSt_ne _ _ hm]), hgranted.state, hgranted.pending,
    hgranted.job, ?_, fun hc => ?_⟩
  · have := hgranted.jobs
    rw [hust] at this
    exact this
  · obtain ⟨g, hg⟩ := hgranted.consulted hc
    rw [hust] at hg
    refine ⟨g, hg.from ?_ rfl rfl rfl⟩
    rw [← hu]
    exact sizedFrom_at (atStation_modSt s n _) (by rw [st_modSt_self]; rfl) (by rw [st_modSt_self])
      fun k => by rw [st_modSt_self]

/-- What a protocol fault of a record with activity leaves (R31). -/
theorem heard_faulted {s : State} {n : StationId} :
    OnlyAt n s (protocolFault n (s.modSt n (Station.heard s.clock))) ∧
      (protocolFault n (s.modSt n (Station.heard s.clock))).st n = faulted ((s.st n).heard s.clock) ∧
      Raised .protocol n (protocolFault n (s.modSt n (Station.heard s.clock))) :=
  ⟨((atStation_modSt s n _).trans (atStation_protocolFault n _)).onlyAt, by rw [st_protocolFault, st_modSt_self],
    protocolFault_raised n _⟩

/-- The states in which a START is a fault whatever it carries (R15). -/
theorem takeStart_faults {s : State} {n : StationId} {mode originals copies : Nat} {duplex : Bool}
    (h : ((s.st n).state = .opened ∧ (2 < mode ∨ 999 < originals ∨ copies = 0 ∨ 9999 < copies)) ∨
      (s.st n).state = .confirming ∨ (s.st n).state = .running ∨ (s.st n).state = .starved ∨
      (s.st n).state = .closing ∨ (s.st n).state = .service ∨ (s.st n).state = .jammedFree ∨
      (s.st n).state = .jammedSession) : takeStart mode originals copies duplex n s = protocolFault n s := by
  rw [takeStart]
  obtain ⟨h, hbad⟩ | h | h | h | h | h | h | h := h <;> rw [h]
  rw [descriptorOf_invalid hbad]

/-- Settles O45: a valid descriptor starts or waits, and every other START of the listed states is a fault. -/
theorem startRecordResult : Obligations.StartRecordResult := by
  unfold Obligations.StartRecordResult
  intro s n mode originals copies duplex hp
  have hheard : (s.modSt n (Station.heard s.clock)).st n = (s.st n).heard s.clock := st_modSt_self _ _ _
  refine ⟨fun hstate hmode hm ho hlow hhigh => ?_, fun hstate hmode hses hm ho hlow hhigh => ?_, fun hfault => ?_⟩
  · obtain ⟨m, hcode, hdesc⟩ := descriptorOf_valid (duplex := decide (duplex ≠ 0#8)) hm ho hlow hhigh
    obtain ⟨honly, hconf, hpend, hd, htimer, hidle, hraised⟩ :=
      start_attended (s := s.modSt n (Station.heard s.clock)) (n := n)
        (d := { mode := m, originals := originals.toNat, copies := copies.toNat, duplex := decide (duplex ≠ 0#8) })
        (by rw [hheard]; exact hstate) (by rw [hheard]; exact hmode)
    refine ⟨_, exec_start hp (by rw [hstate]; simp) (by rw [hstate]; simp) mode originals copies duplex, ?_⟩
    have htake : takeStart mode.toNat originals.toNat copies.toNat (decide (duplex ≠ 0#8)) n
        (s.modSt n (Station.heard s.clock)) = pendStart
          { mode := m, originals := originals.toNat, copies := copies.toNat, duplex := decide (duplex ≠ 0#8) } n
          (s.modSt n (Station.heard s.clock)) := by
      have : ((s.modSt n (Station.heard s.clock)).st n).state = .opened := by rw [hheard]; exact hstate
      rw [takeStart, this]
      dsimp only
      rw [hdesc]
    rw [htake]
    refine ⟨⟨fun k hk => (honly.1 k hk).trans (st_modSt_ne s _ hk), honly.2⟩, hconf, hpend, ?_, ?_, hidle, hraised.1,
      hraised.2⟩
    · rw [hd, ← hcode]
      rfl
    · rw [htimer, hheard]
      rfl
  · obtain ⟨ses, hses⟩ := Option.isSome_iff_exists.mp hses
    obtain ⟨m, hcode, hdesc⟩ := descriptorOf_valid (duplex := decide (duplex ≠ 0#8)) hm ho hlow hhigh
    have hgranted := start_panel (s := s.modSt n (Station.heard s.clock)) (n := n)
      (d := { mode := m, originals := originals.toNat, copies := copies.toNat, duplex := decide (duplex ≠ 0#8) })
      (ses := { ses with lastActivity := s.clock }) (by rw [hheard]; exact hmode)
      (by rw [hheard]; simp [Station.heard, hses])
    have htake : takeStart mode.toNat originals.toNat copies.toNat (decide (duplex ≠ 0#8)) n
        (s.modSt n (Station.heard s.clock)) = pendStart
          { mode := m, originals := originals.toNat, copies := copies.toNat, duplex := decide (duplex ≠ 0#8) } n
          (s.modSt n (Station.heard s.clock)) := by
      have : ((s.modSt n (Station.heard s.clock)).st n).state = .opened := by rw [hheard]; exact hstate
      rw [takeStart, this]
      dsimp only
      rw [hdesc]
    refine ⟨_, exec_start hp (by rw [hstate]; simp) (by rw [hstate]; simp) mode originals copies duplex, ?_⟩
    rw [htake]
    obtain ⟨r, u, k, hjob⟩ := hgranted.job
    refine ⟨fun j hj => (hgranted.others j hj).trans (st_modSt_ne s _ hj), hgranted.state, hgranted.pending.1,
      hgranted.pending.2.1, ?_, ?_, fun d ses' hdm hdo hdc hdd hses' => ?_⟩
    · rw [hjob, jobOf_eq]
      rfl
    · rw [hgranted.jobs.2, hheard]
      rfl
    · have hd : d = { mode := m, originals := originals.toNat, copies := copies.toNat, duplex := decide (duplex ≠ 0#8) } := by
        have hmode' : d.mode = m := by
          have := (jobModeOf_code d.mode).symm.trans (hdm.trans hcode.symm ▸ jobModeOf_code m)
          exact Option.some.inj this
        cases d
        simp_all
      obtain rfl : ses = ses' := Option.some.inj (hses.symm.trans hses')
      rw [← hd] at hjob hgranted ⊢
      refine ⟨?_, ?_⟩
      · rw [hjob, jobOf_eq]
        by_cases hset : d.runsAsSet = true <;> simp [hset]
      · obtain ⟨g, hg⟩ := hgranted.consulted (by rw [hdc]; exact hlow)
        rw [hheard] at hg
        exact ⟨g, hg.from (sizedFrom_heard n s) rfl rfl rfl⟩
  · obtain ⟨honly, hst, hraised⟩ := heard_faulted (s := s) (n := n)
    have hup : (s.st n).state ≠ .down ∧ (s.st n).state ≠ .suspended := by
      obtain ⟨h, -⟩ | h | h | h | h | h | h | h := hfault <;> rw [h] <;> exact ⟨StationState.noConfusion, StationState.noConfusion⟩
    refine ⟨_, exec_start hp hup.1 hup.2 mode originals copies duplex, ?_⟩
    rw [takeStart_faults (by rw [hheard]; exact hfault)]
    refine ⟨honly, ?_, ?_, ?_, ?_, ?_, hraised.1⟩
    all_goals rw [hst]
    · rfl
    · rfl
    · rfl
    · show ((s.st n).serviceDue || ((s.st n).session.map _).isSome) = _
      rw [Option.isSome_map]
    · rfl

end Sys2Proof.Machine
end

section
/-! PROOF. AUTH-RESULT (R133 to R139): a result for a first request and for a top-up, and the requests that no result can
reach. -/

namespace Sys2Proof.Machine

/-! ## The payload and the holder -/

/-- A positive amount is written alike signed and unsigned (R204). -/
theorem beSigned4_natCast {amount : Nat} (h : amount < 4294967296) : beSigned4 (amount : Int) = be4 amount := by
  have : ((amount : Int) % 4294967296).toNat = amount := by omega
  rw [beSigned4, this]

/-- The tag and the amount of a result read back (R211). -/
theorem fields_authResult {tag : Nat} (ht : tag < 65536) {amount : Int} (hlow : -2147483648 ≤ amount)
    (hhigh : amount < 2147483648) : fieldAt (be2 tag ++ beSigned4 amount) 0 2 = tag ∧
      signedAt (be2 tag ++ beSigned4 amount) 2 = amount :=
  ⟨fieldAt_be2 ht _, by simpa using signedAt_beSigned4 (length_be2 tag) hlow hhigh []⟩

/-- The holder of a tag is the one station whose outstanding request carries it (R129, R133). -/
theorem holderOf_eq {tag : Nat} {s : State} {n : StationId} (h : (s.st n).slot.request.map Request.tag = some tag)
    (hone : ∀ m, (s.st m).slot.request.map Request.tag = some tag → m = n) : holderOf tag s = some n := by
  have hsome : (holderOf tag s).isSome = true :=
    List.find?_isSome.mpr ⟨n, List.mem_finRange n, decide_eq_true h⟩
  obtain ⟨m, hm⟩ := Option.isSome_iff_exists.mp hsome
  have htag := List.find?_some (p := fun m => decide ((s.st m).slot.request.map Request.tag = some tag)) hm
  rw [hm, hone m (of_decide_eq_true htag)]

theorem holderOf_none {tag : Nat} {s : State} (h : ∀ m, (s.st m).slot.request.map Request.tag ≠ some tag) :
    holderOf tag s = none :=
  List.find?_eq_none.mpr fun m _ => by simpa using h m

/-- A result that a holder takes is answered with its outcome (R133). -/
theorem ruleAuthResult_taken {s : State} {tag amount : Nat} {n : StationId} {r : AuthOutcome × Nat × State} (hlow : 1 ≤ tag)
    (hhigh : tag ≤ 65535) (ha : amount ≤ 99999999) (hn : holderOf tag s = some n) (hr : takeResult amount n s = some r) :
    ruleAuthResult (be2 tag ++ be4 amount) s = (.ok, be1 r.1.code ++ be4 r.2.1, r.2.2) := by
  obtain ⟨htag, hamount⟩ := fields_authResult (tag := tag) (by omega) (amount := amount) (by omega) (by omega)
  rw [beSigned4_natCast (by omega)] at htag hamount
  have hrange : ¬ (tag = 0 ∨ (amount : Int) < 0 ∨ 99999999 < (amount : Int)) := by omega
  have hnat : (amount : Int).toNat = amount := by omega
  rw [ruleAuthResult, htag, hamount, if_neg hrange, hn]
  dsimp only
  rw [hnat, hr]
  rfl

/-- The answer of AUTH-RESULT to a result that a holder takes. -/
theorem exec_authResult_taken {s : State} {tag : Byte} {rest : List Frame} {t amount : Nat} {n : StationId}
    {r : AuthOutcome × Nat × State} (h : Executing s ⟨0x1F#8, tag, be2 t ++ be4 amount⟩ rest) (hlow : 1 ≤ t)
    (hhigh : t ≤ 65535) (ha : amount ≤ 99999999) (hn : holderOf t s = some n) (hr : takeResult amount n s = some r) :
    exec .authResult s = .next (answered r.2.2 rest ⟨0x1F#8, tag, be2 t ++ be4 amount⟩ .ok
      (be1 r.1.code ++ be4 r.2.1)) :=
  congrArg Host.Outcome.next (runCommand_answers h rfl (by simp [sizeAllowed])
    (fun ht => absurd ht Bool.false_ne_true) (ruleAuthResult_taken hlow hhigh ha hn hr) (internal_takeResult hr).host)

/-! ## Requests that end -/

/-- A station that has left the fetch order is not on it. -/
theorem not_mem_leaveFetchOrder (n : StationId) (s : State) : n ∉ (leaveFetchOrder n s).fetchOrder := by
  simp [leaveFetchOrder]

theorem endRequest_st (slot : Slot) (n : StationId) (s : State) :
    (endRequest slot n s).st n = { s.st n with slot := slot } := by
  rw [endRequest, st_leaveFetchOrder, st_modSt_self]

theorem endRequest_others (slot : Slot) {n m : StationId} (s : State) (hm : m ≠ n) :
    (endRequest slot n s).st m = s.st m := st_modSt_ne s (fun x => { x with slot := slot }) hm

/-- A first request that is voided leaves a VOID record, and its slot is free (R167). -/
theorem voidFirst_result {cause : VoidCause} {n : StationId} {s : State} {card : CardId} {dc : Nat} {req : Request}
    (h : (s.st n).slot = .requested card dc req) (hroom : s.log.records.length < 256) :
    (voidFirst cause n s).st n = { s.st n with slot := .free } ∧
      (voidFirst cause n s).fetchOrder = s.fetchOrder.filter (fun m => decide (m ≠ n)) ∧
      (voidFirst cause n s).log.records = s.log.records ++ [{ number := s.log.counter, body := (.void
        { tag := req.tag, station := n, time := s.clock, clockSet := s.clockSet, cause := cause }) }] ∧
      (voidFirst cause n s).log.reservations = s.log.reservations - 1 ∧
      (voidFirst cause n s).accounts = s.accounts := by
  rw [voidFirst, h]
  dsimp only
  rw [offerReserved_joins _ (s := leaveFetchOrder n (s.modSt n (fun x => { x with slot := .free }))) hroom]
  obtain ⟨hrecords, -, hreservations⟩ := joinLog_log (.void
    { tag := req.tag, station := n, time := s.clock, clockSet := s.clockSet, cause := cause })
    (s.log.reservations - 1) (leaveFetchOrder n (s.modSt n (fun x => { x with slot := .free })))
  refine ⟨?_, ?_, hrecords, hreservations, ?_⟩
  · rw [joinLog_st, st_leaveFetchOrder, st_modSt_self]
  · rw [joinLog_frame]
    rfl
  · rw [joinLog_accounts]
    rfl

/-- Leaving AUTHORIZING changes its station and the notices. -/
theorem atStation_leaveAuthorizing (code : PanelCode) (n : StationId) (s : State) :
    AtStation n s (leaveAuthorizing code n s) := by
  unfold leaveAuthorizing
  split
  · exact (atStation_sendPanel n true 0 (some code) s).trans (atStation_enterIdle false n _)
  · exact .refl n s

/-- Leaving AUTHORIZING is a refusal PANEL and the entry to IDLE (R12). -/
theorem st_leaveAuthorizing (code : PanelCode) (n : StationId) (s : State) : (leaveAuthorizing code n s).st n =
    if (s.st n).state = .authorizing then
      ({ s.st n with sendList := listPanel true 0 (some code) (s.st n).sendList } : Station).idled
    else s.st n := by
  unfold leaveAuthorizing
  split
  · rw [st_enterIdle, refusalPanel, st_sendPanel]
  · rfl

/-- The slot stays as a first request's end has left it. -/
theorem leaveAuthorizing_slot (code : PanelCode) (n : StationId) (s : State) :
    ((leaveAuthorizing code n s).st n).slot = (s.st n).slot := by
  rw [st_leaveAuthorizing]
  split
  · rw [idled_slot]
  · rfl

/-! ## First requests (R134 to R136) -/

section
variable {s : State} {n : StationId} {card : CardId} {dc amount : Nat} {req : Request}

/-- A usable approval opens a BANK session (R134). -/
theorem openBank_result {tf : Tariff} (htariff : (s.st n).tariff.active = some tf) :
    let t := openBank card dc req.tag amount n s
    t.log = s.log ∧ (∀ m, m ≠ n → t.st m = s.st m) ∧ n ∉ t.fetchOrder ∧ (t.st n).state = .opened ∧
      (t.st n).slot = .active card dc ∧ ∃ ses, (t.st n).session = some ses ∧ ses.number = s.sessionCounter ∧
        ses.funding = .bank [req.tag] [] 0 ∧ ses.card = card ∧ ses.limit = some amount ∧
        ses.stamp = tf.header.stamp ∧ ses.discount = tf.header.discounts.toList.getD dc 0 ∧ ses.gross = 0 := by
  intro t
  have hat := atStation_openSession (.bank [req.tag] [] 0) card (some amount) ((s.st n).discountOf dc) n
    (endRequest (.active card dc) n s)
  have hst : t.st n = _ := st_openSession (.bank [req.tag] [] 0) card (some amount) ((s.st n).discountOf dc) n
    (endRequest (.active card dc) n s)
  rw [endRequest_st] at hst
  have hstamp : (s.st n).stamp = tf.header.stamp := by rw [Station.stamp, htariff]
  have hdiscount : (s.st n).discountOf dc = tf.header.discounts.toList.getD dc 0 := by
    rw [Station.discountOf, htariff]
    rfl
  refine ⟨hat.log, fun m hm => (hat.others m hm).trans ?_, ?_, by rw [hst, entered_state], ?_, _,
    by rw [hst, entered_session]; rfl, rfl, rfl, rfl, rfl, hstamp, hdiscount, rfl⟩
  · exact endRequest_others _ s hm
  · show n ∉ (openSession _ card _ _ n _).fetchOrder
    rw [hat.fetchOrder]
    exact not_mem_leaveFetchOrder n _
  · rw [hst, entered_slot]
    rfl

/-- An unusable approval leaves a VOID record (R135). -/
theorem refuseApproval_result (h : (s.st n).slot = .requested card dc req) (hroom : s.log.records.length < 256) :
    let t := refuseApproval n s
    (∀ m, m ≠ n → t.st m = s.st m) ∧ n ∉ t.fetchOrder ∧ (t.st n).slot = .free ∧
      t.log.records = s.log.records ++ [{ number := s.log.counter, body := (.void
        { tag := req.tag, station := n, time := s.clock, clockSet := s.clockSet, cause := .unusable }) }] ∧
      t.log.reservations = s.log.reservations - 1 ∧
      ((s.st n).state ≠ .authorizing → (t.st n).state = (s.st n).state) := by
  intro t
  obtain ⟨hst, hfetch, hrecords, hreservations, -⟩ := voidFirst_result (cause := .unusable) h hroom
  have hat := atStation_leaveAuthorizing .noFunds n (voidFirst .unusable n s)
  have hinternal := internal_voidFirst .unusable n s
  refine ⟨fun m hm => (hat.others m hm).trans (hinternal.others m hm), ?_, ?_, ?_, ?_, fun hne => ?_⟩
  · show n ∉ (leaveAuthorizing _ n _).fetchOrder
    rw [hat.fetchOrder, hfetch]
    simp
  · exact (leaveAuthorizing_slot _ n _).trans (by rw [hst])
  · exact (congrArg Log.records hat.log).trans hrecords
  · exact (congrArg Log.reservations hat.log).trans hreservations
  · show ((leaveAuthorizing _ n _).st n).state = _
    rw [st_leaveAuthorizing, hst, if_neg hne]

/-- A decline returns the reservation (R136). -/
theorem declineFirst_result : let t := declineFirst n s
    (∀ m, m ≠ n → t.st m = s.st m) ∧ n ∉ t.fetchOrder ∧ (t.st n).slot = .free ∧
      t.log.records = s.log.records ∧ t.log.reservations = s.log.reservations - 1 ∧
      (t.st n).state = (if (s.st n).state = .authorizing then ({ s.st n with slot := .free } : Station).idleEntry
        else (s.st n).state) := by
  intro t
  have hat := atStation_leaveAuthorizing .refused n (returnReservation (endRequest .free n s))
  obtain ⟨hreservations, hrecords, -⟩ := returnReservation_log (endRequest .free n s)
  have hst : ∀ m, (returnReservation (endRequest .free n s)).st m = (endRequest .free n s).st m :=
    st_congr (returnReservation_stations _)
  have hfetch : (returnReservation (endRequest .free n s)).fetchOrder = (endRequest .free n s).fetchOrder := by
    rw [returnReservation, logLowCheck_frame]
  refine ⟨fun m hm => (hat.others m hm).trans ?_, ?_, ?_, ?_, ?_, ?_⟩
  · rw [hst]
    exact endRequest_others _ s hm
  · show n ∉ (leaveAuthorizing _ n _).fetchOrder
    rw [hat.fetchOrder, hfetch]
    exact not_mem_leaveFetchOrder n _
  · exact (leaveAuthorizing_slot _ n _).trans (by rw [hst, endRequest_st])
  · exact (congrArg Log.records hat.log).trans hrecords
  · exact (congrArg Log.reservations hat.log).trans hreservations
  · show ((leaveAuthorizing _ n _).st n).state = _
    rw [st_leaveAuthorizing, hst, endRequest_st]
    split
    · rw [idled_state]
      rfl
    · rfl

end

/-- Settles O38: a usable approval opens, an unusable one leaves a VOID, and a decline gives the reservation back. -/
theorem authResultOfFirstRequest : Obligations.AuthResultOfFirstRequest := by
  unfold Obligations.AuthResultOfFirstRequest
  intro s tag rest n card dc amount req tf p h hslot hlow hhigh ha hone htariff hroom
  have hholder : holderOf req.tag s = some n := holderOf_eq (by rw [hslot]; rfl) hone
  have hexec {r : AuthOutcome × Nat × State} (hr : takeResult amount n s = some r) :=
    exec_authResult_taken h hlow hhigh ha hholder hr
  refine ⟨fun hpos hstate hfloor => ?_, fun hpos hbad => ?_, fun hzero => ?_⟩
  · have htake : takeResult amount n s = some (.opened, min amount req.amount,
        openBank card dc req.tag (min amount req.amount) n s) := by
      rw [takeResult, hslot]
      dsimp only
      rw [if_neg (by omega), approveFirst, floor_eq htariff]
      exact congrArg some (if_pos ⟨hfloor, hstate⟩)
    exact ⟨_, hexec htake, openBank_result htariff⟩
  · have htake : takeResult amount n s = some (.unusable, 0, refuseApproval n s) := by
      rw [takeResult, hslot]
      dsimp only
      rw [if_neg (by omega), approveFirst, floor_eq htariff]
      exact congrArg some (if_neg fun e => hbad.elim (fun hne => hne e.2) (fun hlt => by omega))
    exact ⟨_, hexec htake, refuseApproval_result hslot hroom⟩
  · have htake : takeResult amount n s = some (.declined, 0, declineFirst n s) := by
      rw [takeResult, hslot]
      exact if_pos hzero
    exact ⟨_, hexec htake, declineFirst_result⟩

/-! ## Top-ups (R138, R139) -/

/-- A sizing of a BANK session changes of its funding the count of top-ups alone (R52). -/
theorem Sized.bankFunding {whole : Bool} {request : Nat} {n : StationId} {ses : Session} {released sets g k : Nat}
    {s t : State} {a v : List Nat} (h : Sized whole request n ses released sets s t g) (hf : ses.funding = .bank a v k) :
    ∃ k', (t.st n).session.map Session.funding = some (.bank a v k') := by
  by_cases hun : request = 0 ∨ 3 ≤ k ∨ (∀ card dc, (s.st n).slot ≠ .active card dc) ∨
      fits request (ses.gross + released * (s.st n).ceiling) (s.st n).ceiling ses.limit
  · exact ⟨k, (h.unasked a v k hf hun).1.trans (by rw [hf])⟩
  · have hrequest : 0 < request := Nat.pos_of_ne_zero fun e => hun (.inl e)
    have hk : k < 3 := Nat.lt_of_not_le fun e => hun (.inr (.inl e))
    have hfits : ¬ fits request (ses.gross + released * (s.st n).ceiling) (s.st n).ceiling ses.limit :=
      fun e => hun (.inr (.inr (.inr e)))
    obtain ⟨card, dc, hslot⟩ : ∃ card dc, (s.st n).slot = .active card dc := by
      by_contra hno
      exact hun (.inr (.inr (.inl fun card dc e => hno ⟨card, dc, e⟩)))
    exact ⟨k + 1, (h.asked a v k card dc hf hslot hrequest hk hfits).1⟩

section
variable {s : State} {n : StationId} {card : CardId} {dc amount limit k : Nat} {tag : Nat} {ses : Session}
  {approved voided : List Nat}

/-- The session with an approved top-up (R138). -/
def Session.toppedUp (tag amount limit : Nat) (approved voided : List Nat) (k : Nat) (ses : Session) : Session :=
  { ses with limit := some (limit + amount), funding := .bank (approved ++ [tag]) voided k }

/-- The state with an approved top-up, before its PANEL. -/
def toppedUp (card : CardId) (dc : Nat) (ses : Session) (n : StationId) (s : State) : State :=
  { s.modSt n (fun x => { x with slot := .active card dc, session := some ses }) with
    fetchOrder := s.fetchOrder.filter (fun m => decide (m ≠ n)) }

theorem toppedUp_st : (toppedUp card dc ses n s).st n =
    { s.st n with slot := .active card dc, session := some ses } :=
  st_modSt_self s n (fun x => { x with slot := .active card dc, session := some ses })

theorem toppedUp_others {m : StationId} (hm : m ≠ n) : (toppedUp card dc ses n s).st m = s.st m :=
  st_modSt_ne s (fun x => { x with slot := .active card dc, session := some ses }) hm

theorem approveTopup_eq (h : (s.st n).session = some ses) (hf : ses.funding = .bank approved voided k)
    (hl : ses.limit = some limit) : approveTopup card dc tag amount n s =
      retry n (statePanel n (toppedUp card dc (ses.toppedUp tag amount limit approved voided k) n s)) := by
  rw [approveTopup]
  refine congrArg (fun u => retry n (statePanel n u)) ?_
  have hmod : modSession n
      (fun ses => { ses with limit := ses.limit.map (· + amount), funding := ses.funding.approveTag tag })
        (endRequest (.active card dc) n s) =
      { (s.modSt n (fun x => { x with slot := .active card dc })).modSt n (fun x => { x with
          session := x.session.map
            (fun ses => { ses with limit := ses.limit.map (· + amount), funding := ses.funding.approveTag tag }) }) with
        fetchOrder := s.fetchOrder.filter (fun m => decide (m ≠ n)) } := rfl
  rw [hmod, modSt_modSt, toppedUp]
  refine congrArg (fun u : State => ({ u with fetchOrder := s.fetchOrder.filter (fun m => decide (m ≠ n)) } : State))
    (modSt_congr ?_)
  rw [h]
  simp [Session.toppedUp, hl, hf, Funding.approveTag]

/-- The PANEL of a top-up stands for the state before it. -/
theorem sizedFrom_statePanel (n : StationId) (s : State) : SizedFrom n s (statePanel n s) :=
  sizedFrom_at (atStation_statePanel n s) (by rw [st_statePanel]; rfl) (by rw [st_statePanel])
    fun j => by rw [st_statePanel]; exact grant_mem_panelList j _

/-- A top-up that is approved at a station that neither runs nor starves (R138). -/
theorem toppedUp_result {new : Session} (hrun : (s.st n).state ≠ .running) (hstarve : (s.st n).state ≠ .starved) :
    let t := retry n (statePanel n (toppedUp card dc new n s))
    (∀ m, m ≠ n → t.st m = s.st m) ∧ t.log = s.log ∧ (t.st n).slot = .active card dc ∧ n ∉ t.fetchOrder ∧
      (t.st n).state = (s.st n).state ∧ (t.st n).session = some new := by
  intro t
  have hat := atStation_statePanel n (toppedUp card dc new n s)
  have ht : t = statePanel n (toppedUp card dc new n s) := by
    refine if_neg ?_
    rw [st_statePanel, toppedUp_st]
    exact fun e => e.elim hrun hstarve
  have hst : t.st n = { (toppedUp card dc new n s).st n with
      sendList := ((toppedUp card dc new n s).st n).panelList } := by rw [ht, st_statePanel]
  rw [toppedUp_st] at hst
  refine ⟨fun m hm => ?_, by rw [ht, hat.log]; rfl, by rw [hst], ?_, by rw [hst], by rw [hst]⟩
  · rw [ht, hat.others m hm, toppedUp_others hm]
  · rw [ht, hat.fetchOrder]
    simp [toppedUp]

/-- A top-up that is approved in RUNNING or STARVED retries the grant (R54, R138). -/
theorem toppedUp_retries {new : Session} (hstate : (s.st n).state = .running ∨ (s.st n).state = .starved)
    (hf : new.funding = .bank approved voided k) :
    let t := retry n (statePanel n (toppedUp card dc new n s))
    (∀ m, m ≠ n → t.st m = s.st m) ∧ t.log = s.log ∧ ((t.st n).state = .running ∨ (t.st n).state = .starved) ∧
      (t.st n).session.map Session.limit = some new.limit ∧
      (t.st n).session.map Session.gross = some new.gross ∧
      (∃ k', (t.st n).session.map Session.funding = some (.bank approved voided k')) ∧
      ∀ j, (s.st n).job = some j →
        ∃ g, Consulted (s.st n).state (decide (j.mode = .set)) (j.laterRequest (s.st n).settings.window j.released) n
          new j.released j.setsRemaining (toppedUp card dc new n s) t g := by
  intro t
  generalize hv : statePanel n (toppedUp card dc new n s) = v
  have hat : AtStation n (toppedUp card dc new n s) v := by rw [← hv]; exact atStation_statePanel n _
  have hst : v.st n = { s.st n with slot := .active card dc, session := some new, sendList := (v.st n).sendList } := by
    rw [← hv, st_statePanel, toppedUp_st]
  have hvstate : (v.st n).state = .running ∨ (v.st n).state = .starved := by rw [hst]; exact hstate
  have ht : t = consult false n v := by
    show retry n _ = _
    rw [hv]
    exact if_pos hvstate
  have hsession : (v.st n).session = some new := by rw [hst]
  have hkeeps := consult_keeps hvstate false
  have hlog : v.log = s.log := hat.log.trans rfl
  rw [ht]
  refine ⟨fun m hm => ?_, hkeeps.log.trans hlog, hkeeps.state, ?_, by rw [hkeeps.gross, hsession]; rfl, ?_, fun j hj => ?_⟩
  · rw [(internal_consult false n v).others m hm, hat.others m hm, toppedUp_others hm]
  · cases hj : (v.st n).job with
    | none => rw [consult, hj]; dsimp only; rw [hsession]; rfl
    | some j =>
      obtain ⟨-, g, hconsulted⟩ := consult_result hsession hj false hvstate
      exact hconsulted.sized.bank approved voided k hf
  · cases hj : (v.st n).job with
    | none => rw [consult, hj]; dsimp only; rw [hsession]; exact ⟨k, congrArg some hf⟩
    | some j =>
      obtain ⟨-, g, hconsulted⟩ := consult_result hsession hj false hvstate
      exact hconsulted.sized.bankFunding hf
  · have hvj : (v.st n).job = some j := by rw [hst]; exact hj
    have hwindow : (v.st n).settings = (s.st n).settings := by rw [hst]
    have hsame : (v.st n).state = (s.st n).state := by rw [hst]
    obtain ⟨-, g, hconsulted⟩ := consult_result hsession hvj false hvstate
    rw [request_eq_laterRequest, hwindow, hsame] at hconsulted
    refine ⟨g, hconsulted.from ?_ rfl rfl rfl⟩
    rw [← hv]
    exact sizedFrom_statePanel n _

end

/-- Settles O39: an approval raises the limit and retries, a decline ends the request, and no result reaches a tag that is
not outstanding. -/
theorem authResultOfTopup : Obligations.AuthResultOfTopup := by
  unfold Obligations.AuthResultOfTopup
  refine ⟨?_, fun s tag rest t amount hlow hhigh ha h hnone => ?_, fun s tag rest t amount ht hlow hhigh h hbad => ?_⟩
  · intro s tag rest n card dc amount limit k req ses approved voided p h hslot hlow hhigh ha hone hses hf hl
    have hholder : holderOf req.tag s = some n := holderOf_eq (by rw [hslot]; rfl) hone
    have hexec {r : AuthOutcome × Nat × State} (hr : takeResult amount n s = some r) :=
      exec_authResult_taken h hlow hhigh ha hholder hr
    have htake (hpos : 0 < amount) : takeResult amount n s = some (.toppedUp, min amount req.amount,
        approveTopup card dc req.tag (min amount req.amount) n s) := by
      rw [takeResult, hslot]
      exact if_neg (by omega)
    have heq := approveTopup_eq (card := card) (dc := dc) (tag := req.tag) (amount := min amount req.amount) hses hf hl
    refine ⟨fun hpos hrun hstarve => ?_, fun hpos hstate => ?_, fun hzero => ?_⟩
    · refine ⟨_, hexec (htake hpos), ?_⟩
      rw [heq]
      exact toppedUp_result hrun hstarve
    · refine ⟨_, hexec (htake hpos), ?_⟩
      rw [heq]
      exact toppedUp_retries hstate rfl
    · refine ⟨endRequest (.active card dc) n s, hexec (r := (.topupDeclined, 0, endRequest (.active card dc) n s)) ?_,
        fun m hm => endRequest_others _ s hm, rfl, not_mem_leaveFetchOrder n _, endRequest_st _ n s⟩
      rw [takeResult, hslot]
      exact if_pos hzero
  · obtain ⟨htag, hamount⟩ := fields_authResult (tag := t) (by omega) (amount := amount) (by omega) (by omega)
    rw [beSigned4_natCast (by omega)] at htag hamount
    refine congrArg Host.Outcome.next (runCommand_answers h rfl (by simp [sizeAllowed])
      (fun ht => absurd ht Bool.false_ne_true) ?_ rfl)
    show ruleAuthResult _ s = _
    rw [ruleAuthResult, htag, hamount, if_neg (by omega), holderOf_none hnone]
    rfl
  · obtain ⟨htag, hamount⟩ := fields_authResult ht hlow hhigh
    refine congrArg Host.Outcome.next (runCommand_answers h rfl (by simp [sizeAllowed])
      (fun ht => absurd ht Bool.false_ne_true) ?_ rfl)
    show ruleAuthResult _ s = _
    rw [ruleAuthResult, htag, hamount, if_pos hbad]
    rfl

end Sys2Proof.Machine
end

section
/-! PROOF. Settlements (R28, R114, R166): what a settlement finds (`Settling`), from the ways to one, and what it leaves
(`Settled`). -/

namespace Sys2Proof.Machine

/-! ## Top-ups taken back (R140) -/

/-- A funding with tags joined to its voided tags. -/
def Funding.withVoided (tags : List Nat) : Funding → Funding
  | .bank a v k => .bank a (v ++ tags) k
  | .account i => .account i
  | .free => .free

theorem withVoided_nil (f : Funding) : f.withVoided [] = f := by
  cases f <;> simp [Funding.withVoided]

theorem withVoided_kind (tags : List Nat) (f : Funding) : (f.withVoided tags).kind = f.kind := by
  cases f <;> rfl

/-- A take-back changes its station and the fetch order. -/
theorem voidTopup_frame (n : StationId) (s : State) : voidTopup n s =
    { s with stations := (voidTopup n s).stations, fetchOrder := (voidTopup n s).fetchOrder } := by
  unfold voidTopup
  split <;> rfl

/-- The station of a top-up taken back is off the fetch order. -/
theorem voidTopup_fetchOrder {n : StationId} {s : State} {card : CardId} {dc : Nat} {req : Request}
    (h : (s.st n).slot = .topup card dc req) : n ∉ (voidTopup n s).fetchOrder := by
  rw [voidTopup, h]
  exact not_mem_leaveFetchOrder n _

/-- The tags of a slot whose top-up is taken back. -/
def Slot.topupTags : Slot → List Nat
  | .topup _ _ req => [req.tag]
  | .free => []
  | .requested _ _ _ => []
  | .active _ _ => []

theorem openTopup_eq {x : Station} (h : x.state ≠ .closing) : x.openTopup = x.slot.topupTags := by
  rw [Station.openTopup, if_neg h]
  cases x.slot <;> rfl

/-- A slot with tags to take back is in TOPUP. -/
theorem topupTags_ne_nil {slot : Slot} (h : slot.topupTags ≠ []) : ∃ card dc req, slot = .topup card dc req := by
  cases slot with
  | topup card dc req => exact ⟨card, dc, req, rfl⟩
  | _ => exact absurd rfl h

/-- The session of a station whose top-up has been taken back. -/
theorem topupVoided_session (x : Station) : x.topupVoided.session =
    x.session.map (fun ses => { ses with funding := ses.funding.withVoided x.slot.topupTags }) := by
  unfold Station.topupVoided
  cases hslot : x.slot with
  | topup card dc req =>
    cases x.session with
    | none => rfl
    | some ses => cases hf : ses.funding <;> simp [Session.voided, Funding.voidTag, Funding.withVoided, hf, Slot.topupTags]
  | _ =>
    cases x.session with
    | none => rfl
    | some ses => simp [Slot.topupTags, withVoided_nil]

/-- The slot of a station whose top-up has been taken back: it is requested as before. -/
theorem topupVoided_slot (x : Station) : x.topupVoided.slot =
    match x.slot with
    | .topup card dc _ => .active card dc
    | .free => .free
    | .requested card dc req => .requested card dc req
    | .active card dc => .active card dc := by
  unfold Station.topupVoided
  cases h : x.slot <;> simp [h]

theorem topupVoided_isRequested (x : Station) : x.topupVoided.slot.isRequested = x.slot.isRequested := by
  rw [topupVoided_slot]
  cases x.slot <;> rfl

/-! ## What a settlement finds -/

/-- Two sessions were opened alike and have counted alike, but for what credit and a settlement work on. -/
structure SameOpening (a b : Session) : Prop where
  number : a.number = b.number
  card : a.card = b.card
  opened : a.openTime = b.openTime ∧ a.clockSet = b.clockSet
  figures : a.limit = b.limit ∧ a.stamp = b.stamp ∧ a.discount = b.discount
  counts : a.jobs = b.jobs ∧ a.overrunSides = b.overrunSides

theorem SameOpening.refl (a : Session) : SameOpening a a := ⟨rfl, rfl, ⟨rfl, rfl⟩, ⟨rfl, rfl, rfl⟩, rfl, rfl⟩

theorem SameOpening.trans {a b c : Session} (h : SameOpening a b) (k : SameOpening b c) : SameOpening a c :=
  ⟨h.number.trans k.number, h.card.trans k.card, ⟨h.opened.1.trans k.opened.1, h.opened.2.trans k.opened.2⟩,
    ⟨h.figures.1.trans k.figures.1, h.figures.2.1.trans k.figures.2.1, h.figures.2.2.trans k.figures.2.2⟩,
    h.counts.1.trans k.counts.1, h.counts.2.trans k.counts.2⟩

/-- The state `v` stands before the settlement of station `n`'s session, which is now `cur`: on the way from `s`, where it
was `ses`, nothing has been posted, no record written, and at most sides returned to an account. -/
structure Settling (reason : EndReason) (n : StationId) (ses cur : Session) (x : Station) (s v : State) : Prop where
  session : (v.st n).session = some cur
  ends : cur.endReason = some reason
  opening : SameOpening cur ses
  funding : cur.funding = ses.funding.withVoided (s.st n).openTopup
  clock : v.clock = s.clock ∧ v.clockSet = s.clockSet
  tariff : (v.st n).tariff.active = (s.st n).tariff.active
  log : v.log = s.log
  tables : AccountTable.wf s.accounts → AccountTable.wf v.accounts
  accounts : AccountTable.wf s.accounts → ∀ i, ∃ sides, v.account i = { s.account i with sides := sides }
  unfunded : AccountTable.wf s.accounts → ∀ i, ses.funding ≠ .account i → v.account i = s.account i
  path : (v.st n).inPath = []
  hasSession : (v.st n).state.hasSession = true
  fetched : (s.st n).openTopup ≠ [] → n ∉ v.fetchOrder
  state : ∀ kind, (v.st n).settledState kind reason = x.settledState kind reason

/-- The funding of a session that settles is an account's exactly where it was. -/
theorem Settling.funding_account {reason : EndReason} {n : StationId} {ses cur : Session} {x : Station} {s v : State}
    (h : Settling reason n ses cur x s v) (i : AccountId) : cur.funding = .account i ↔ ses.funding = .account i := by
  rw [h.funding]
  cases ses.funding <;> simp [Funding.withVoided]

/-- What a settlement finds is counted from an earlier state, where the station's session was opened alike. -/
theorem Settling.from {reason : EndReason} {n : StationId} {ses ses₀ cur : Session} {x x₀ : Station} {s₀ s v : State}
    (h : Settling reason n ses cur x s v) (hat : AtStation n s₀ s) (hses : SameOpening ses ses₀)
    (hfunding : ses.funding = ses₀.funding) (htopup : (s.st n).openTopup = (s₀.st n).openTopup)
    (htariff : (s.st n).tariff.active = (s₀.st n).tariff.active)
    (hx : ∀ kind, x.settledState kind reason = x₀.settledState kind reason) :
    Settling reason n ses₀ cur x₀ s₀ v where
  session := h.session
  ends := h.ends
  opening := h.opening.trans hses
  funding := by rw [h.funding, hfunding, htopup]
  clock := ⟨h.clock.1.trans hat.clock, h.clock.2.trans hat.clockSet⟩
  tariff := h.tariff.trans htariff
  log := h.log.trans hat.log
  tables hs := h.tables (by rw [hat.accounts]; exact hs)
  accounts hs i := by rw [← hat.account]; exact h.accounts (by rw [hat.accounts]; exact hs) i
  unfunded hs i hi := by
    rw [← hat.account]
    exact h.unfunded (by rw [hat.accounts]; exact hs) i (by rw [hfunding]; exact hi)
  path := h.path
  hasSession := h.hasSession
  fetched hne := h.fetched (by rw [htopup]; exact hne)
  state kind := (h.state kind).trans (hx kind)

/-! ## What a settlement leaves -/

/-- The record of a settlement (R166). -/
def settlementRecord (n : StationId) (cur : Session) (v : State) : SessionRecord :=
  sessionRecord n cur ((v.st n).charge cur) v

/-- The idle timer of a settled session has stopped (R13). -/
theorem settles_idleTimer {ses : Session} {x : Station} (h : x.state.hasSession = true) :
    (x.settles ses).idleTimer = none := by
  have hne : ∀ new : StationState, new.hasSession = false → x.state ≠ new := fun new hnew e => by
    rw [e, hnew] at h
    exact Bool.false_ne_true h
  have hgone (new : StationState) (y : Station) (hstate : y.state = x.state) (hnew : new.hasSession = false)
      (hruns : new.idleRuns = false) : (y.entered new).idleTimer = none := by
    rw [entered_idleTimer (by rw [hstate]; exact hne new hnew), if_neg (by rw [hruns]; exact Bool.false_ne_true)]
  have hidle (y : Station) : y.idleEntry.idleRuns = false := by
    unfold Station.idleEntry
    repeat' split
    all_goals rfl
  unfold Station.settles
  dsimp only
  split
  · exact hgone .disabled _ rfl rfl rfl
  · split
    · exact hgone .jammedFree _ rfl rfl rfl
    · split
      · exact hgone .jammedFree _ rfl rfl rfl
      · split
        · exact hgone .down _ rfl rfl rfl
        · exact hgone _ _ rfl (idleEntry_hasSession _) (hidle _)

section
variable {reason : EndReason} {n : StationId} {ses cur : Session} {x : Station} {s v : State}

/-- The log has taken the record of a settlement (R169). -/
theorem settle_takes (h : (v.st n).session = some cur) (hroom : v.log.records.length < 256) :
    TakesRecord v (settle n v) (settlementRecord n cur v) := by
  have hposted : ∀ charge, (postCharge n cur charge v).log = v.log ∧ (postCharge n cur charge v).clock = v.clock ∧
      (postCharge n cur charge v).clockSet = v.clockSet := fun charge => by
    unfold postCharge
    split
    · rw [requestPosting_rest]
      exact ⟨rfl, rfl, rfl⟩
    · exact ⟨rfl, rfl, rfl⟩
    · exact ⟨rfl, rfl, rfl⟩
  obtain ⟨hlog, hclock, hset⟩ := hposted ((v.st n).charge cur).1
  have hrecord : sessionRecord n cur ((v.st n).charge cur) (postCharge n cur ((v.st n).charge cur).1 v) =
      settlementRecord n cur v := by
    simp only [settlementRecord, sessionRecord, hclock, hset]
  have hsettled : (settle n v).log = (joinLog (.session (settlementRecord n cur v)) (v.log.reservations - 1)
      (postCharge n cur ((v.st n).charge cur).1 v)).log := by
    rw [settle_log h, settledLog, hrecord, offerReserved_joins _ (by rw [hlog]; exact hroom), hlog]
  obtain ⟨hrecords, -, hreservations⟩ := joinLog_log (.session (settlementRecord n cur v)) (v.log.reservations - 1)
    (postCharge n cur ((v.st n).charge cur).1 v)
  rw [hlog] at hrecords
  rw [TakesRecord, hsettled]
  exact ⟨hrecords, hreservations⟩

theorem settle_account (h : (v.st n).session = some cur) (i : AccountId) :
    (settle n v).account i = (postCharge n cur ((v.st n).charge cur).1 v).account i := by
  rw [State.account, settle_accounts h]
  rfl

/-- A settlement of a session that draws on no account leaves the accounts, and one that draws on an account the others. -/
theorem settle_account_ne (h : (v.st n).session = some cur) {i : AccountId} (hi : cur.funding ≠ .account i) :
    (settle n v).account i = v.account i := by
  rw [settle_account h]
  unfold postCharge
  split
  · next k hk => exact requestPosting_account_ne n _ v fun e => hi (by rw [hk, e])
  · rfl
  · rfl

theorem settle_account_self (h : (v.st n).session = some cur) {i : AccountId} (hi : cur.funding = .account i) :
    (settle n v).account i = (requestPosting i n ((v.st n).charge cur).1 v).account i := by
  rw [settle_account h, postCharge, hi]

/-- A charge taken counts from an account with other sides alone. -/
theorem Account.Charged.sides {charge : Nat} {a b c : Account} (h : b.Charged n charge c)
    (hsides : ∃ sides, b = { a with sides := sides }) : a.Charged n charge c := by
  obtain ⟨sides, rfl⟩ := hsides
  exact ⟨h.balance, h.period, h.funded, h.wake, h.unwoken, h.kept⟩

/-- A settlement is R28's. -/
theorem Settling.settled (h : Settling reason n ses cur x s v) :
    Settled reason n ses x s (settle n v) (settlementRecord n cur v) := by
  have hst := st_settle h.session
  have hkind : cur.funding.kind = ses.funding.kind := by rw [h.funding, withVoided_kind]
  have hreason : cur.endReason.getD .finished = reason := by rw [h.ends]; rfl
  have hfetch : (settle n v).fetchOrder = v.fetchOrder := by
    rw [(atStation_settle n v).fetchOrder, settleRecord_eq h.session]
    show (settledLog n cur v).fetchOrder = _
    rw [settledLog]
    have hoffer : ∀ (body : LogBody) (u : State), (offerReserved body u).fetchOrder = u.fetchOrder := fun body u => by
      unfold offerReserved
      split
      · rw [joinLog_frame]
      · rfl
    rw [hoffer]
    unfold postCharge
    split
    · rw [requestPosting_rest]
    · rfl
    · rfl
  constructor
  case record =>
    refine ⟨⟨h.opening.number, rfl, hkind⟩, fun i hi => ?_, fun a w k hbank => ?_, fun hfree => ?_, ?_, h.opening.opened,
      h.opening.figures, h.opening.counts⟩
    · have hcur := (h.funding_account i).mpr hi
      simp only [settlementRecord, sessionRecord, hcur]
      trivial
    · have hcur : cur.funding = .bank a (w ++ (s.st n).openTopup) k := by rw [h.funding, hbank]; rfl
      simp only [settlementRecord, sessionRecord, hcur]
      trivial
    · have hcur : cur.funding = .free := by rw [h.funding, hfree]; rfl
      simp only [settlementRecord, sessionRecord, hcur]
      trivial
    · show cardTail cur.card = _
      rw [h.opening.card]
      rfl
  case ends => exact hreason
  case closed => exact h.clock
  case charge =>
    intro tf htf
    rw [← h.tariff] at htf
    obtain ⟨hlimit, -, hdiscount⟩ := h.opening.figures
    rw [← hkind, ← hlimit, ← hdiscount]
    show (((v.st n).charge cur).1, ((v.st n).charge cur).2) = _
    rw [Station.charge, htf]
    rfl
  case posted =>
    intro i hi hs e he
    rw [settle_account_self h.session ((h.funding_account i).mpr hi), requestPosting_funded (h.tables hs), if_pos rfl] at he
    exact of_decide_eq_true (List.mem_filter.mp he).2
  case taken =>
    intro i hi hs _ hlisted
    rw [settle_account_self h.session ((h.funding_account i).mpr hi)]
    have hsides := h.accounts hs i
    refine Account.Charged.sides (requestPosting_charged (h.tables hs) _ ?_) hsides
    obtain ⟨sides, hv⟩ := hsides
    rw [hv]
    exact hlisted
  case others =>
    intro i hi hs _
    rw [settle_account_ne h.session fun e => hi ((h.funding_account i).mp e), h.unfunded hs i hi]
  case gone =>
    rw [hst]
    exact ⟨settles_session _ _, settles_job _ _, (settles_inPath _ _).trans h.path⟩
  case timers =>
    rw [hst]
    exact ⟨settles_idleTimer h.hasSession, settles_drainTimer _ _, settles_recoveryTimer _ _⟩
  case slot =>
    intro hbank
    rw [hst, settles_slot, if_pos (by rw [hkind]; exact hbank)]
  case fetched =>
    intro hne
    rw [hfetch]
    exact h.fetched hne
  case state => rw [hst, settles_state, hreason, hkind, h.state]

/-- The log has taken the record of a session that settles (R169). -/
theorem Settling.takes (h : Settling reason n ses cur x s v) (hroom : s.log.records.length < 256) :
    TakesRecord s (settle n v) (settlementRecord n cur v) := by
  have htakes := settle_takes h.session (by rw [h.log]; exact hroom)
  rw [TakesRecord, h.log] at htakes
  exact htakes

end

end Sys2Proof.Machine
end

section
/-! PROOF. The start of closing (R26, R27): a drain begins where sheets are in the path, and elsewhere the session settles at
once. -/

namespace Sys2Proof.Machine

/-! ## The state of R28's table -/

/-- What a settlement's next state is read from (R28). -/
theorem settledState_congr {x y : Station} (hdisable : x.disablePending = y.disablePending)
    (hjam : x.jamDuringClose = y.jamDuringClose) (hsilence : x.silence = y.silence) (hservice : x.serviceDue = y.serviceDue)
    (hsettings : x.settings = y.settings) (haudit : x.audit = y.audit) (hslot : x.slot.isRequested = y.slot.isRequested)
    (kind : FundingKind) (reason : EndReason) : x.settledState kind reason = y.settledState kind reason := by
  have hrequested : (if kind = .bank then Slot.free else x.slot).isRequested =
      (if kind = .bank then Slot.free else y.slot).isRequested := by
    split
    · rfl
    · exact hslot
  unfold Station.settledState Station.idleEntry
  simp only [hdisable, hjam, hsilence, hservice, hsettings, haudit, hrequested]

/-! ## The steps of R26 up to the entry to CLOSING -/

/-- The session of a close: its end reason is set, and a top-up's tag joins its voided tags (R26, R140). -/
def Session.closing (reason : EndReason) (tags : List Nat) (ses : Session) : Session :=
  { ses with funding := ses.funding.withVoided tags, endReason := some (ses.endReason.getD reason) }

/-- Closing changes its station, the notices and the fetch order. -/
theorem closingStarted_frame (reason : EndReason) (n : StationId) (s : State) : closingStarted reason n s =
    { s with stations := (closingStarted reason n s).stations, notices := (closingStarted reason n s).notices
             fetchOrder := (voidTopup n (s.modSt n Station.closingFrom)).fetchOrder } := by
  have hat : AtStation n (voidTopup n (s.modSt n Station.closingFrom)) (closingStarted reason n s) := by
    unfold closingStarted setEndReason modSession dropJob sendHalt
    exact ((((atStation_modSt _ n _).trans (atStation_modSt _ n _)).trans (atStation_modSt _ n _)).trans
      (atStation_modSt _ n _)).trans (atStation_enter false .closing n _)
  rw [hat.rest, voidTopup_frame]
  rfl

theorem closingStarted_others (reason : EndReason) {n m : StationId} (s : State) (hm : m ≠ n) :
    (closingStarted reason n s).st m = s.st m := by
  have hinternal : InternalAt n s (closingStarted reason n s) := by
    unfold closingStarted setEndReason
    exact (((((internal_modSt s n _ rfl).trans (internal_voidTopup n _)).trans (internal_modSt _ n _ rfl)).trans
      (internal_sendHalt n _)).trans (internal_modSt _ n _ rfl)).trans
      ((internal_modSession n _ _).trans (internal_enter false .closing n _))
  exact hinternal.others m hm

section
variable {reason : EndReason} {x : Station}

theorem closed_session (reason : EndReason) (x : Station) :
    (x.closed reason).session = x.session.map (Session.closing reason x.slot.topupTags) := by
  rw [Station.closed, entered_session]
  show x.closingFrom.topupVoided.session.map _ = _
  rw [topupVoided_session, Option.map_map]
  rfl

@[simp] theorem closed_state : (x.closed reason).state = .closing := entered_state _ _

@[simp] theorem closed_inPath : (x.closed reason).inPath = x.inPath := by
  rw [Station.closed, entered_inPath]
  exact topupVoided_inPath _

@[simp] theorem closed_silence : (x.closed reason).silence = x.silence := by
  rw [Station.closed, entered_silence]
  exact topupVoided_silence _

theorem closed_slot (reason : EndReason) (x : Station) : (x.closed reason).slot = x.topupVoided.slot := by
  rw [Station.closed, entered_slot]
  show x.closingFrom.topupVoided.slot = _
  rw [topupVoided_slot, topupVoided_slot]
  rfl

theorem closed_tariff : (x.closed reason).tariff = x.tariff := by
  rw [Station.closed, entered_tariff rfl]
  exact topupVoided_tariff _

/-- The pending start and the timers of a session stop with its closing (R26). -/
theorem closed_stops (hx : x.state ≠ .closing) : (x.closed reason).job = none ∧ (x.closed reason).startPending = false ∧
    (x.closed reason).descriptor = none ∧ (x.closed reason).idleTimer = none ∧ (x.closed reason).confirmTimer = none ∧
    (x.closed reason).recoveryTimer = none := by
  refine ⟨entered_job _ _, entered_startPending _ _, entered_descriptor _ _, ?_, entered_confirmTimer _ _,
    entered_recoveryTimer _ _⟩
  rw [Station.closed, entered_idleTimer]
  · rfl
  · show x.closingFrom.topupVoided.state ≠ _
    rw [topupVoided_state]
    exact hx

/-- The state that R28's table gives a station is the same after the steps of R26. -/
theorem closed_settledState (kind : FundingKind) (r : EndReason) :
    (x.closed reason).settledState kind r = x.closingFrom.settledState kind r := by
  refine settledState_congr ?_ ?_ ?_ ?_ ?_ ?_ ?_ kind r
  · rw [Station.closed, entered_disablePending]
    exact topupVoided_disablePending _
  · rw [Station.closed, entered_jamDuringClose]
    exact topupVoided_jamDuringClose _
  · rw [closed_silence]
    rfl
  · rw [Station.closed, entered_serviceDue]
    exact topupVoided_serviceDue _
  · rw [Station.closed, entered_settings]
    exact topupVoided_settings _
  · rw [Station.closed, entered_audit]
    exact topupVoided_audit _
  · rw [closed_slot, topupVoided_isRequested]
    rfl

/-- HALT stands in place of every GRANT once closing has begun (R26, R202). -/
theorem closed_halt (hx : x.state ≠ .closing) :
    OutRecord.halt ∈ (x.closed reason).sendList ∧ ∀ g, OutRecord.grant g ∉ (x.closed reason).sendList := by
  have hne : ({ x.closingFrom.topupVoided.halted with
      session := x.closingFrom.topupVoided.session.map (Session.ending reason) } : Station).state ≠ .closing := by
    show x.closingFrom.topupVoided.state ≠ _
    rw [topupVoided_state]
    exact hx
  have hlist : (x.closed reason).sendList =
      listPanel true ({ x.closingFrom.topupVoided.halted with
        session := x.closingFrom.topupVoided.session.map (Session.ending reason) } : Station).remaining
        StationState.closing.panelCode (listHalt x.closingFrom.topupVoided.sendList) := by
    rw [Station.closed, entered_sendList hne]
    rfl
  have hgrant : ∀ (l : List OutRecord) g, OutRecord.grant g ∉ listHalt l := fun l g => by
    unfold listHalt
    dsimp only
    split <;> simp [dropGrants]
  rw [hlist]
  refine ⟨?_, fun g hg => hgrant _ g ((grant_mem_listPanel g _ _ _ _).mp hg)⟩
  have hmem : ∀ l : List OutRecord, OutRecord.halt ∈ listHalt l := fun l => by
    unfold listHalt
    dsimp only
    split
    next h => simpa using h
    next => simp
  simp [listPanel, hmem]

end

/-! ## Closings that drain (R26) -/

section
variable {reason : EndReason} {n : StationId} {s : State}

/-- A top-up outstanding has been taken back once closing has begun (R140). -/
theorem closingStarted_topup (hstate : (s.st n).state ≠ .closing) : (∀ card dc req, (s.st n).slot = .topup card dc req →
      n ∉ (closingStarted reason n s).fetchOrder) ∧ ((s.st n).openTopup ≠ [] → n ∉ (closingStarted reason n s).fetchOrder) := by
  have hoff : ∀ card dc req, (s.st n).slot = .topup card dc req → n ∉ (closingStarted reason n s).fetchOrder :=
    fun card dc req hslot => by
      rw [closingStarted_frame]
      exact voidTopup_fetchOrder (s := s.modSt n Station.closingFrom) (card := card) (dc := dc) (req := req)
        (by rw [st_modSt_self]; exact hslot)
  refine ⟨hoff, fun hne => ?_⟩
  rw [openTopup_eq hstate] at hne
  obtain ⟨card, dc, req, hslot⟩ := topupTags_ne_nil hne
  exact hoff card dc req hslot

/-- A session with sheets in its path drains (R26). -/
theorem startClosing_drains (h : (s.st n).mayClose) (hstate : (s.st n).state ≠ .closing) :
    startClosing reason n s = (closingStarted reason n s).modSt n (fun x => { x with drainTimer := some 20 }) := by
  obtain ⟨hsome, -, hpath⟩ := h
  obtain ⟨ses, hses⟩ := Option.isSome_iff_exists.mp hsome
  rw [startClosing_eq reason hses hstate, st_closingStarted, closed_inPath]
  exact if_neg (by simpa [List.isEmpty_iff] using hpath)

/-- What the start of closing leaves where the session drains. -/
theorem closingBegun_startClosing (h : (s.st n).mayClose) (hstate : (s.st n).state ≠ .closing) :
    ClosingBegun reason n s (startClosing reason n s) ∧ ((startClosing reason n s).st n).silence = (s.st n).silence ∧
      (∀ m, m ≠ n → (startClosing reason n s).st m = s.st m) ∧ (startClosing reason n s).log = s.log ∧
      (startClosing reason n s).accounts = s.accounts := by
  rw [startClosing_drains h hstate]
  obtain ⟨hsome, hend, hpath⟩ := h
  obtain ⟨ses, hses⟩ := Option.isSome_iff_exists.mp hsome
  have hreason : ses.endReason = none := by rw [hses] at hend; exact hend
  have hst : ((closingStarted reason n s).modSt n (fun x => { x with drainTimer := some 20 })).st n =
      { (s.st n).closed reason with drainTimer := some 20 } := by rw [st_modSt_self, st_closingStarted]
  have hsession := closed_session reason (s.st n)
  rw [hses] at hsession
  obtain ⟨hjob, hpend, hdesc, hidle, hconf, hrec⟩ := closed_stops (reason := reason) hstate
  have htopup := (closingStarted_topup (reason := reason) hstate).1
  have hframe := closingStarted_frame reason n s
  refine ⟨⟨⟨?_, ?_, ?_, ?_, ?_, ?_, ?_⟩, ?_, ?_, ?_, ⟨fun card dc req hslot => ?_, fun hno => ?_⟩⟩, ?_, fun m hm => ?_, ?_, ?_⟩
  · rw [hst]; exact closed_state
  · rw [hst]
    show ((s.st n).closed reason).session.bind _ = _
    rw [hsession]
    show some (ses.endReason.getD reason) = _
    rw [hreason]
    rfl
  · rw [hst]; exact hjob
  · rw [hst]; exact ⟨hpend, hdesc⟩
  · rw [hst]; exact ⟨hidle, hconf, hrec⟩
  · rw [hst]
  · rw [hst]; exact closed_halt hstate
  · rw [hst]; exact closed_inPath
  · rw [hst]
    show ((s.st n).closed reason).session.map _ = _
    rw [hsession, hses]
    rfl
  · rw [hst]
    show ((s.st n).closed reason).session.map _ = _
    rw [hsession, hses]
    rfl
  · refine ⟨?_, htopup card dc req hslot, fun a v k hf => ?_⟩
    · rw [hst]
      show ((s.st n).closed reason).slot = _
      rw [closed_slot, topupVoided_slot, hslot]
    · rw [hst]
      show ((s.st n).closed reason).session.map _ = _
      rw [hses] at hf
      have hf' : ses.funding = .bank a v k := Option.some.inj hf
      rw [hsession, hslot]
      show some (ses.funding.withVoided _) = _
      rw [hf']
      rfl
  · have htags : (s.st n).slot.topupTags = [] := by
      cases hslot : (s.st n).slot with
      | topup card dc req => exact absurd hslot (hno card dc req)
      | _ => rfl
    rw [hst]
    refine ⟨?_, ?_⟩
    · show ((s.st n).closed reason).slot = _
      rw [closed_slot, topupVoided_slot]
      cases hslot : (s.st n).slot with
      | topup card dc req => exact absurd hslot (hno card dc req)
      | _ => rfl
    · show ((s.st n).closed reason).session.map _ = _
      rw [hsession, hses, htags]
      show some (ses.funding.withVoided []) = _
      rw [withVoided_nil]
      rfl
  · rw [hst]; exact closed_silence
  · rw [st_modSt_ne _ _ hm, closingStarted_others reason s hm]
  · rw [hframe]; rfl
  · rw [hframe]; rfl

/-! ## Closings that settle at once (R27) -/

theorem startClosing_settles {ses : Session} (h : (s.st n).closesAtOnce ses) :
    startClosing reason n s = settle n (closingStarted reason n s) := by
  obtain ⟨hses, -, hpath, hstate⟩ := h
  rw [startClosing_eq reason hses hstate, st_closingStarted, closed_inPath, hpath]
  rfl

/-- What a settlement at once finds (R27). -/
theorem settling_closingStarted {ses : Session} (h : (s.st n).closesAtOnce ses) :
    Settling reason n ses (ses.closing reason (s.st n).slot.topupTags) (s.st n).closingFrom s (closingStarted reason n s) := by
  obtain ⟨hses, hend, hpath, hstate⟩ := h
  have hst := st_closingStarted reason n s
  have hframe := closingStarted_frame reason n s
  have haccount : ∀ i, (closingStarted reason n s).account i = s.account i := fun i => by rw [hframe]; rfl
  refine ⟨?_, ?_, ⟨rfl, rfl, ⟨rfl, rfl⟩, ⟨rfl, rfl, rfl⟩, rfl, rfl⟩, ?_, ?_, ?_, ?_, fun hs => ?_, fun _ i => ⟨(s.account i).sides, haccount i⟩,
    fun _ i _ => haccount i, ?_, ?_, (closingStarted_topup hstate).2, fun kind => ?_⟩
  · rw [hst, closed_session, hses]
    rfl
  · show some (ses.endReason.getD reason) = _
    rw [hend]
    rfl
  · rw [openTopup_eq hstate]
    rfl
  · rw [hframe]
    exact ⟨rfl, rfl⟩
  · rw [hst, closed_tariff]
  · rw [hframe]
  · rw [hframe]
    exact hs
  · rw [hst, closed_inPath, hpath]
  · rw [hst, closed_state]
    rfl
  · rw [hst, closed_settledState]

/-- A close at once, counted from a state before it at which the session was opened alike. -/
theorem closedAtOnce_startClosing {s₀ : State} {ses ses₀ : Session} {x : Station} (h : (s.st n).closesAtOnce ses)
    (hat : AtStation n s₀ s) (hses : SameOpening ses ses₀) (hfunding : ses.funding = ses₀.funding)
    (hfigures : (ses.gross, ses.credited, ses.sideCounts, ses.sheetsCredited, ses.sheetsExited, ses.jamCount) =
      (ses₀.gross, ses₀.credited, ses₀.sideCounts, ses₀.sheetsCredited, ses₀.sheetsExited, ses₀.jamCount))
    (htopup : (s.st n).openTopup = (s₀.st n).openTopup)
    (htariff : (s.st n).tariff.active = (s₀.st n).tariff.active)
    (hx : ∀ kind, (s.st n).closingFrom.settledState kind reason = x.closingFrom.settledState kind reason) :
    ClosedAtOnce reason n ses₀ x s₀ (startClosing reason n s)
      (settlementRecord n (ses.closing reason (s.st n).slot.topupTags) (closingStarted reason n s)) := by
  have hsettling := (settling_closingStarted (reason := reason) h).from hat hses hfunding htopup htariff hx
  have hstops := closed_stops (reason := reason) h.2.2.2
  have hst : (startClosing reason n s).st n = ((s.st n).closed reason).settles
      (ses.closing reason (s.st n).slot.topupTags) := by
    rw [startClosing_settles h, st_settle hsettling.session, st_closingStarted]
  simp only [Prod.mk.injEq] at hfigures
  obtain ⟨hgross, hcredited, hsides, hsheets, hexited, hjams⟩ := hfigures
  refine ⟨by rw [startClosing_settles h]; exact hsettling.settled, ⟨hgross, hcredited, hsides, hsheets⟩, ⟨hexited, hjams⟩, ?_⟩
  rw [hst, settles_startPending, settles_descriptor, settles_confirmTimer]
  exact ⟨hstops.2.1, hstops.2.2.1, hstops.2.2.2.2.1⟩

/-- A close at once, from the state that it starts in. -/
theorem closedAtOnce_here {ses : Session} (h : (s.st n).closesAtOnce ses) (hroom : s.log.records.length < 256) :
    let t := startClosing reason n s
    let r := settlementRecord n (ses.closing reason (s.st n).slot.topupTags) (closingStarted reason n s)
    TakesRecord s t r ∧ ClosedAtOnce reason n ses (s.st n) s t r ∧ (∀ m, m ≠ n → t.st m = s.st m) := by
  intro t r
  refine ⟨?_, closedAtOnce_startClosing h (.refl n s) (.refl ses) rfl rfl rfl rfl fun _ => rfl,
    (internal_startClosing reason n s).others⟩
  show TakesRecord s (startClosing reason n s) r
  rw [startClosing_settles h]
  exact (settling_closingStarted h).takes hroom

/-! ## Closings by a record (R11, R13) -/

/-- A hearing keeps the hypotheses of a drain. -/
theorem heard_mayClose (h : (s.st n).mayClose) (clock : Nat) : ((s.st n).heard clock).mayClose := by
  obtain ⟨hsome, hend, hpath⟩ := h
  refine ⟨?_, ?_, hpath⟩
  · show ((s.st n).session.map _).isSome = true
    rw [Option.isSome_map]
    exact hsome
  · show ((s.st n).session.map _).bind _ = none
    cases hses : (s.st n).session with
    | none => rfl
    | some ses => rw [hses] at hend; exact hend

/-- Closing that a record starts with sheets in the path, counted from before the record. -/
theorem closingBegun_heard (h : (s.st n).mayClose) (hstate : (s.st n).state ≠ .closing) :
    let t := startClosing reason n (s.modSt n (Station.heard s.clock))
    ClosingBegun reason n s t ∧ (t.st n).silence = 0 ∧ (∀ m, m ≠ n → t.st m = s.st m) ∧ t.log = s.log ∧
      t.accounts = s.accounts := by
  intro t
  have hheard : (s.modSt n (Station.heard s.clock)).st n = (s.st n).heard s.clock := st_modSt_self _ _ _
  obtain ⟨hbegun, hsilence, hothers, hlog, haccounts⟩ := closingBegun_startClosing (reason := reason) (n := n)
    (s := s.modSt n (Station.heard s.clock)) (by rw [hheard]; exact heard_mayClose h _)
    (by rw [hheard]; exact hstate)
  have hmap {α : Type} (f : Session → α) (hf : ∀ ses c, f { ses with lastActivity := c } = f ses) :
      ((s.modSt n (Station.heard s.clock)).st n).session.map f = (s.st n).session.map f := by
    rw [hheard]
    show ((s.st n).session.map _).map f = _
    rw [Option.map_map]
    exact Option.map_congr fun ses _ => hf ses s.clock
  refine ⟨⟨hbegun.draining, ?_, ?_, ?_, ⟨fun card dc req hslot => ?_, fun hno => ?_⟩⟩, ?_, fun m hm => ?_, hlog, haccounts⟩
  · rw [hbegun.path, hheard]
    rfl
  · rw [hbegun.session]
    exact hmap _ fun _ _ => rfl
  · rw [hbegun.counts]
    exact hmap _ fun _ _ => rfl
  · obtain ⟨hactive, hoff, hfund⟩ := hbegun.topup.voided card dc req (by rw [hheard]; exact hslot)
    exact ⟨hactive, hoff, fun a v k hf => hfund a v k (by rw [hmap Session.funding fun _ _ => rfl]; exact hf)⟩
  · obtain ⟨hslot, hfund⟩ := hbegun.topup.kept (by rw [hheard]; exact hno)
    refine ⟨?_, ?_⟩
    · rw [hslot, hheard]
      rfl
    · rw [hfund]
      exact hmap _ fun _ _ => rfl
  · rw [hsilence, hheard]
    rfl
  · rw [hothers m hm, st_modSt_ne _ _ hm]

/-- The session of a close that a record starts. -/
theorem heard_closesAtOnce {ses : Session} (h : (s.st n).closesAtOnce ses) (clock : Nat) :
    ((s.st n).heard clock).closesAtOnce { ses with lastActivity := clock } := by
  obtain ⟨hses, hend, hpath, hstate⟩ := h
  refine ⟨?_, hend, hpath, hstate⟩
  show (s.st n).session.map _ = _
  rw [hses]
  rfl

/-- A close at once that a record starts, counted from before the record. -/
theorem closedAtOnce_heard {ses : Session} (h : (s.st n).closesAtOnce ses) (hroom : s.log.records.length < 256) :
    ∃ r, let t := startClosing reason n (s.modSt n (Station.heard s.clock))
      TakesRecord s t r ∧ ClosedAtOnce reason n ses { s.st n with silence := 0 } s t r ∧ (t.st n).silence = 0 ∧
        (∀ m, m ≠ n → t.st m = s.st m) := by
  have hheard : (s.modSt n (Station.heard s.clock)).st n = (s.st n).heard s.clock := st_modSt_self _ _ _
  have hcloses : ((s.modSt n (Station.heard s.clock)).st n).closesAtOnce { ses with lastActivity := s.clock } := by
    rw [hheard]
    exact heard_closesAtOnce h _
  obtain ⟨htakes, -, hothers⟩ := closedAtOnce_here (reason := reason) hcloses hroom
  refine ⟨_, htakes, ?_, ?_, fun m hm => (hothers m hm).trans (st_modSt_ne s _ hm)⟩
  · refine closedAtOnce_startClosing hcloses (atStation_modSt s n _) ⟨rfl, rfl, ⟨rfl, rfl⟩, ⟨rfl, rfl, rfl⟩, rfl, rfl⟩ rfl
      rfl ?_ ?_ fun kind => ?_
    · rw [hheard]
      rfl
    · rw [hheard]
      rfl
    · rw [hheard]
      exact settledState_congr rfl rfl rfl rfl rfl rfl rfl kind reason
  · have hsettling := settling_closingStarted (reason := reason) hcloses
    rw [startClosing_settles hcloses, st_settle hsettling.session, settles_silence, st_closingStarted, closed_silence, hheard]
    rfl

end

/-! ## The causes of closing -/

/-- Settles O17: END-SESSION, FINISH and the idle timer start closing. -/
theorem closingStartsOnItsCauses : Obligations.ClosingStartsOnItsCauses := by
  unfold Obligations.ClosingStartsOnItsCauses
  refine ⟨fun s tag rest n h => ?_, fun s tag byte rest h hbyte => ?_, fun s n hp hstate => ?_, fun s n htimer hstate => ?_⟩
  · have hrule : ruleEndSession (be1 n.val) s = if (s.st n).session.isSome ∧ (s.st n).state ≠ .closing then
        done (startClosing .hostEnd n s) else refuse .wrongState s :=
      onStation_at (fieldAt_be1_alone (n.isLt.trans (show 16 < 256 by decide))) s _
    have hclose (hsome : (s.st n).session.isSome = true) (hne : (s.st n).state ≠ .closing) : exec .endSession s =
        .next (answered (startClosing .hostEnd n s) rest ⟨0x0C#8, tag, be1 n.val⟩ .ok []) :=
      congrArg Host.Outcome.next (runCommand_answers h rfl rfl (fun ht => absurd ht Bool.false_ne_true)
        (hrule.trans (if_pos ⟨hsome, hne⟩)) (internal_startClosing _ n s).host)
    refine ⟨fun hnone => ?_, fun hmay hne => ?_, fun ses hcloses hroom => ?_⟩
    · refine congrArg Host.Outcome.next (runCommand_answers h rfl rfl (fun ht => absurd ht Bool.false_ne_true)
        (hrule.trans (if_neg fun e => ?_)) rfl)
      exact hnone.elim (fun hn => by simp [hn] at e) e.2
    · obtain ⟨hbegun, -, hothers, hlog, haccounts⟩ := closingBegun_startClosing (reason := .hostEnd) hmay hne
      exact ⟨_, hclose hmay.1 hne, hbegun, hothers, hlog, haccounts⟩
    · obtain ⟨htakes, hclosed, hothers⟩ := closedAtOnce_here (reason := .hostEnd) hcloses hroom
      exact ⟨_, _, hclose (by rw [hcloses.1]; rfl) hcloses.2.2.2, htakes, hclosed, hothers⟩
  · exact congrArg Host.Outcome.next (runCommand_answers h rfl rfl (fun ht => absurd ht Bool.false_ne_true)
      (onStation_beyond (by simpa using hbyte) s _) rfl)
  · have hup : (s.st n).state ≠ .down ∧ (s.st n).state ≠ .suspended ∧ (s.st n).state ≠ .closing := by
      obtain h | h | h | h | h := hstate <;> rw [h] <;>
        exact ⟨StationState.noConfusion, StationState.noConfusion, StationState.noConfusion⟩
    have hexec : exec (.finish n) s = .next (startClosing .finished n (s.modSt n (Station.heard s.clock))) := by
      refine congrArg Host.Outcome.next ?_
      show takeFinish n (activity n (arrive n s)) = _
      rw [activity_arrive hp hup.1 hup.2.1, takeFinish, st_modSt_self]
      have hsame : ((s.st n).heard s.clock).state = (s.st n).state := rfl
      rw [hsame]
      obtain h | h | h | h | h := hstate <;> rw [h]
    exact ⟨fun hmay => ⟨_, hexec, closingBegun_heard hmay hup.2.2⟩, fun ses hcloses hroom => by
      obtain ⟨r, hr⟩ := closedAtOnce_heard (reason := .finished) hcloses hroom
      exact ⟨_, r, hexec, hr⟩⟩
  · have hruns : (s.st n).state.idleRuns = true ∧ (s.st n).state ≠ .closing := by
      obtain h | h := hstate <;> rw [h] <;> exact ⟨rfl, StationState.noConfusion⟩
    have hexec : exec (.idleTimerExpiry n) s = .next (startClosing .idleTimeout n s) := if_pos ⟨htimer, hruns.1⟩
    refine ⟨fun hmay => ?_, fun ses hcloses hroom => ?_⟩
    · obtain ⟨hbegun, -, hothers, hlog, haccounts⟩ := closingBegun_startClosing (reason := .idleTimeout) hmay hruns.2
      exact ⟨_, hexec, hbegun, hothers, hlog, haccounts⟩
    · obtain ⟨htakes, hclosed, hothers⟩ := closedAtOnce_here (reason := .idleTimeout) hcloses hroom
      exact ⟨_, _, hexec, htakes, hclosed, hothers⟩

end Sys2Proof.Machine
end

section
/-! PROOF. Credit on the way to a settlement (R146, R150), the settlements without CLOSING, the taps of R104 and the timers
of R19, R137, R154, R163 and R179. -/

namespace Sys2Proof.Machine

/-! ## Steps that post nothing -/

/-- Nothing but stations, notices and the fetch order has changed. -/
abbrev Quiet (s t : State) : Prop :=
  t = { s with stations := t.stations, notices := t.notices, fetchOrder := t.fetchOrder }

theorem Quiet.trans {s t u : State} (h : Quiet s t) (k : Quiet t u) : Quiet s u := by
  rw [Quiet, k, h]

theorem AtStation.quiet {n : StationId} {s t : State} (h : AtStation n s t) : Quiet s t := by
  rw [Quiet, h.rest]

theorem quiet_voidTopup (n : StationId) (s : State) : Quiet s (voidTopup n s) := by
  rw [Quiet, voidTopup_frame]

section
variable {s t : State} (h : Quiet s t)
include h

theorem Quiet.accounts : t.accounts = s.accounts := by rw [h]
theorem Quiet.account (i : AccountId) : t.account i = s.account i := by rw [State.account, h.accounts]; rfl
theorem Quiet.log : t.log = s.log := by rw [h]
theorem Quiet.clock : t.clock = s.clock ∧ t.clockSet = s.clockSet := by rw [h]; exact ⟨rfl, rfl⟩

end

/-! ## Credit and the account table (R118, R146) -/

/-- Sides returned one class after another: one account's sides, and nothing else. -/
theorem returnSides_foldl (i : AccountId) (sheets : List Sheet) : ∀ (cs : List ClassId) (s : State),
    AccountTable.wf s.accounts →
    let t := cs.foldl (fun acc c => if chargedOf sheets c = 0 then acc else requestSideReturn i c (chargedOf sheets c) acc) s
    (∃ sides, t.account i = { s.account i with sides := sides }) ∧ (∀ k, k ≠ i → t.account k = s.account k) ∧
      AccountTable.wf t.accounts ∧ t = { s with accounts := t.accounts }
  | [], s, hs => ⟨⟨(s.account i).sides, rfl⟩, fun _ _ => rfl, hs, rfl⟩
  | c :: cs, s, hs => by
    simp only [List.foldl_cons]
    by_cases hzero : chargedOf sheets c = 0
    · rw [if_pos hzero]
      exact returnSides_foldl i sheets cs s hs
    · rw [if_neg hzero]
      obtain ⟨⟨sides, hi⟩, hne, hwf, hrest⟩ := returnSides_foldl i sheets cs
        (requestSideReturn i c (chargedOf sheets c) s) (modAccount_wf hs i _)
      refine ⟨⟨sides, ?_⟩, fun k hk => ?_, hwf, ?_⟩
      · rw [hi, requestSideReturn, account_modAccount_self hs]
      · rw [hne k hk, requestSideReturn, account_modAccount_ne _ _ hk]
      · rw [hrest]
        rfl

/-- A foldl of side returns changes the accounts alone. -/
theorem returnSides_rest (i : AccountId) (sheets : List Sheet) : ∀ (cs : List ClassId) (s : State),
    let t := cs.foldl (fun acc c => if chargedOf sheets c = 0 then acc else requestSideReturn i c (chargedOf sheets c) acc) s
    t = { s with accounts := t.accounts }
  | [], _ => rfl
  | c :: cs, s => by
    simp only [List.foldl_cons]
    rw [returnSides_rest i sheets cs]
    split <;> rfl

/-- Credit changes its station and the account table. -/
theorem credit_rest (n : StationId) (s : State) : credit n s =
    { s with stations := (credit n s).stations, accounts := (credit n s).accounts } := by
  unfold credit
  dsimp only
  split
  · rfl
  · split
    · rw [returnSides, returnSides_rest]
      rfl
    · rfl
    · rfl

theorem credit_others {n m : StationId} (s : State) (hm : m ≠ n) : (credit n s).st m = s.st m := by
  rw [st_congr (credit_stations n s), st_modSt_ne _ _ hm]

/-- Credit returns at most sides to the account of its session. -/
theorem credit_accounts {n : StationId} {s : State} (hs : AccountTable.wf s.accounts) :
    AccountTable.wf (credit n s).accounts ∧
      (∀ i, ∃ sides, (credit n s).account i = { s.account i with sides := sides }) ∧
      ∀ i, (s.st n).session.map Session.funding ≠ some (.account i) → (credit n s).account i = s.account i := by
  have hsame : AccountTable.wf s.accounts ∧ (∀ i, ∃ sides, s.account i = { s.account i with sides := sides }) ∧
      ∀ i, (s.st n).session.map Session.funding ≠ some (.account i) → s.account i = s.account i :=
    ⟨hs, fun i => ⟨(s.account i).sides, rfl⟩, fun _ _ => rfl⟩
  unfold credit
  dsimp only
  split
  · exact hsame
  next ses hses =>
    split
    next i hi =>
      rw [hses]
      obtain ⟨hown, hne, hwf, -⟩ := returnSides_foldl i (s.st n).inPath (List.finRange 4) (s.modSt n Station.credited) hs
      refine ⟨hwf, fun k => ?_, fun k hk => hne k fun e => hk ?_⟩
      · by_cases hk : k = i
        · subst hk
          exact hown
        · exact ⟨(s.account k).sides, hne k hk⟩
      · rw [e]
        exact congrArg some hi
    · exact hsame
    · exact hsame

/-- What stands before a settlement when nothing but a credit has touched the accounts. -/
structure Unposted (ses : Session) (s v : State) : Prop where
  clock : v.clock = s.clock ∧ v.clockSet = s.clockSet
  log : v.log = s.log
  tables : AccountTable.wf s.accounts → AccountTable.wf v.accounts
  accounts : AccountTable.wf s.accounts → ∀ i, ∃ sides, v.account i = { s.account i with sides := sides }
  unfunded : AccountTable.wf s.accounts → ∀ i, ses.funding ≠ .account i → v.account i = s.account i

theorem unposted_credit {n : StationId} {s u v : State} {ses : Session} (hu : Quiet s u) (hv : Quiet (credit n u) v)
    (hfunding : ∀ i, (u.st n).session.map Session.funding = some (.account i) → ses.funding = .account i) :
    Unposted ses s v := by
  have hrest := credit_rest n u
  refine ⟨⟨?_, ?_⟩, ?_, fun hs => ?_, fun hs i => ?_, fun hs i hi => ?_⟩
  · rw [hv.clock.1, hrest, hu.clock.1]
  · rw [hv.clock.2, hrest, hu.clock.2]
  · rw [hv.log, hrest, hu.log]
  · rw [hv.accounts]
    exact (credit_accounts (by rw [hu.accounts]; exact hs)).1
  · obtain ⟨sides, h⟩ := (credit_accounts (n := n) (s := u) (by rw [hu.accounts]; exact hs)).2.1 i
    exact ⟨sides, by rw [hv.account, h, hu.account]⟩
  · rw [hv.account, (credit_accounts (n := n) (s := u) (by rw [hu.accounts]; exact hs)).2.2 i fun e => hi (hfunding i e),
      hu.account]

/-- The figures of a record after a credit (R146). -/
theorem credited_record {n : StationId} {v : State} {ses cur : Session} {sheets : List Sheet}
    (h : (cur.gross, cur.credited, cur.sideCounts, cur.sheetsCredited, cur.sheetsExited) =
      ((ses.creditSheets sheets).gross, (ses.creditSheets sheets).credited, (ses.creditSheets sheets).sideCounts,
        (ses.creditSheets sheets).sheetsCredited, (ses.creditSheets sheets).sheetsExited)) :
    Credited sheets ses (settlementRecord n cur v) := by
  simp only [Prod.mk.injEq] at h
  obtain ⟨hgross, hcredited, hsides, hsheets, hexited⟩ := h
  refine ⟨hgross, ?_, ?_, fun c => ?_, hexited⟩
  · exact hcredited
  · exact hsheets
  · show cur.sideCounts[c] = _
    rw [hsides]
    simp [Session.creditSheets, chargedOf]

/-! ## The settlement without CLOSING (R150) -/

/-- The session of a settlement without CLOSING. -/
def Session.endedAtOnce (reason : EndReason) (tags : List Nat) (sheets : List Sheet) (ses : Session) : Session :=
  (ses.creditSheets sheets).closing reason tags

section
variable {reason : EndReason} {n : StationId} {s : State} {ses : Session}

theorem closedAtOnce_session (reason : EndReason) (x : Station) : (x.closedAtOnce reason).session =
    x.session.map (Session.endedAtOnce reason x.slot.topupTags x.inPath) := by
  have hpath : x.topupVoided.halted.inPath = x.inPath := topupVoided_inPath x
  show (x.topupVoided.session.map (Session.creditSheets x.topupVoided.halted.inPath)).map _ = _
  rw [hpath, topupVoided_session, Option.map_map, Option.map_map]
  rfl

/-- What a settlement without CLOSING finds (R150). -/
theorem settling_closeAtOnce (h : (s.st n).session = some ses) (hend : ses.endReason = none)
    (hstate : (s.st n).state.hasSession = true) (hclosing : (s.st n).state ≠ .closing) :
    Settling reason n ses (ses.endedAtOnce reason (s.st n).slot.topupTags (s.st n).inPath) (s.st n) s
      (closeAtOnce reason n s) := by
  have hst := st_closeAtOnce reason n s
  generalize hu : dropJob n (sendHalt n ((voidTopup n s).modSt n Station.stopForClose)) = u
  have hveq : closeAtOnce reason n s = setEndReason reason n (credit n u) := by rw [closeAtOnce, hu]
  have hq : Quiet s u := by
    rw [← hu]
    exact (quiet_voidTopup n s).trans (((atStation_modSt _ n _).trans (atStation_modSt _ n _)).trans
      (atStation_modSt _ n _)).quiet
  have hv : Quiet (credit n u) (closeAtOnce reason n s) := by
    rw [hveq, setEndReason, modSession]
    exact (atStation_modSt _ n _).quiet
  have husession : (u.st n).session = (s.st n).topupVoided.session := by
    rw [← hu, dropJob, sendHalt, st_modSt_self, st_modSt_self, st_modSt_self, st_voidTopup]
    rfl
  have hunposted : Unposted ses s (closeAtOnce reason n s) := unposted_credit hq hv fun i hi => by
    rw [husession, topupVoided_session, h] at hi
    cases hf : ses.funding <;> simp [Funding.withVoided, hf] at hi ⊢
    exact hi
  refine ⟨?_, ?_, ⟨rfl, rfl, ⟨rfl, rfl⟩, ⟨rfl, rfl, rfl⟩, rfl, rfl⟩, ?_, hunposted.clock, ?_, hunposted.log, hunposted.tables,
    hunposted.accounts, hunposted.unfunded, ?_, ?_, fun hne => ?_, fun kind => ?_⟩
  · rw [hst, closedAtOnce_session, h]
    rfl
  · show some (ses.endReason.getD reason) = _
    rw [hend]
    rfl
  · rw [openTopup_eq hclosing]
    rfl
  · rw [hst]
    show (s.st n).topupVoided.tariff.active = _
    rw [topupVoided_tariff]
  · rw [hst]
    rfl
  · rw [hst]
    show (s.st n).topupVoided.state.hasSession = true
    rw [topupVoided_state]
    exact hstate
  · have hfetch : (closeAtOnce reason n s).fetchOrder = (voidTopup n s).fetchOrder := by
      rw [hveq]
      show (credit n u).fetchOrder = _
      rw [credit_rest, ← hu]
      rfl
    rw [openTopup_eq hclosing] at hne
    obtain ⟨card, dc, req, hslot⟩ := topupTags_ne_nil hne
    rw [hfetch]
    exact voidTopup_fetchOrder hslot
  · rw [hst]
    refine settledState_congr ?_ ?_ ?_ ?_ ?_ ?_ ?_ kind reason
    · exact topupVoided_disablePending _
    · exact topupVoided_jamDuringClose _
    · exact topupVoided_silence _
    · exact topupVoided_serviceDue _
    · exact topupVoided_settings _
    · exact topupVoided_audit _
    · exact topupVoided_isRequested _

/-- What a settlement without CLOSING leaves (R150). -/
theorem settleNow_result (h : (s.st n).session = some ses) (hend : ses.endReason = none)
    (hstate : (s.st n).state.hasSession = true) (hclosing : (s.st n).state ≠ .closing)
    (hroom : s.log.records.length < 256) : ∃ r, TakesRecord s (settleNow reason n s) r ∧
      Settled reason n ses (s.st n) s (settleNow reason n s) r ∧ Credited (s.st n).inPath ses r ∧
      r.jamCount = ses.jamCount := by
  have hsettling := settling_closeAtOnce (reason := reason) h hend hstate hclosing
  exact ⟨_, hsettling.takes hroom, hsettling.settled, credited_record rfl, rfl⟩

end

/-! ## Taps (R104) -/

/-- A card record at a station with a session (R100). -/
theorem exec_card_session {s : State} {n : StationId} {bytes : List Byte} (hp : (s.st n).passage = none)
    (hstate : (s.st n).state = .opened ∨ (s.st n).state = .confirming ∨ (s.st n).state = .running ∨
      (s.st n).state = .starved ∨ (s.st n).state = .jammedSession) :
    exec (.card n bytes) s = .next (match cardIdOf bytes with
      | none => protocolFault n (s.modSt n (Station.heard s.clock))
      | some c => tapCard c n (s.modSt n (Station.heard s.clock))) := by
  have hup : (s.st n).state ≠ .down ∧ (s.st n).state ≠ .suspended := by
    obtain h | h | h | h | h := hstate <;> rw [h] <;> exact ⟨StationState.noConfusion, StationState.noConfusion⟩
  refine congrArg Host.Outcome.next ?_
  show takeCard bytes n (activity n (arrive n s)) = _
  rw [activity_arrive hp hup.1 hup.2, takeCard, st_modSt_self]
  have hsame : ((s.st n).heard s.clock).state = (s.st n).state := rfl
  rw [hsame]
  obtain h | h | h | h | h := hstate <;> rw [h] <;> rfl

/-- The lock and the amount of a PANEL at a station with a session that goes on (R29). -/
theorem lockAndAmount_session {x : Station} (h : x.state = .opened ∨ x.state = .confirming ∨ x.state = .running ∨
    x.state = .starved) : x.lockAndAmount = some (decide (x.state = .confirming), x.remaining) := by
  unfold Station.lockAndAmount
  obtain h | h | h | h := h <;> rw [h] <;> rfl

/-- Settles O29: the own card closes, another is answered, and no card ID is a fault. -/
theorem cardTapResult : Obligations.CardTapResult := by
  unfold Obligations.CardTapResult
  intro s n ses hp hses hstate
  have hheard : (s.modSt n (Station.heard s.clock)).st n = (s.st n).heard s.clock := st_modSt_self _ _ _
  have hclosing : (s.st n).state ≠ .closing := by
    obtain h | h | h | h | h := hstate <;> rw [h] <;> exact StationState.noConfusion
  have hsession : ((s.modSt n (Station.heard s.clock)).st n).session = some { ses with lastActivity := s.clock } := by
    rw [hheard]
    show (s.st n).session.map _ = _
    rw [hses]
    rfl
  have hcard {card : CardId} (hwf : CardId.wf card = true) : exec (.card n (beCardId card)) s =
      .next (tapCard card n (s.modSt n (Station.heard s.clock))) := by
    rw [exec_card_session hp hstate, cardIdOf_beCardId hwf]
  have hown : tapCard ses.card n (s.modSt n (Station.heard s.clock)) =
      startClosing .finished n (s.modSt n (Station.heard s.clock)) := by
    rw [tapCard, hsession]
    exact if_pos rfl
  refine ⟨fun hwf hmay => ?_, fun hwf hcloses hroom => ?_, fun card hwf hne hjam => ?_, fun card hwf hne hjam => ?_,
    fun bytes hbytes => ?_⟩
  · obtain ⟨hbegun, -, hothers, hlog, -⟩ := closingBegun_heard (reason := .finished) hmay hclosing
    exact ⟨_, (hcard hwf).trans (congrArg _ hown), hbegun, hothers, hlog⟩
  · obtain ⟨r, htakes, hclosed, -, hothers⟩ := closedAtOnce_heard (reason := .finished) hcloses hroom
    exact ⟨_, r, (hcard hwf).trans (congrArg _ hown), htakes, hclosed, hothers⟩
  · have hgoes : (s.st n).state = .opened ∨ (s.st n).state = .confirming ∨ (s.st n).state = .running ∨
        (s.st n).state = .starved := by
      obtain h | h | h | h | h := hstate
      exacts [.inl h, .inr (.inl h), .inr (.inr (.inl h)), .inr (.inr (.inr h)), absurd h hjam]
    have htap : tapCard card n (s.modSt n (Station.heard s.clock)) = sendPanel n (decide ((s.st n).state = .confirming))
        ((s.st n).heard s.clock).remaining (some .inUse) (s.modSt n (Station.heard s.clock)) := by
      rw [tapCard, hsession]
      dsimp only
      rw [if_neg fun e => hne e.symm, hheard]
      refine (if_neg hjam).trans ?_
      rw [lockAndAmount_session (x := (s.st n).heard s.clock) hgoes]
      rfl
    have hremaining : ((s.st n).heard s.clock).remaining = (s.st n).remaining := by
      have h' : ((s.st n).heard s.clock).session = some { ses with lastActivity := s.clock } := by rw [← hheard, hsession]
      rw [Station.remaining, h', Station.remaining, hses]
      rfl
    refine ⟨_, (hcard hwf).trans (congrArg _ htap), ((atStation_modSt s n _).trans (atStation_sendPanel n _ _ _ _)).onlyAt, ?_⟩
    rw [st_sendPanel, hremaining]
    refine ⟨?_, hsession, listPanel_getLast _ _ _ _⟩
    rw [hheard]
    rfl
  · have htap : tapCard card n (s.modSt n (Station.heard s.clock)) = s.modSt n (Station.heard s.clock) := by
      rw [tapCard, hsession]
      dsimp only
      rw [if_neg fun e => hne e.symm, hheard]
      exact if_pos hjam
    rw [hcard hwf, htap]
    refine congrArg Host.Outcome.next (modSt_congr ?_)
    simp only [Station.heard, hses, Option.map_some]
  · have hexec : exec (.card n bytes) s = .next (protocolFault n (s.modSt n (Station.heard s.clock))) := by
      rw [exec_card_session hp hstate, hbytes]
    obtain ⟨honly, hst, -⟩ := heard_faulted (s := s) (n := n)
    refine ⟨_, hexec, honly, ?_⟩
    rw [hst]
    refine ⟨rfl, ?_, rfl⟩
    show ((s.st n).serviceDue || ((s.st n).session.map _).isSome) = true
    rw [hses]
    simp

/-! ## Timers -/

/-- Settles O51: each timer's expiry does what its rule says. -/
theorem timerExpiryResults : Obligations.TimerExpiryResults := by
  unfold Obligations.TimerExpiryResults
  refine ⟨fun s n hstate htimer => ?_, fun s n card dc req hslot hroom => ?_,
    fun s n card dc k req ses a v hslot hses hf => ?_, fun s n ses htimer hstate hses hend hroom => ?_,
    fun s n htimer => if_pos htimer⟩
  · obtain ⟨honly, hopened, hpend, hdesc, -, -, hses, -⟩ := dropped_result hstate
    have hpanel := atStation_sendPanel n false ((enter false .opened n (dropStart n s)).st n).remaining (some .refused)
      (enter false .opened n (dropStart n s))
    have hremaining : ((enter false .opened n (dropStart n s)).st n).remaining = (s.st n).remaining := by
      rw [Station.remaining, hses]
      rfl
    refine ⟨denyStart n s, if_pos ⟨htimer, hstate⟩, ?_⟩
    rw [denyStart, st_sendPanel]
    refine ⟨⟨fun m hm => (hpanel.others m hm).trans (honly.1 m hm), ?_⟩, hopened, hpend, hdesc, hses, ?_⟩
    · rw [hpanel.rest, honly.2]
    · rw [hremaining]
      exact listPanel_getLast _ _ _ _
  · obtain ⟨hst, hfetch, hrecords, hreservations, -⟩ := voidFirst_result (cause := .timeout) hslot hroom
    have hat := atStation_leaveAuthorizing .refused n (voidFirst .timeout n s)
    have hexpire : expireRequest n s = leaveAuthorizing .refused n (voidFirst .timeout n s) := by
      rw [expireRequest, hslot]
    refine ⟨_, congrArg Host.Outcome.next hexpire, fun m hm => (hat.others m hm).trans
      ((internal_voidFirst .timeout n s).others m hm), ?_, ?_, by rw [hat.log]; exact hrecords,
      by rw [hat.log]; exact hreservations, ?_⟩
    · rw [leaveAuthorizing_slot, hst]
    · rw [hat.fetchOrder, hfetch]
      simp
    · rw [st_leaveAuthorizing, hst]
      split
      · rw [idled_state]
        rfl
      · rfl
  · have hexpire : expireRequest n s = voidTopup n s := by rw [expireRequest, hslot]
    refine ⟨_, congrArg Host.Outcome.next hexpire, voidTopup_frame n s, voidTopup_fetchOrder hslot,
      (internal_voidTopup n s).others, ?_⟩
    rw [st_voidTopup, Station.topupVoided, hslot]
    dsimp only
    rw [hses]
    simp only [Option.map_some, Session.voided, hf, Funding.voidTag]
  · have hhas : (s.st n).state.hasSession = true ∧ (s.st n).state ≠ .closing := by
      obtain h | h := hstate <;> rw [h] <;> exact ⟨rfl, StationState.noConfusion⟩
    have hexec : exec (.recoveryTimerExpiry n) s = .next (settleNow
        (if (s.st n).state = .jammedSession then .jamAbandoned else .linkLost) n s) := by
      show execRecoveryTimerExpiry n s = _
      obtain h | h := hstate <;> simp [execRecoveryTimerExpiry, htimer, h]
    obtain ⟨r, htakes, hsettled, hcredited, hjams⟩ := settleNow_result
      (reason := if (s.st n).state = .jammedSession then .jamAbandoned else .linkLost) hses hend hhas.1 hhas.2 hroom
    have hsettling := settling_closeAtOnce
      (reason := if (s.st n).state = .jammedSession then .jamAbandoned else .linkLost) hses hend hhas.1 hhas.2
    refine ⟨_, r, hexec, (internal_settleNow _ n s).others, htakes, hsettled, hcredited, hjams, ?_, fun hdisable hjam => ?_⟩
    · rw [settleNow, st_settle hsettling.session, settles_prior]
    · rw [hsettled.state, Station.settledState, hdisable, hjam]
      obtain h | h := hstate <;> simp [h]

end Sys2Proof.Machine
end

section
/-! PROOF. EXITED records (R47), the end of a job (R24), and the records that bring a station out of DOWN and SUSPENDED
(R8, R10, R162). -/

namespace Sys2Proof.Machine

/-! ## Exits (R47) -/

/-- A count after so many sheets have been added to it one by one (R47; log entry 12). -/
def exitedCount (a : Nat) (m : Nat) : Nat := if m = 0 then a else satAdd max32 a m

theorem exitedCount_succ (a m : Nat) : exitedCount (satAdd max32 a 1) m = exitedCount a (m + 1) := by
  unfold exitedCount satAdd
  split
  · next h => simp [h]
  · rw [if_neg (Nat.succ_ne_zero m)]
    unfold max32
    omega

/-- The session of a path that so many sheets have left. -/
def Session.exited (m : Nat) (ses : Session) : Session := { ses with sheetsExited := exitedCount ses.sheetsExited m }

/-- The station whose path the sheets at or before a number have left, in order (R47). -/
def Station.exits (sheet : Nat) (x : Station) : Station :=
  let left := x.inPath.dropWhile (fun e => atOrBefore e.number sheet)
  { x with
    inPath := left
    session := x.session.map (Session.exited (x.inPath.length - left.length))
    counters := { x.counters with
      sheetsExited := exitedCount x.counters.sheetsExited (x.inPath.length - left.length) } }

/-- The station whose head sheet has left its path. -/
def Station.exitsHead (x : Station) : Station :=
  { x with
    inPath := x.inPath.tail
    session := x.session.map (fun ses => { ses with sheetsExited := satAdd max32 ses.sheetsExited 1 })
    counters := { x.counters with sheetsExited := satAdd max32 x.counters.sheetsExited 1 } }

/-- A station as it stands is no change of it. -/
theorem modSt_same {n : StationId} {s : State} {f : Station → Station} (h : f (s.st n) = s.st n) : s.modSt n f = s := by
  rw [State.modSt, h, State.st]
  have : s.stations.set n.val s.stations[n.val] = s.stations := by
    ext i hi
    rw [Vector.getElem_set]
    split
    · next he => subst he; rfl
    · rfl
  exact congrArg (fun v => { s with stations := v }) this

theorem exits_none {sheet : Nat} {x : Station}
    (h : x.inPath.dropWhile (fun e => atOrBefore e.number sheet) = x.inPath) : x.exits sheet = x := by
  have hid : Session.exited 0 = id := rfl
  unfold Station.exits
  simp only [h, Nat.sub_self, exitedCount, if_true, hid, Option.map_id_fun, id_eq]

theorem exits_cons {sheet : Nat} {x : Station} {e : Sheet} {rest : List Sheet} (hpath : x.inPath = e :: rest)
    (h : atOrBefore e.number sheet = true) : x.exitsHead.exits sheet = x.exits sheet := by
  have hle : (rest.dropWhile (fun e => atOrBefore e.number sheet)).length ≤ rest.length :=
    (List.dropWhile_sublist _).length_le
  have hcount : rest.length + 1 - (rest.dropWhile (fun e => atOrBefore e.number sheet)).length =
      rest.length - (rest.dropWhile (fun e => atOrBefore e.number sheet)).length + 1 := by omega
  unfold Station.exits Station.exitsHead
  simp only [hpath, List.tail_cons, List.dropWhile_cons, h, if_true, List.length_cons, hcount, exitedCount_succ,
    Option.map_map]
  congr 1
  refine Option.map_congr fun ses _ => ?_
  simp only [Function.comp, Session.exited, exitedCount_succ]

/-- A head sheet that ends no job leaves the path. -/
theorem exitHead_eq {n : StationId} {s : State} {e : Sheet} {rest : List Sheet} (hpath : (s.st n).inPath = e :: rest)
    (hjob : ∀ j, (s.st n).job = some j → j.lastSheet ≠ some e.number) : exitHead n s = s.modSt n Station.exitsHead := by
  have hstep : s.modSt n (fun x => { x with
      inPath := rest
      session := x.session.map (fun ses => { ses with sheetsExited := satAdd max32 ses.sheetsExited 1 })
      counters := { x.counters with sheetsExited := satAdd max32 x.counters.sheetsExited 1 } }) =
      s.modSt n Station.exitsHead := modSt_congr (by rw [Station.exitsHead, hpath]; rfl)
  rw [exitHead, hpath]
  dsimp only
  rw [hstep]
  cases h : (s.st n).job with
  | none => rfl
  | some j => exact if_neg (hjob j h)

/-- Where no job ends, the sheets at or before the number leave from the head, and no other (R47). -/
theorem exitUpTo_eq (sheet : Nat) (n : StationId) : ∀ (k : Nat) (s : State), (s.st n).inPath.length ≤ k →
    (∀ j, (s.st n).job = some j → j.lastSheet = none) → exitUpTo sheet n k s = s.modSt n (Station.exits sheet)
  | 0, s, hk, _ => by
    have hnil : (s.st n).inPath = [] := List.length_eq_zero_iff.mp (Nat.le_zero.mp hk)
    have hsame : s.modSt n (Station.exits sheet) = s := modSt_same (exits_none (by rw [hnil]; rfl))
    exact hsame.symm
  | k + 1, s, hk, hjob => by
    unfold exitUpTo
    cases hpath : (s.st n).inPath with
    | nil => exact (modSt_same (exits_none (by rw [hpath]; rfl))).symm
    | cons e rest =>
      dsimp only
      by_cases h : atOrBefore e.number sheet = true
      · rw [if_pos h, exitHead_eq hpath fun j hj => by rw [hjob j hj]; exact nofun]
        have hst : (s.modSt n Station.exitsHead).st n = (s.st n).exitsHead := st_modSt_self _ _ _
        rw [exitUpTo_eq sheet n k (s.modSt n Station.exitsHead), modSt_modSt]
        · exact modSt_congr (exits_cons hpath h)
        · rw [hst, Station.exitsHead, hpath]
          rw [hpath] at hk
          exact Nat.le_of_succ_le_succ hk
        · rw [hst]
          exact hjob
      · rw [if_neg h]
        exact (modSt_same (exits_none (by rw [hpath, List.dropWhile_cons, if_neg h]))).symm

/-- An EXITED record in session metering where no job ends and no drain (R47). -/
theorem takeExited_eq {sheet : Nat} {n : StationId} {s : State} (hjob : ∀ j, (s.st n).job = some j → j.lastSheet = none)
    (h : (s.st n).state ≠ .closing ∨ (s.st n).inPath.dropWhile (fun e => atOrBefore e.number sheet) ≠ []) :
    takeExited sheet n s = s.modSt n (Station.exits sheet) := by
  rw [takeExited, exitUpTo_eq sheet n _ s le_rfl hjob]
  refine if_neg fun e => ?_
  rw [st_modSt_self] at e
  exact h.elim (fun hne => hne e.1) fun hne => hne e.2.1

/-- The state that an EXITED record's rule works on. -/
theorem exec_exited {s : State} {n : StationId} {sheet : BitVec 16} (hp : (s.st n).passage = none)
    (h : (s.st n).state = .running ∨ (s.st n).state = .starved ∨ (s.st n).state = .opened ∨
      (s.st n).state = .confirming ∨ (s.st n).state = .closing) :
    exec (.exited n sheet) s = .next (takeExited sheet.toNat n (s.modSt n (Station.heard s.clock))) := by
  have hup : (s.st n).state ≠ .down ∧ (s.st n).state ≠ .suspended := by
    obtain h | h | h | h | h := h <;> rw [h] <;> exact ⟨StationState.noConfusion, StationState.noConfusion⟩
  refine congrArg Host.Outcome.next ?_
  show takeExit sheet.toNat n (activity n (arrive n s)) = _
  rw [activity_arrive hp hup.1 hup.2, takeExit, st_modSt_self]
  have hsame : ((s.st n).heard s.clock).state = (s.st n).state := rfl
  rw [hsame]
  obtain h | h | h | h | h := h <;> rw [h]

/-! ## The end of a job (R24) -/

/-- An entry without a notice and without a commit changes its station alone. -/
theorem enter_silent {q : Bool} {new : StationState} (hnotice : new.entryNotice = none) (hcommit : new.commits = false)
    (n : StationId) (s : State) : enter q new n s = { s with stations := (enter q new n s).stations } := by
  have hnotices : (enter q new n s).notices = s.notices := by
    unfold enter
    split
    · rfl
    · dsimp only
      rw [hcommit, if_neg Bool.false_ne_true, statePanel_notices, raiseEntry, hnotice]
      rfl
  rw [(atStation_enter q new n s).rest, hnotices]

/-- The station whose job has ended (R24, R202). -/
def Station.jobEnded (x : Station) : Station := { x with job := none, sendList := dropGrants x.sendList }

theorem grant_not_mem_dropGrants (g : Nat) (l : List OutRecord) : OutRecord.grant g ∉ dropGrants l := by
  simp [dropGrants]

/-- The end of a job in RUNNING or STARVED returns the station to OPEN. -/
theorem endJob_opens {n : StationId} {s : State} (h : (s.st n).state = .running ∨ (s.st n).state = .starved) :
    endJob n s = enter false .opened n (s.modSt n Station.jobEnded) := if_pos h

theorem endJob_opens_result {n : StationId} {s : State} (h : (s.st n).state = .running ∨ (s.st n).state = .starved) :
    endJob n s = { s with stations := (endJob n s).stations } ∧ (∀ m, m ≠ n → (endJob n s).st m = s.st m) ∧
      (endJob n s).st n = (s.st n).jobEnded.entered .opened ∧
      ((endJob n s).st n).idleTimer = some (s.st n).settings.idleTime ∧
      ∀ g, OutRecord.grant g ∉ ((endJob n s).st n).sendList := by
  have hne : (s.st n).jobEnded.state ≠ .opened := by
    show (s.st n).state ≠ _
    obtain h | h := h <;> rw [h] <;> exact StationState.noConfusion
  have hst : (endJob n s).st n = (s.st n).jobEnded.entered .opened := by rw [endJob_opens h, st_enter, st_modSt_self]
  refine ⟨?_, (internal_endJob n s).others, hst, ?_, fun g => ?_⟩
  · rw [endJob_opens h, enter_silent rfl rfl]
    rfl
  · rw [hst, entered_idleTimer hne]
    rfl
  · rw [hst, grant_mem_entered]
    exact grant_not_mem_dropGrants g _

/-- The job end of SINGLE with its last sheet (R44, R47). -/
theorem takeExited_last {sheet : Nat} {n : StationId} {s : State} {j : Job} {e : Sheet} {rest : List Sheet}
    (hstate : (s.st n).state = .running ∨ (s.st n).state = .starved) (hjob : (s.st n).job = some j)
    (hpath : (s.st n).inPath = e :: rest) (hlast : j.lastSheet = some e.number) (he : atOrBefore e.number sheet = true)
    (hnext : ∀ f, rest.head? = some f → atOrBefore f.number sheet = false) :
    takeExited sheet n s = endJob n (s.modSt n Station.exitsHead) := by
  have hst : (s.modSt n Station.exitsHead).st n = (s.st n).exitsHead := st_modSt_self _ _ _
  have hhead : exitHead n s = endJob n (s.modSt n Station.exitsHead) := by
    have hstep : s.modSt n (fun x => { x with
        inPath := rest
        session := x.session.map (fun ses => { ses with sheetsExited := satAdd max32 ses.sheetsExited 1 })
        counters := { x.counters with sheetsExited := satAdd max32 x.counters.sheetsExited 1 } }) =
        s.modSt n Station.exitsHead := modSt_congr (by rw [Station.exitsHead, hpath]; rfl)
    rw [exitHead, hpath]
    dsimp only
    rw [hstep, hjob]
    exact if_pos hlast
  obtain ⟨-, -, hended, -, -⟩ := endJob_opens_result (n := n) (s := s.modSt n Station.exitsHead) (by rw [hst]; exact hstate)
  have hleft : ((endJob n (s.modSt n Station.exitsHead)).st n).inPath = rest := by
    rw [hended, entered_inPath, hst]
    show (s.st n).inPath.tail = rest
    rw [hpath]
    rfl
  have hstop : ∀ k, exitUpTo sheet n k (endJob n (s.modSt n Station.exitsHead)) = endJob n (s.modSt n Station.exitsHead) := by
    intro k
    cases k with
    | zero => rfl
    | succ k =>
      unfold exitUpTo
      rw [hleft]
      cases rest with
      | nil => rfl
      | cons f rest => exact if_neg (by rw [hnext f rfl]; exact Bool.false_ne_true)
  have hrun : exitUpTo sheet n (rest.length + 1) s = endJob n (s.modSt n Station.exitsHead) := by
    unfold exitUpTo
    rw [hpath]
    dsimp only
    rw [if_pos he, hhead, hstop]
  rw [takeExited, hpath, List.length_cons, hrun]
  refine if_neg fun e => ?_
  rw [hended, entered_state] at e
  exact nomatch e.1

/-- The state that a JOB_END record's rule works on. -/
theorem exec_jobEnd {s : State} {n : StationId} {outcome : Byte} (hp : (s.st n).passage = none)
    (hd : (s.st n).state ≠ .down) (hs : (s.st n).state ≠ .suspended) :
    exec (.jobEnd n outcome) s = .next (takeJobEnd n (s.modSt n (Station.heard s.clock))) := by
  refine congrArg Host.Outcome.next ?_
  show takeJobEnd n (activity n (arrive n s)) = _
  rw [activity_arrive hp hd hs]

/-- Settles O48: exits from the head, and the ends of a job. -/
theorem exitedAndJobEndResults : Obligations.ExitedAndJobEndResults := by
  unfold Obligations.ExitedAndJobEndResults
  refine ⟨fun s n sheet ses hp hstate hses hjob => ?_,
    fun s n sheet ses j e rest hp hstate hses hjob hpath hlast he hnext => ?_,
    fun s n outcome hp => ⟨fun hstate => ?_, fun hstate => ?_, fun hstate hjob => ?_⟩⟩
  · have hheard : (s.modSt n (Station.heard s.clock)).st n = (s.st n).heard s.clock := st_modSt_self _ _ _
    have hclosing : (s.st n).state ≠ .closing := by
      obtain h | h | h | h := hstate <;> rw [h] <;> exact StationState.noConfusion
    have hexec := exec_exited (sheet := sheet) hp (by
      obtain h | h | h | h := hstate
      exacts [.inl h, .inr (.inl h), .inr (.inr (.inl h)), .inr (.inr (.inr (.inl h)))])
    have hst : ((s.modSt n (Station.heard s.clock)).modSt n (Station.exits sheet.toNat)).st n =
        ((s.st n).heard s.clock).exits sheet.toNat := by rw [st_modSt_self, hheard]
    rw [takeExited_eq (by rw [hheard]; exact hjob) (.inl (by rw [hheard]; exact hclosing))] at hexec
    refine ⟨_, hexec, rfl, fun m hm => ?_, ?_⟩
    · rw [st_modSt_ne _ _ hm, st_modSt_ne _ _ hm]
    · rw [hst]
      refine ⟨rfl, rfl, rfl, ?_, fun hfit hlen => ?_⟩
      · show (((s.st n).session.map _).map _).map _ = _
        rw [hses]
        rfl
      · show (((s.st n).session.map _).map _).map _ = _
        rw [hses]
        have hle : (s.st n).inPath.length -
            ((s.st n).inPath.dropWhile (fun e => atOrBefore e.number sheet.toNat)).length ≤ 8 := by omega
        show some (exitedCount ses.sheetsExited _) = some (ses.sheetsExited + _)
        refine congrArg some ?_
        unfold exitedCount satAdd max32
        split
        · next h => exact (congrArg (ses.sheetsExited + ·) h).symm
        · exact Nat.min_eq_right (Nat.le_trans (Nat.add_le_add_left hle _) hfit)
  · have hheard : (s.modSt n (Station.heard s.clock)).st n = (s.st n).heard s.clock := st_modSt_self _ _ _
    have hexec := exec_exited (sheet := sheet) hp (hstate.elim .inl fun h => .inr (.inl h))
    rw [takeExited_last (by rw [hheard]; exact hstate) (by rw [hheard]; exact hjob) (by rw [hheard]; exact hpath) hlast he
      hnext, modSt_modSt] at hexec
    have hst : (s.modSt n (fun x => (x.heard s.clock).exitsHead)).st n = ((s.st n).heard s.clock).exitsHead :=
      st_modSt_self _ _ _
    obtain ⟨hframe, hothers, hended, hidle, hgrants⟩ := endJob_opens_result (n := n)
      (s := s.modSt n (fun x => (x.heard s.clock).exitsHead)) (by rw [hst]; exact hstate)
    rw [hst] at hended hidle
    refine ⟨_, hexec, ?_, fun m hm => (hothers m hm).trans (st_modSt_ne s _ hm), ?_, ?_, ?_, hidle, hgrants, ?_⟩
    · rw [hframe]
      rfl
    · rw [hended, entered_state]
    · rw [hended, entered_job]
      rfl
    · rw [hended, entered_inPath]
      show (s.st n).inPath.tail = rest
      rw [hpath]
      rfl
    · rw [hended, entered_session, entered_counters]
      refine ⟨?_, ?_, rfl⟩
      all_goals
        show (((s.st n).session.map _).map _).map _ = _
        rw [hses]
        rfl
  · have hheard : (s.modSt n (Station.heard s.clock)).st n = (s.st n).heard s.clock := st_modSt_self _ _ _
    have hexec := exec_jobEnd (outcome := outcome) hp (by obtain h | h := hstate <;> rw [h] <;> exact StationState.noConfusion)
      (by obtain h | h := hstate <;> rw [h] <;> exact StationState.noConfusion)
    have htake : takeJobEnd n (s.modSt n (Station.heard s.clock)) = endJob n (s.modSt n (Station.heard s.clock)) := by
      have hsame : ((s.st n).heard s.clock).state = (s.st n).state := rfl
      rw [takeJobEnd, hheard, hsame]
      obtain h | h := hstate <;> rw [h]
    rw [htake] at hexec
    obtain ⟨hframe, hothers, hended, hidle, hgrants⟩ := endJob_opens_result (n := n)
      (s := s.modSt n (Station.heard s.clock)) (by rw [hheard]; exact hstate)
    rw [hheard] at hended hidle
    refine ⟨_, hexec, ⟨fun m hm => (hothers m hm).trans (st_modSt_ne s _ hm), ?_⟩, by rw [hended, entered_state], ?_, hidle,
      ?_, hgrants⟩
    · rw [hframe]
      rfl
    · rw [hended, entered_job]
      rfl
    · rw [hended, entered_inPath]
      rfl
  · have hexec := exec_jobEnd (outcome := outcome) hp (by rw [hstate]; exact StationState.noConfusion)
      (by rw [hstate]; exact StationState.noConfusion)
    have hheard : (s.modSt n (Station.heard s.clock)).st n = (s.st n).heard s.clock := st_modSt_self _ _ _
    have htake : takeJobEnd n (s.modSt n (Station.heard s.clock)) = protocolFault n (s.modSt n (Station.heard s.clock)) := by
      have hsame : ((s.st n).heard s.clock).state = .opened := hstate
      rw [takeJobEnd, hheard, hsame]
    obtain ⟨honly, hst, -⟩ := heard_faulted (s := s) (n := n)
    refine ⟨_, hexec.trans (congrArg _ htake), honly, ?_⟩
    rw [hst]
    exact ⟨hstate, rfl⟩
  · have hexec := exec_jobEnd (outcome := outcome) hp (by rw [hstate]; exact StationState.noConfusion)
      (by rw [hstate]; exact StationState.noConfusion)
    have hheard : (s.modSt n (Station.heard s.clock)).st n = (s.st n).heard s.clock := st_modSt_self _ _ _
    have hsame : ((s.st n).heard s.clock).state = .jammedSession := hstate
    have htake : takeJobEnd n (s.modSt n (Station.heard s.clock)) =
        s.modSt n (fun x => (x.heard s.clock).jobEnded) := by
      rw [takeJobEnd, hheard, hsame]
      dsimp only
      have hsome : ((s.st n).heard s.clock).job.isSome = true := hjob
      rw [if_pos hsome, endJob, hheard, hsame, if_neg (by simp), modSt_modSt]
      rfl
    refine ⟨_, hexec.trans (congrArg _ htake), (atStation_modSt s n _).onlyAt, ?_⟩
    rw [st_modSt_self]
    exact ⟨hstate, rfl, rfl⟩

end Sys2Proof.Machine
end

section
/-! PROOF. The ends of a drain (R27), and the records that bring a station out of DOWN and SUSPENDED (R8, R10, R162). -/

namespace Sys2Proof.Machine

/-! ## What the end of a drain finds -/

theorem settles_seqKnown (ses : Session) (x : Station) : (x.settles ses).seqKnown = x.seqKnown := by
  unfold Station.settles
  dsimp only
  repeat' split
  all_goals simp [Station.settled]

theorem settles_identity (ses : Session) (x : Station) : (x.settles ses).identity = x.identity := by
  unfold Station.settles
  dsimp only
  repeat' split
  all_goals simp [Station.settled]

theorem Quiet.unposted {ses : Session} {s v : State} (h : Quiet s v) : Unposted ses s v :=
  ⟨h.clock, h.log, fun hs => by rw [h.accounts]; exact hs, fun _ i => ⟨(s.account i).sides, h.account i⟩,
    fun _ i _ => h.account i⟩

/-- A drain that ends: the session has been counted and credited, and nothing posted. -/
theorem settling_drained {reason : EndReason} {n : StationId} {ses cur : Session} {x : Station} {s v : State}
    (hclosing : (s.st n).state = .closing) (hend : ses.endReason = some reason) (hu : Unposted ses s v)
    (hsession : (v.st n).session = some cur) (hopening : SameOpening cur ses)
    (hcur : cur.endReason = ses.endReason ∧ cur.funding = ses.funding)
    (htariff : (v.st n).tariff.active = (s.st n).tariff.active) (hpath : (v.st n).inPath = [])
    (hstate : (v.st n).state = .closing)
    (hx : ∀ kind, (v.st n).settledState kind reason = x.settledState kind reason) :
    Settling reason n ses cur x s v := by
  have hnone : (s.st n).openTopup = [] := if_pos hclosing
  refine ⟨hsession, hcur.1.trans hend, hopening, ?_, hu.clock, htariff, hu.log, hu.tables, hu.accounts, hu.unfunded, hpath,
    by rw [hstate]; rfl, fun hne => absurd hnone hne, hx⟩
  rw [hnone, withVoided_nil]
  exact hcur.2

/-! ## Notices that a settlement leaves pending -/

section
variable {src : NoticeSource} {n : StationId} {s : State}

theorem Raised.modSt (h : Raised src n s) (m : StationId) (f : Station → Station) : Raised src n (s.modSt m f) := h

theorem Raised.enterIdle (h : Raised src n s) (q : Bool) (m : StationId) : Raised src n (enterIdle q m s) := by
  unfold Machine.enterIdle enterService
  split
  · exact Raised.enter (Raised.raiseMask (h.modSt m _) .service _) q .service m
  · split
    · exact Raised.enter (h.raiseMask .service _) q .service m
    · split
      · exact h.enter q .authorizing m
      · exact h.enter q .idle m

theorem Raised.joinLog (h : Raised src n s) (body : LogBody) (k : Nat) : Raised src n (joinLog body k s) := by
  unfold Machine.joinLog
  dsimp only
  split
  · exact Raised.logLowCheck (Raised.raiseMask (Raised.notices h rfl) .settlement 0#16)
  · exact Raised.logLowCheck (Raised.notices h rfl)

theorem Raised.settledLog (h : Raised src n s) (m : StationId) (ses : Session) : Raised src n (settledLog m ses s) := by
  have hpost : ∀ charge, Raised src n (postCharge m ses charge s) := fun charge => by
    unfold postCharge
    split
    · rw [requestPosting_rest]
      exact Raised.notices h rfl
    · exact h
    · exact h
  unfold Machine.settledLog offerReserved
  dsimp only
  split
  · exact (hpost _).joinLog _ _
  · exact hpost _

/-- A settlement takes no station out of a notice's bitmap. -/
theorem Raised.settle (h : Raised src n s) (m : StationId) : Raised src n (settle m s) := by
  cases hses : (s.st m).session with
  | none => rw [settle_none hses]; exact h
  | some ses =>
    have hrecord : Raised src n (settleRecord m s) := by
      rw [settleRecord_eq hses]
      exact Raised.notices (h.settledLog m ses) rfl
    unfold Machine.settle
    rw [hses]
    dsimp only
    split
    · exact Raised.enter (hrecord.modSt m _) false .disabled m
    · split
      · exact Raised.enter (hrecord.modSt m _) false .jammedFree m
      · split
        · exact hrecord.enter false .jammedFree m
        · split
          · exact hrecord.enter false .down m
          · exact hrecord.enterIdle false m

end

/-! ## The ends of a drain (R27) -/

section
variable {reason : EndReason} {n : StationId} {ses : Session} {s : State}

/-- The drain timer's expiry. -/
theorem settling_drainExpiry (hclosing : (s.st n).state = .closing) (hses : (s.st n).session = some ses)
    (hend : ses.endReason = some reason) :
    Settling reason n ses (ses.creditSheets (s.st n).inPath) (s.st n) s (credit n s) := by
  have hst : (credit n s).st n = (s.st n).credited := st_credit n s
  refine settling_drained hclosing hend (unposted_credit rfl rfl fun i hi => ?_) ?_
    ⟨rfl, rfl, ⟨rfl, rfl⟩, ⟨rfl, rfl, rfl⟩, rfl, rfl⟩ ⟨rfl, rfl⟩ ?_ ?_ ?_ fun kind => ?_
  · rw [hses] at hi
    exact Option.some.inj hi
  · rw [hst]
    show (s.st n).session.map _ = _
    rw [hses]
    rfl
  · rw [hst]; rfl
  · rw [hst]; rfl
  · rw [hst]; exact hclosing
  · rw [hst]
    exact settledState_congr rfl rfl rfl rfl rfl rfl rfl kind reason

/-- The session of a drain once the last sheet has exited (R47). -/
def Session.exitedAt (clock m : Nat) (ses : Session) : Session := Session.exited m { ses with lastActivity := clock }

/-- An EXITED record that empties the path. -/
theorem settling_exited {sheet : Nat} (hclosing : (s.st n).state = .closing) (hses : (s.st n).session = some ses)
    (hend : ses.endReason = some reason) (hall : ∀ e ∈ (s.st n).inPath, atOrBefore e.number sheet = true) :
    Settling reason n ses (ses.exitedAt s.clock (s.st n).inPath.length) { s.st n with silence := 0 } s
      (s.modSt n (fun x => (x.heard s.clock).exits sheet)) := by
  have hleft : (s.st n).inPath.dropWhile (fun e => atOrBefore e.number sheet) = [] := List.dropWhile_eq_nil_iff.mpr hall
  have hst : (s.modSt n (fun x => (x.heard s.clock).exits sheet)).st n = ((s.st n).heard s.clock).exits sheet :=
    st_modSt_self _ _ _
  refine settling_drained hclosing hend (atStation_modSt s n _).quiet.unposted ?_
    ⟨rfl, rfl, ⟨rfl, rfl⟩, ⟨rfl, rfl, rfl⟩, rfl, rfl⟩ ⟨rfl, rfl⟩ ?_ ?_ ?_ fun kind => ?_
  · rw [hst]
    show ((s.st n).session.map _).map (Session.exited ((s.st n).inPath.length -
      ((s.st n).inPath.dropWhile (fun e => atOrBefore e.number sheet)).length)) = _
    rw [hses, hleft]
    rfl
  · rw [hst]; rfl
  · rw [hst]; exact hleft
  · rw [hst]; exact hclosing
  · rw [hst]
    exact settledState_congr rfl rfl rfl rfl rfl rfl rfl kind reason

/-- The session of a drain that a JAM ends (R159). -/
def Session.jammedAt (clock : Nat) (sheets : List Sheet) (ses : Session) : Session :=
  Session.creditSheets sheets { ses with lastActivity := clock, jamCount := satAdd 255 ses.jamCount 1 }

/-- The station whose JAM has been counted (R148). -/
def Station.jamCounted (report : JamReport) (x : Station) : Station :=
  { x with
    counters := { x.counters with jams := satAdd max32 x.counters.jams 1 }
    lastJam := some report }

/-- The jam report as a JAM record starts it (R148). -/
def startedReport (location sheets : Nat) (s : State) : JamReport :=
  { location := location, sheetsInPath := sheets, time := s.clock, clockSet := s.clockSet, sheets := 0, sides := 0, mills := 0 }

/-- The station whose path a jam has credited (R149, R152, R159). -/
def Station.jamCredited (x : Station) : Station :=
  { ({ x with session := x.session.map (fun ses => { ses with jamCount := satAdd 255 ses.jamCount 1 }) } : Station).credited with
    lastJam := x.lastJam.map (JamReport.add x.inPath) }

@[simp] theorem st_creditJam (n : StationId) (s : State) : (creditJam n s).st n = (s.st n).jamCredited := by
  unfold creditJam
  rw [st_modSt_self, st_credit, modSession, st_modSt_self]
  rfl

/-- Before a jam credits the path, its own station alone has changed. -/
theorem unposted_creditJam {u : State} (hat : AtStation n s u)
    (hfunding : ∀ i, (u.st n).session.map Session.funding = some (.account i) → ses.funding = .account i) :
    Unposted ses s (creditJam n u) := by
  refine unposted_credit (n := n) (u := modSession n (fun ses => { ses with jamCount := satAdd 255 ses.jamCount 1 }) u)
    (hat.trans (atStation_modSt u n _)).quiet (by unfold creditJam; exact (atStation_modSt _ n _).quiet)
    fun i hi => hfunding i ?_
  rw [← hi, modSession, st_modSt_self]
  show _ = ((u.st n).session.map _).map _
  rw [Option.map_map]
  rfl

/-- The station that a JAM has reached in CLOSING (R159). -/
def Station.jamsInClosing (report : JamReport) (x : Station) : Station :=
  { (x.jamCounted report).jamCredited with jamDuringClose := true, drainTimer := none }

/-- The state in which a JAM settles a session in CLOSING (R159). -/
def drainJammed (location sheets : Nat) (n : StationId) (s : State) : State :=
  raiseFor .jam n ((creditJam n (reportJam location sheets n (s.modSt n (Station.heard s.clock)))).modSt n
    (fun x => { x with jamDuringClose := true, drainTimer := none }))

theorem st_drainJammed (location sheets : Nat) (n : StationId) (s : State) : (drainJammed location sheets n s).st n =
    ((s.st n).heard s.clock).jamsInClosing (startedReport location sheets s) := by
  rw [drainJammed, st_raiseFor, st_modSt_self, st_creditJam, reportJam, st_modSt_self, st_modSt_self]
  rfl

/-- A JAM in CLOSING. -/
theorem settling_drainJammed (location sheets : Nat) (hclosing : (s.st n).state = .closing)
    (hses : (s.st n).session = some ses) (hend : ses.endReason = some reason) :
    Settling reason n ses (ses.jammedAt s.clock (s.st n).inPath) { s.st n with silence := 0, jamDuringClose := true } s
      (drainJammed location sheets n s) := by
  have hst := st_drainJammed location sheets n s
  have hat : AtStation n s (reportJam location sheets n (s.modSt n (Station.heard s.clock))) :=
    (atStation_modSt s n _).trans (atStation_modSt _ n _)
  have hun : Unposted ses s (creditJam n (reportJam location sheets n (s.modSt n (Station.heard s.clock)))) := by
    refine unposted_creditJam hat fun i hi => ?_
    rw [reportJam, st_modSt_self, st_modSt_self] at hi
    have hi' : ((s.st n).session.map (fun ses => { ses with lastActivity := s.clock })).map Session.funding =
        some (.account i) := hi
    rw [hses] at hi'
    exact Option.some.inj hi'
  refine settling_drained hclosing hend ⟨hun.clock, hun.log, hun.tables, hun.accounts, hun.unfunded⟩ ?_
    ⟨rfl, rfl, ⟨rfl, rfl⟩, ⟨rfl, rfl, rfl⟩, rfl, rfl⟩ ⟨rfl, rfl⟩ ?_ ?_ ?_ fun kind => ?_
  · rw [hst]
    show (((s.st n).session.map _).map _).map _ = _
    rw [hses]
    rfl
  · rw [hst]; rfl
  · rw [hst]; rfl
  · rw [hst]; exact hclosing
  · rw [hst]
    exact settledState_congr rfl rfl rfl rfl rfl rfl rfl kind reason

/-- The station that an ANNOUNCE has reached (R4, R37). -/
def Station.announced (model classes capacity : Nat) (x : Station) : Station :=
  { x with
    silence := 0
    identity := { model := some model, classes := BitVec.ofNat 4 classes, capacity := some capacity }
    seqKnown := false }

/-- The state in which an ANNOUNCE settles a session in CLOSING. -/
def drainAnnounced (model classes capacity : Nat) (n : StationId) (s : State) : State :=
  (credit n (s.modSt n (Station.announced model classes capacity))).modSt n (fun x => { x with drainTimer := none })

/-- The path that an ANNOUNCE credits draws on the session as it stood. -/
theorem unposted_announced (model classes capacity : Nat) (hses : (s.st n).session = some ses) :
    Unposted ses s (credit n (s.modSt n (Station.announced model classes capacity))) := by
  refine unposted_credit (n := n) (u := s.modSt n (Station.announced model classes capacity)) (atStation_modSt s n _).quiet rfl
    fun i hi => ?_
  rw [st_modSt_self] at hi
  have hi' : (s.st n).session.map Session.funding = some (.account i) := hi
  rw [hses] at hi'
  exact Option.some.inj hi'

/-- An ANNOUNCE in CLOSING. -/
theorem settling_drainAnnounced (model classes capacity : Nat) (hclosing : (s.st n).state = .closing)
    (hses : (s.st n).session = some ses) (hend : ses.endReason = some reason) :
    Settling reason n ses (ses.creditSheets (s.st n).inPath) { s.st n with silence := 0 } s
      (drainAnnounced model classes capacity n s) := by
  have hst : (drainAnnounced model classes capacity n s).st n =
      { ((s.st n).announced model classes capacity).credited with drainTimer := none } := by
    rw [drainAnnounced, st_modSt_self, st_credit, st_modSt_self]
  have hun := unposted_announced model classes capacity hses
  refine settling_drained hclosing hend ⟨hun.clock, hun.log, hun.tables, hun.accounts, hun.unfunded⟩ ?_
    ⟨rfl, rfl, ⟨rfl, rfl⟩, ⟨rfl, rfl, rfl⟩, rfl, rfl⟩ ⟨rfl, rfl⟩ ?_ ?_ ?_ fun kind => ?_
  · rw [hst]
    show (s.st n).session.map _ = _
    rw [hses]
    rfl
  · rw [hst]; rfl
  · rw [hst]; rfl
  · rw [hst]; exact hclosing
  · rw [hst]
    exact settledState_congr rfl rfl rfl rfl rfl rfl rfl kind reason

end

/-! ## The records -/

/-- What an ANNOUNCE does at a station that is up (R4, R37). -/
theorem exec_announce {s : State} {n : StationId} {model : BitVec 16} {classes capacity : Byte}
    (hp : (s.st n).passage = none) (hd : (s.st n).state ≠ .down) (hs : (s.st n).state ≠ .suspended) :
    exec (.announce n model classes capacity) s = .next (
      let u := s.modSt n (Station.announced model.toNat classes.toNat capacity.toNat)
      if (s.st n).inPath.isEmpty then u
      else if (s.st n).state = .closing then settle n (drainAnnounced model.toNat classes.toNat capacity.toNat n s)
      else credit n u) := by
  refine congrArg Host.Outcome.next ?_
  show takeAnnounce model.toNat classes.toNat capacity.toNat n (arrive n s) = _
  rw [arrive_up hp hd hs, takeAnnounce, modSt_modSt]
  dsimp only
  rw [st_modSt_self]
  rfl

/-- What a JAM does in CLOSING (R159). -/
theorem exec_jam_closing {s : State} {n : StationId} {location sheets : Byte} (hp : (s.st n).passage = none)
    (hclosing : (s.st n).state = .closing) :
    exec (.jam n location sheets) s = .next (settle n (drainJammed location.toNat sheets.toNat n s)) := by
  refine congrArg Host.Outcome.next ?_
  show takeJam location.toNat sheets.toNat n (activity n (arrive n s)) = _
  rw [activity_arrive hp (by rw [hclosing]; exact StationState.noConfusion)
    (by rw [hclosing]; exact StationState.noConfusion), takeJam, st_modSt_self]
  have hsame : ((s.st n).heard s.clock).state = .closing := hclosing
  rw [hsame]
  rfl

/-- Settles O18: each end of a drain settles the session. -/
theorem drainExpirySettles : Obligations.DrainExpirySettles := by
  unfold Obligations.DrainExpirySettles
  refine ⟨fun s n ses reason hclosing htimer hses hend hroom => ?_, fun s n ses reason hclosing hp hses hend hroom =>
    ⟨fun sheet hjob hpath => ⟨fun hall => ?_, fun hleft => ?_⟩, fun location sheets => ?_,
      fun model classes capacity hpath => ?_⟩⟩
  · have hsettling := settling_drainExpiry hclosing hses hend
    exact ⟨_, _, if_pos ⟨htimer, hclosing⟩, hsettling.takes hroom, hsettling.settled, credited_record rfl, rfl,
      fun m hm => ((internal_settle n _).others m hm).trans (credit_others s hm)⟩
  · have hsettling := settling_exited hclosing hses hend hall
    have hleft : (s.st n).inPath.dropWhile (fun e => atOrBefore e.number sheet.toNat) = [] :=
      List.dropWhile_eq_nil_iff.mpr hall
    have hheard : (s.modSt n (Station.heard s.clock)).st n = (s.st n).heard s.clock := st_modSt_self _ _ _
    have hst : (s.modSt n (fun x => (x.heard s.clock).exits sheet.toNat)).st n =
        ((s.st n).heard s.clock).exits sheet.toNat := st_modSt_self _ _ _
    have htake : takeExited sheet.toNat n (s.modSt n (Station.heard s.clock)) =
        settle n (s.modSt n (fun x => (x.heard s.clock).exits sheet.toNat)) := by
      rw [takeExited, exitUpTo_eq sheet.toNat n _ _ le_rfl (by rw [hheard]; exact fun j hj => nomatch hjob.symm.trans hj),
        modSt_modSt, hheard]
      refine if_pos ?_
      rw [hst]
      exact ⟨hclosing, hleft, List.length_pos_iff.mpr hpath⟩
    have hlen : 0 < (s.st n).inPath.length := List.length_pos_iff.mpr hpath
    refine ⟨_, _, (exec_exited hp (.inr (.inr (.inr (.inr hclosing))))).trans (congrArg _ htake), hsettling.takes hroom,
      hsettling.settled, ⟨rfl, rfl, rfl, rfl⟩, rfl, ?_, fun m hm => ((internal_settle n _).others m hm).trans
        (st_modSt_ne s _ hm)⟩
    show exitedCount ses.sheetsExited (s.st n).inPath.length = _
    rw [exitedCount, if_neg hlen.ne']
    rfl
  · have hheard : (s.modSt n (Station.heard s.clock)).st n = (s.st n).heard s.clock := st_modSt_self _ _ _
    have hne : (s.st n).inPath.dropWhile (fun e => atOrBefore e.number sheet.toNat) ≠ [] := fun h => by
      obtain ⟨e, he, hbeyond⟩ := hleft
      rw [List.dropWhile_eq_nil_iff.mp h e he] at hbeyond
      exact Bool.false_ne_true hbeyond.symm
    have htake := takeExited_eq (sheet := sheet.toNat) (n := n) (s := s.modSt n (Station.heard s.clock))
      (by rw [hheard]; exact fun j hj => nomatch hjob.symm.trans hj) (.inr (by rw [hheard]; exact hne))
    rw [modSt_modSt] at htake
    have hst : (s.modSt n (fun x => (x.heard s.clock).exits sheet.toNat)).st n =
        ((s.st n).heard s.clock).exits sheet.toNat := st_modSt_self _ _ _
    refine ⟨_, (exec_exited hp (.inr (.inr (.inr (.inr hclosing))))).trans (congrArg _ htake), rfl,
      fun m hm => st_modSt_ne s _ hm, ?_⟩
    rw [hst]
    refine ⟨hclosing, rfl, rfl, ?_, ?_⟩
    · show (((s.st n).session.map _).map _).map _ = _
      rw [hses, ← hend]
      rfl
    · show (((s.st n).session.map _).map _).map _ = _
      rw [hses]
      rfl
  · have hsettling := settling_drainJammed location.toNat sheets.toNat hclosing hses hend
    have hst : (settle n (drainJammed location.toNat sheets.toNat n s)).st n =
        (((s.st n).heard s.clock).jamsInClosing (startedReport location.toNat sheets.toNat s)).settles
          (ses.jammedAt s.clock (s.st n).inPath) := by
      rw [st_settle hsettling.session, st_drainJammed]
    obtain ⟨hpending, hmask⟩ := Raised.settle (raiseFor_raised .jam n _ : Raised .jam n
      (drainJammed location.toNat sheets.toNat n s)) n
    refine ⟨_, _, exec_jam_closing hp hclosing, hsettling.takes hroom, hsettling.settled, rfl, credited_record rfl, ?_, ?_,
      ?_, hpending, hmask, fun m hm => ((internal_settle n _).others m hm).trans ?_⟩
    · rw [hst, settles_jamDuringClose]
    · rw [hst, settles_lastJam]
      rfl
    · rw [hst, settles_counters]
      rfl
    · rw [drainJammed, st_raiseFor, st_modSt_ne _ _ hm, creditJam, st_modSt_ne _ _ hm, credit_others _ hm, modSession,
        st_modSt_ne _ _ hm, reportJam, st_modSt_ne _ _ hm, st_modSt_ne _ _ hm]
  · have hsettling := settling_drainAnnounced model.toNat classes.toNat capacity.toNat hclosing hses hend
    have hexec := exec_announce (model := model) (classes := classes) (capacity := capacity) hp
      (by rw [hclosing]; exact StationState.noConfusion) (by rw [hclosing]; exact StationState.noConfusion)
    dsimp only at hexec
    rw [if_neg (by simpa [List.isEmpty_iff] using hpath), if_pos hclosing] at hexec
    have hst : (settle n (drainAnnounced model.toNat classes.toNat capacity.toNat n s)).st n =
        ({ ((s.st n).announced model.toNat classes.toNat capacity.toNat).credited with drainTimer := none } :
          Station).settles (ses.creditSheets (s.st n).inPath) := by
      rw [st_settle hsettling.session, drainAnnounced, st_modSt_self, st_credit, st_modSt_self]
    refine ⟨_, _, hexec, hsettling.takes hroom, hsettling.settled, credited_record rfl, rfl, ?_, ?_,
      fun m hm => ((internal_settle n _).others m hm).trans ?_⟩
    · rw [hst, settles_seqKnown]
      rfl
    · rw [hst, settles_identity]
      rfl
    · rw [drainAnnounced, st_modSt_ne _ _ hm, credit_others _ hm, st_modSt_ne _ _ hm]

/-! ## STATUS and ANNOUNCE outside CLOSING -/

/-- Resumption in a prior state changes its station alone (R162). -/
theorem resume_result {n : StationId} {s : State} {p : StationState} (hprior : (s.st n).prior = some p) :
    resume n s = { s with stations := (resume n s).stations } ∧
      (resume n s).st n = { Station.entering p (s.st n) with
        prior := none
        recoveryTimer := if p = .jammedSession then (s.st n).recoveryTimer else none
        sendList := ((resume n s).st n).sendList } := by
  have hat := atStation_resume n s
  have heq : resume n s = statePanel n (s.modSt n (fun y => { Station.entering p y with
      prior := none
      recoveryTimer := if p = .jammedSession then y.recoveryTimer else none })) := by rw [resume, hprior]
  refine ⟨?_, ?_⟩
  · have hnotices : (resume n s).notices = s.notices := by
      rw [heq, statePanel_notices]
      rfl
    rw [hat.rest, hnotices]
  · rw [heq, st_statePanel, st_modSt_self]

/-- Settles O44: STATUS and ANNOUNCE. -/
theorem announceAndStatusResults : Obligations.AnnounceAndStatusResults := by
  unfold Obligations.AnnounceAndStatusResults
  refine ⟨fun s n hp => ⟨fun hd hs => congrArg Host.Outcome.next (arrive_up hp hd hs), fun hd => ?_, fun p hs hprior => ?_⟩,
    fun s n model classes capacity hp hd hs hpath => ?_, fun s n model classes capacity ses hp hd hs hc hpath hses => ?_⟩
  · have harrive : arrive n s = enterIdle false n (s.modSt n (fun x => { x with silence := 0 })) := by
      unfold arrive
      rw [finishPassage_none (by rw [st_modSt_self]; exact hp)]
      dsimp only
      rw [st_modSt_self]
      exact if_pos hd
    refine ⟨_, congrArg Host.Outcome.next harrive, ((atStation_modSt s n _).trans (atStation_enterIdle false n _)).onlyAt, ?_⟩
    rw [st_enterIdle, st_modSt_self, idled_silence, idled_state]
    exact ⟨rfl, rfl⟩
  · have harrive : arrive n s = resume n (s.modSt n (fun x => { x with silence := 0 })) := by
      unfold arrive
      rw [finishPassage_none (by rw [st_modSt_self]; exact hp)]
      dsimp only
      rw [st_modSt_self, if_neg (by rw [hs]; exact StationState.noConfusion)]
      exact if_pos hs
    obtain ⟨hframe, hst⟩ := resume_result (n := n) (s := s.modSt n (fun x => { x with silence := 0 })) (p := p)
      (by rw [st_modSt_self]; exact hprior)
    rw [st_modSt_self] at hst
    refine ⟨_, congrArg Host.Outcome.next harrive, ?_, fun m hm => ((atStation_resume n _).others m hm).trans
      (st_modSt_ne s _ hm), ?_⟩
    · rw [hframe]
      rfl
    · rw [hst]
      refine ⟨rfl, rfl, rfl, rfl, rfl, rfl, ?_, rfl⟩
      show (if p.idleRuns = true then some (s.st n).settings.idleTime else none) = _
      cases p <;> rfl
  · rw [exec_announce hp hd hs]
    dsimp only
    rw [hpath]
    rfl
  · have hexec := exec_announce (model := model) (classes := classes) (capacity := capacity) hp hd hs
    dsimp only at hexec
    rw [if_neg (by simpa [List.isEmpty_iff] using hpath), if_neg hc] at hexec
    have hst : (credit n (s.modSt n (Station.announced model.toNat classes.toNat capacity.toNat))).st n =
        ((s.st n).announced model.toNat classes.toNat capacity.toNat).credited := by rw [st_credit, st_modSt_self]
    refine ⟨_, hexec, fun m hm => ?_, (unposted_announced _ _ _ hses).log, ?_⟩
    · rw [credit_others _ hm, st_modSt_ne _ _ hm]
    · rw [hst]
      refine ⟨rfl, rfl, rfl, rfl, ?_, ?_⟩
      · show ((s.st n).session.map _).map _ = _
        rw [hses]
        rfl
      · show ((s.st n).job.map _).map _ = _
        rw [Option.map_map]
        rfl

end Sys2Proof.Machine
end

section
/-! PROOF. JAM and CLEARED records (R148 to R157): the path's credit on a jam, the jam limit, and the reprint grant. -/

namespace Sys2Proof.Machine

/-! ## Settlements after a credit -/

/-- What a settlement finds is counted from a state since which nothing has been posted, and where the session was opened
alike. -/
theorem Settling.after {reason : EndReason} {n : StationId} {ses ses₀ cur : Session} {x x₀ : Station} {s₀ s v : State}
    (h : Settling reason n ses cur x s v) (hu : Unposted ses₀ s₀ s) (hses : SameOpening ses ses₀)
    (hfunding : ses.funding = ses₀.funding) (htopup : (s.st n).openTopup = (s₀.st n).openTopup)
    (htariff : (s.st n).tariff.active = (s₀.st n).tariff.active)
    (hx : ∀ kind, x.settledState kind reason = x₀.settledState kind reason) :
    Settling reason n ses₀ cur x₀ s₀ v where
  session := h.session
  ends := h.ends
  opening := h.opening.trans hses
  funding := by rw [h.funding, hfunding, htopup]
  clock := ⟨h.clock.1.trans hu.clock.1, h.clock.2.trans hu.clock.2⟩
  tariff := h.tariff.trans htariff
  log := h.log.trans hu.log
  tables hs := h.tables (hu.tables hs)
  accounts hs i := by
    obtain ⟨sides, hv⟩ := h.accounts (hu.tables hs) i
    obtain ⟨before, hs'⟩ := hu.accounts hs i
    exact ⟨sides, by rw [hv, hs']⟩
  unfunded hs i hi := by
    rw [h.unfunded (hu.tables hs) i (by rw [hfunding]; exact hi), hu.unfunded hs i hi]
  path := h.path
  hasSession := h.hasSession
  fetched hne := h.fetched (by rw [htopup]; exact hne)
  state kind := (h.state kind).trans (hx kind)

/-- A credit of no sheet leaves the session's figures. -/
theorem creditSheets_nil (ses : Session) (sheets : List Sheet) :
    (ses.creditSheets sheets).creditSheets [] = ses.creditSheets sheets := by
  have hcredited : satAdd maxMoney (satAdd maxMoney ses.credited (millsSum sheets)) 0 =
      satAdd maxMoney ses.credited (millsSum sheets) := by simp [satAdd]
  have hsheets : satAdd max32 (satAdd max32 ses.sheetsCredited sheets.length) 0 =
      satAdd max32 ses.sheetsCredited sheets.length := by simp [satAdd]
  have hsides : (Vector.ofFn fun c : Fin 4 => (ses.creditSheets sheets).sideCounts[c] - chargedOf [] c) =
      (ses.creditSheets sheets).sideCounts := by
    ext i hi
    rw [Vector.getElem_ofFn]
    rfl
  show ({ ses.creditSheets sheets with
    gross := _, credited := satAdd maxMoney (satAdd maxMoney ses.credited (millsSum sheets)) 0
    sideCounts := Vector.ofFn fun c : Fin 4 => (ses.creditSheets sheets).sideCounts[c] - chargedOf [] c
    sheetsCredited := satAdd max32 (satAdd max32 ses.sheetsCredited sheets.length) 0 } : Session) = _
  rw [hcredited, hsheets, hsides]
  rfl

/-! ## A jam taken in a session (R149, R152) -/

/-- A jam has been counted and credited at station `n` between `s` and `u`, before its limit is judged. -/
structure JamTaken (location : Nat) (n : StationId) (ses : Session) (s u : State) : Prop where
  unposted : Unposted ses s u
  others : ∀ m, m ≠ n → u.st m = s.st m
  session : (u.st n).session = some (ses.jammedAt s.clock (s.st n).inPath)
  path : (u.st n).inPath = []
  state : (u.st n).state = .jammedSession
  slot : (u.st n).slot = (s.st n).slot
  tariff : (u.st n).tariff.active = (s.st n).tariff.active
  flags : (u.st n).disablePending = (s.st n).disablePending ∧ (u.st n).jamDuringClose = (s.st n).jamDuringClose ∧
    (u.st n).serviceDue = (s.st n).serviceDue
  silence : (u.st n).silence = 0
  settings : (u.st n).settings = (s.st n).settings
  audit : (u.st n).audit = (s.st n).audit
  report : (u.st n).lastJam.map JamReport.location = some location
  raised : Raised .jam n u

section
variable {location sheets : Nat} {n : StationId} {ses : Session} {s u w : State}

/-- A jam at its limit settles the session (R149, R151). -/
theorem JamTaken.settles (h : JamTaken location n ses s u) (hend : ses.endReason = none) (hcount : ses.jamCount < 255)
    (hlimit : (s.st n).settings.jamLimit ≤ ses.jamCount + 1) (hstate : (s.st n).state ≠ .closing)
    (hroom : s.log.records.length < 256) :
    ∃ r, (∀ m, m ≠ n → (jamLimit n u).st m = s.st m) ∧ TakesRecord s (jamLimit n u) r ∧
      Settled .jamLimit n ses { s.st n with silence := 0 } s (jamLimit n u) r ∧ Credited (s.st n).inPath ses r ∧
      r.jamCount = ses.jamCount + 1 ∧ ((s.st n).disablePending = false →
        ((jamLimit n u).st n).state = .jammedFree ∧ ((jamLimit n u).st n).serviceDue = true) := by
  have hjams : satAdd 255 ses.jamCount 1 = ses.jamCount + 1 := Nat.min_eq_right hcount
  have heq : jamLimit n u = settleNow .jamLimit n u := by
    rw [jamLimit, h.session]
    refine if_pos ?_
    rw [h.settings]
    show (s.st n).settings.jamLimit ≤ satAdd 255 ses.jamCount 1
    rw [hjams]
    exact hlimit
  have hclosing : (u.st n).state ≠ .closing := by rw [h.state]; exact StationState.noConfusion
  have hnow := settling_closeAtOnce (reason := .jamLimit) h.session hend (by rw [h.state]; rfl) hclosing
  have hsettling := hnow.after (x₀ := { s.st n with silence := 0 }) h.unposted
    ⟨rfl, rfl, ⟨rfl, rfl⟩, ⟨rfl, rfl, rfl⟩, rfl, rfl⟩ rfl
    (by rw [openTopup_eq hclosing, openTopup_eq hstate, h.slot]) h.tariff
    fun kind => settledState_congr (y := { s.st n with silence := 0 }) h.flags.1 h.flags.2.1 h.silence h.flags.2.2 h.settings h.audit
      (congrArg Slot.isRequested h.slot) kind .jamLimit
  rw [h.path] at hsettling
  rw [heq]
  refine ⟨_, fun m hm => ((internal_settleNow _ n u).others m hm).trans (h.others m hm), hsettling.takes hroom,
    hsettling.settled, credited_record ?_, ?_, fun hoff => ?_⟩
  · have hnil : (ses.jammedAt s.clock (s.st n).inPath).creditSheets [] = ses.jammedAt s.clock (s.st n).inPath :=
      creditSheets_nil _ _
    rw [Session.endedAtOnce, hnil]
    rfl
  · exact hjams
  · have hst := st_settle hsettling.session
    have hoff' : ((closeAtOnce .jamLimit n u).st n).disablePending = false := by
      rw [st_closeAtOnce]
      exact ((topupVoided_disablePending _).trans h.flags.1).trans hoff
    rw [settleNow, hst]
    unfold Station.settles
    rw [hsettling.ends, hoff']
    exact ⟨entered_state _ _, entered_serviceDue _ _⟩

/-- A jam below its limit leaves the session in JAMMED (R149). -/
theorem JamTaken.stays (h : JamTaken location n ses s u) (hcount : ses.jamCount + 1 < (s.st n).settings.jamLimit)
    (hnine : (s.st n).settings.jamLimit ≤ 9) : jamLimit n u = u ∧ (u.st n).session.map Session.jamCount = some (ses.jamCount + 1) := by
  have hjams : satAdd 255 ses.jamCount 1 = ses.jamCount + 1 := Nat.min_eq_right (by omega)
  refine ⟨?_, ?_⟩
  · rw [jamLimit, h.session]
    refine if_neg ?_
    rw [h.settings]
    show ¬ (s.st n).settings.jamLimit ≤ satAdd 255 ses.jamCount 1
    omega
  · rw [h.session, ← hjams]
    rfl

/-- The state `w` stands for `s` when a jam is taken in OPEN, CONFIRMING, RUNNING or STARVED: the record has been heard and
counted, and a pending start may have been dropped. -/
structure JamReported (location sheets : Nat) (n : StationId) (s w : State) : Prop where
  here : AtStation n s w
  station : ∃ pending d timer, w.st n = { ((s.st n).heard s.clock).jamCounted (startedReport location sheets s) with
    startPending := pending, descriptor := d, confirmTimer := timer }

/-- The station that a jam has taken in a session, before it enters JAMMED (R149). -/
def Station.jamsInSession (x : Station) : Station :=
  { x.jamCredited with
    job := x.jamCredited.job.map (fun j => { j with reprint := satAdd 16 j.reprint (chargedSum x.inPath) })
    idleTimer := none
    recoveryTimer := some x.settings.recoveryTime }

/-- The state in which a jam's limit is judged (R149). -/
def jamEntered (n : StationId) (w : State) : State :=
  raiseFor .jam n (enter false .jammedSession n ((allowReprint (chargedSum (w.st n).inPath) n (creditJam n w)).modSt n
    (fun x => { x with idleTimer := none, recoveryTimer := some x.settings.recoveryTime })))

theorem jamInSession_eq (n : StationId) (w : State) : jamInSession n w = jamLimit n (jamEntered n w) := rfl

theorem st_jamEntered (n : StationId) (w : State) : (jamEntered n w).st n = (w.st n).jamsInSession.entered .jammedSession := by
  rw [jamEntered, st_raiseFor, st_enter, st_modSt_self, allowReprint, modJob, st_modSt_self, st_creditJam]
  rfl

theorem JamReported.jamTaken (h : JamReported location sheets n s w) (hses : (s.st n).session = some ses) :
    JamTaken location n ses s (jamEntered n w) := by
  obtain ⟨pending, d, timer, hw⟩ := h.station
  have hst := st_jamEntered n w
  rw [hw] at hst
  have hat : AtStation n (creditJam n w) (jamEntered n w) := by
    unfold jamEntered allowReprint
    exact ((atStation_modSt _ n _).trans (atStation_modSt _ n _)).trans
      ((atStation_enter _ _ _ _).trans (atStation_raise .jam (maskOf n) n _))
  have hun : Unposted ses s (creditJam n w) := by
    refine unposted_creditJam h.here fun i hi => ?_
    rw [hw] at hi
    have hi' : ((s.st n).session.map (fun ses => { ses with lastActivity := s.clock })).map Session.funding =
        some (.account i) := hi
    rw [hses] at hi'
    exact Option.some.inj hi'
  refine ⟨⟨⟨hat.clock.trans hun.clock.1, hat.clockSet.trans hun.clock.2⟩, hat.log.trans hun.log, fun hs => ?_,
    fun hs i => ?_, fun hs i hi => ?_⟩, fun m hm => ?_, ?_, ?_, ?_, ?_, ?_, ⟨?_, ?_, ?_⟩, ?_, ?_, ?_, ?_,
    raiseFor_raised .jam n _⟩
  · rw [hat.accounts]
    exact hun.tables hs
  · rw [hat.account]
    exact hun.accounts hs i
  · rw [hat.account]
    exact hun.unfunded hs i hi
  · rw [hat.others m hm, (internal_creditJam n w).others m hm, h.here.others m hm]
  · rw [hst, entered_session]
    show (((s.st n).session.map _).map _).map _ = _
    rw [hses]
    rfl
  · rw [hst, entered_inPath]; rfl
  · rw [hst, entered_state]
  · rw [hst, entered_slot]; rfl
  · rw [hst, entered_tariff rfl]; rfl
  · rw [hst, entered_disablePending]; rfl
  · rw [hst, entered_jamDuringClose]; rfl
  · rw [hst, entered_serviceDue]; rfl
  · rw [hst, entered_silence]; rfl
  · rw [hst, entered_settings]; rfl
  · rw [hst, entered_audit]; rfl
  · rw [hst, entered_lastJam]; rfl

/-- A jam in a session without JAMMED is taken from a state that stands for the one before it. -/
theorem takeJam_session (location sheets : Nat) (h : (s.st n).state = .opened ∨ (s.st n).state = .confirming ∨
    (s.st n).state = .running ∨ (s.st n).state = .starved) : ∃ w, JamReported location sheets n s w ∧
      takeJam location sheets n (s.modSt n (Station.heard s.clock)) = jamLimit n (jamEntered n w) := by
  have hheard : (s.modSt n (Station.heard s.clock)).st n = (s.st n).heard s.clock := st_modSt_self _ _ _
  have hsame : ((s.st n).heard s.clock).state = (s.st n).state := rfl
  have hst : (reportJam location sheets n (s.modSt n (Station.heard s.clock))).st n =
      ((s.st n).heard s.clock).jamCounted (startedReport location sheets s) := by
    rw [reportJam, st_modSt_self, hheard]
    rfl
  have hat : AtStation n s (reportJam location sheets n (s.modSt n (Station.heard s.clock))) :=
    (atStation_modSt s n _).trans (atStation_modSt _ n _)
  have htake : takeJam location sheets n (s.modSt n (Station.heard s.clock)) =
      jamInSession n (if (s.st n).state = .confirming
        then dropStart n (reportJam location sheets n (s.modSt n (Station.heard s.clock)))
        else reportJam location sheets n (s.modSt n (Station.heard s.clock))) := by
    by_cases hc : (s.st n).state = .confirming
    · rw [if_pos hc, takeJam, hheard, hsame, hc]
    · rw [if_neg hc, takeJam, hheard, hsame]
      obtain h | h | h | h := h
      · rw [h]
      · exact absurd h hc
      · rw [h]
      · rw [h]
  rw [jamInSession_eq] at htake
  refine ⟨_, ?_, htake⟩
  split
  · refine ⟨hat.trans (atStation_modSt _ n _), false, none, none, ?_⟩
    rw [dropStart, st_modSt_self, hst]
  · exact ⟨hat, (s.st n).startPending, (s.st n).descriptor, (s.st n).confirmTimer, hst⟩

/-- A jam in JAMMED with a session (R152). -/
theorem takeJam_jammed (location sheets : Nat) (h : (s.st n).state = .jammedSession) (hses : (s.st n).session = some ses) :
    ∃ u, JamTaken location n ses s u ∧ takeJam location sheets n (s.modSt n (Station.heard s.clock)) = jamLimit n u := by
  have hheard : (s.modSt n (Station.heard s.clock)).st n = (s.st n).heard s.clock := st_modSt_self _ _ _
  have hsame : ((s.st n).heard s.clock).state = .jammedSession := h
  have htake : takeJam location sheets n (s.modSt n (Station.heard s.clock)) =
      jamLimit n (raiseFor .jam n (creditJam n (reportJam location sheets n (s.modSt n (Station.heard s.clock))))) := by
    rw [takeJam, hheard, hsame]
  have hst : (raiseFor .jam n (creditJam n (reportJam location sheets n (s.modSt n (Station.heard s.clock))))).st n =
      (((s.st n).heard s.clock).jamCounted (startedReport location sheets s)).jamCredited := by
    rw [st_raiseFor, st_creditJam, reportJam, st_modSt_self, hheard]
    rfl
  have hun : Unposted ses s (creditJam n (reportJam location sheets n (s.modSt n (Station.heard s.clock)))) := by
    refine unposted_creditJam ((atStation_modSt s n _).trans (atStation_modSt _ n _)) fun i hi => ?_
    rw [reportJam, st_modSt_self, hheard] at hi
    have hi' : ((s.st n).session.map (fun ses => { ses with lastActivity := s.clock })).map Session.funding =
        some (.account i) := hi
    rw [hses] at hi'
    exact Option.some.inj hi'
  refine ⟨raiseFor .jam n (creditJam n (reportJam location sheets n (s.modSt n (Station.heard s.clock)))),
    ⟨⟨hun.clock, hun.log, hun.tables, hun.accounts, hun.unfunded⟩, fun m hm => ?_, ?_, ?_, ?_, ?_, ?_, ⟨?_, ?_, ?_⟩, ?_, ?_, ?_, ?_, raiseFor_raised .jam n _⟩, htake⟩
  · rw [st_raiseFor, (internal_creditJam n _).others m hm, reportJam, st_modSt_ne _ _ hm, st_modSt_ne _ _ hm]
  · rw [hst]
    show (((s.st n).session.map _).map _).map _ = _
    rw [hses]
    rfl
  all_goals rw [hst]
  exacts [rfl, h, rfl, rfl, rfl, rfl, rfl, rfl, rfl, rfl, rfl]

end

/-- The state that a JAM's rule works on. -/
theorem exec_jam {s : State} {n : StationId} {location sheets : Byte} (hp : (s.st n).passage = none)
    (hd : (s.st n).state ≠ .down) (hs : (s.st n).state ≠ .suspended) :
    exec (.jam n location sheets) s =
      .next (takeJam location.toNat sheets.toNat n (s.modSt n (Station.heard s.clock))) := by
  refine congrArg Host.Outcome.next ?_
  show takeJam location.toNat sheets.toNat n (activity n (arrive n s)) = _
  rw [activity_arrive hp hd hs]

/-! ## CLEARED (R155, R156) -/

/-- The state that a CLEARED's rule works on. -/
theorem exec_cleared {s : State} {n : StationId} (hp : (s.st n).passage = none)
    (hd : (s.st n).state ≠ .down) (hs : (s.st n).state ≠ .suspended) :
    exec (.cleared n) s = .next (takeCleared n (s.modSt n (Station.heard s.clock))) := by
  refine congrArg Host.Outcome.next ?_
  show takeCleared n (activity n (arrive n s)) = _
  rw [activity_arrive hp hd hs]

/-- A jam cleared at a station whose session goes on (R155). -/
def jamCleared (new : StationState) (n : StationId) (s : State) : State :=
  enter false new n ((s.modSt n (Station.heard s.clock)).modSt n (fun x => { x with recoveryTimer := none }))

theorem st_jamCleared (new : StationState) (n : StationId) (s : State) : (jamCleared new n s).st n =
    ({ (s.st n).heard s.clock with recoveryTimer := none } : Station).entered new := by
  rw [jamCleared, st_enter, st_modSt_self, st_modSt_self]

theorem atStation_jamCleared (new : StationState) (n : StationId) (s : State) : AtStation n s (jamCleared new n s) :=
  ((atStation_modSt s n _).trans (atStation_modSt _ n _)).trans (atStation_enter _ _ _ _)

/-- The state of a reprint grant stands for the one before the CLEARED. -/
theorem sizedFrom_jamCleared (n : StationId) (s : State) : SizedFrom n s (jamCleared .running n s) :=
  ((sizedFrom_heard n s).trans (sizedFrom_at (atStation_modSt _ n _) (by rw [st_modSt_self]; rfl)
    (by rw [st_modSt_self]) fun k => by rw [st_modSt_self])).trans (sizedFrom_enter _ rfl n _)

/-- What a consultation keeps of the station and its job, whatever it grants. -/
structure JobKept (x y : Station) : Prop where
  recovery : y.recoveryTimer = x.recoveryTimer
  reprint : y.job.map Job.reprint = x.job.map Job.reprint

theorem JobKept.trans {x y z : Station} (h : JobKept x y) (k : JobKept y z) : JobKept x z :=
  ⟨k.recovery.trans h.recovery, k.reprint.trans h.reprint⟩

theorem jobKept_askFunder (n : StationId) (request : Nat) (s : State) : JobKept (s.st n) ((askFunder n request s).st n) := by
  cases h : (s.st n).session with
  | none => rw [askFunder_none h]; exact ⟨rfl, rfl⟩
  | some ses =>
    obtain ⟨l, f, slot, list, hst⟩ := (funderAsked_askFunder (request := request) h).station
    rw [hst]
    exact ⟨rfl, rfl⟩

theorem jobKept_giveGrant (n : StationId) (request g : Nat) (oneSet : Bool) (s : State) :
    JobKept (s.st n) ((giveGrant n request g oneSet s).st n) := by
  rw [st_giveGrant]
  refine ⟨rfl, ?_⟩
  show ((s.st n).job.map _).map _ = _
  rw [Option.map_map]
  rfl

theorem jobKept_enter (q : Bool) (new : StationState) (n : StationId) (s : State) :
    JobKept (s.st n) ((enter q new n s).st n) := by
  rw [st_enter]
  exact ⟨entered_recoveryTimer _ _, by rw [entered_job]⟩

theorem jobKept_grantOutcome (n : StationId) (request g : Nat) (s : State) :
    JobKept (s.st n) ((grantOutcome n request g s).st n) := by
  unfold grantOutcome
  split
  · exact jobKept_enter _ _ _ _
  · split
    · exact jobKept_enter _ _ _ _
    · exact ⟨rfl, rfl⟩

theorem jobKept_consult (atStart : Bool) (n : StationId) (s : State) : JobKept (s.st n) ((consult atStart n s).st n) := by
  unfold consult
  split
  · exact ⟨rfl, rfl⟩
  · exact ((jobKept_askFunder _ _ _).trans (jobKept_giveGrant _ _ _ _ _)).trans (jobKept_grantOutcome _ _ _ _)

/-- The reprint grant uses the allowance up, keeps the station's state, and writes no record (R156). -/
theorem reprintGrant_result {n : StationId} {s : State} {j : Job} (hj : (s.st n).job = some j) :
    ((reprintGrant n s).st n).state = (s.st n).state ∧ ((reprintGrant n s).st n).recoveryTimer = (s.st n).recoveryTimer ∧
      ((reprintGrant n s).st n).job.map Job.reprint = some 0 ∧ (reprintGrant n s).log = s.log := by
  generalize hr : j.reprintRequest (s.st n).settings.window = request
  have hasked : ((askFunder n request s).st n).state = (s.st n).state ∧
      ((askFunder n request s).st n).recoveryTimer = (s.st n).recoveryTimer ∧
      ((askFunder n request s).st n).job = (s.st n).job ∧ (askFunder n request s).log = s.log := by
    cases h : (s.st n).session with
    | none => rw [askFunder_none h]; exact ⟨rfl, rfl, rfl, rfl⟩
    | some ses =>
      have ha := funderAsked_askFunder (request := request) h
      obtain ⟨l, f, slot, list, hst⟩ := ha.station
      exact ⟨by rw [hst], by rw [hst], by rw [hst], ha.log⟩
  obtain ⟨hstate, htimer, hjob, hlog⟩ := hasked
  rw [reprintGrant, hj]
  dsimp only
  rw [hr]
  refine ⟨?_, ?_, ?_, ?_⟩
  · rw [modJob, st_modSt_self, st_giveGrant]
    exact hstate
  · rw [modJob, st_modSt_self, st_giveGrant]
    exact htimer
  · rw [modJob, st_modSt_self, st_giveGrant]
    dsimp only
    rw [hjob, hj]
    rfl
  · rw [modJob]
    show (giveGrant _ _ _ _ _).log = _
    rw [giveGrant_rest]
    exact hlog

/-- The state in which a reprint grant has been given and the allowance still stands (R156). -/
def reprintGiven (n : StationId) (j : Job) (s : State) : State :=
  let request := j.reprintRequest (s.st n).settings.window
  let s1 := askFunder n request s
  giveGrant n request ((s1.st n).sized false request) false s1

theorem reprintGrant_eq {n : StationId} {s : State} {j : Job} (hj : (s.st n).job = some j) :
    reprintGrant n s = modJob n (fun j => { j with reprint := 0 }) (reprintGiven n j s) := by
  rw [reprintGrant, hj]
  rfl

/-- A sizing does not read the allowance. -/
theorem sizedKept_allowance (n : StationId) (s : State) :
    SizedKept n s (modJob n (fun j => { j with reprint := 0 }) s) := by
  refine ⟨?_, ?_, ?_, fun k => ?_, rfl, fun hr => hr, fun _ i => ⟨rfl, rfl, rfl⟩⟩
  · rw [modJob, st_modSt_self]
  · rw [modJob, st_modSt_self]
  · rw [modJob, st_modSt_self]
    dsimp only
    rw [Option.map_map]
    rfl
  · rw [modJob, st_modSt_self]

/-- The sizing of the reprint grant (R156). -/
theorem reprintGrant_sized {n : StationId} {s : State} {ses : Session} {j : Job} (h : (s.st n).session = some ses)
    (hj : (s.st n).job = some j) : Granting n ses j s (reprintGiven n j s) ∧ ∃ g,
      Sized false (j.reprintRequest (s.st n).settings.window) n ses j.released j.setsRemaining s (reprintGrant n s) g := by
  have ha := funderAsked_askFunder (request := j.reprintRequest (s.st n).settings.window) h
  have hsized := sized_giveGrant (whole := false) h hj ha
  have htables := ((internal_askFunder n (j.reprintRequest (s.st n).settings.window) s).trans (internal_giveGrant n
    (j.reprintRequest (s.st n).settings.window) (((askFunder n (j.reprintRequest (s.st n).settings.window) s).st n).sized false
      (j.reprintRequest (s.st n).settings.window)) false _)).tables
  refine ⟨granting_giveGrant hj ha _, ?_⟩
  rw [reprintGrant_eq hj]
  refine ⟨((askFunder n (j.reprintRequest (s.st n).settings.window) s).st n).sized false
    (j.reprintRequest (s.st n).settings.window), ?_⟩
  exact hsized.kept htables (sizedKept_allowance n _)

/-- The reprint request, written out (R156). -/
theorem reprintRequest_eq (j : Job) (window : Nat) : j.reprintRequest window =
    min j.reprint ((if j.mode = .set then 2 * j.setSides else window) - j.released) := by
  unfold Job.reprintRequest Job.cap
  cases j.mode <;> rfl

/-- Settles O49: JAM by state and limit, and CLEARED. -/
theorem jamAndClearedResults : Obligations.JamAndClearedResults := by
  unfold Obligations.JamAndClearedResults
  refine ⟨fun s n location sheets ses hp hstate hses hcount hnine => ?_,
    fun s n location sheets ses hp hstate hses hend hcount hlimit hroom => ?_,
    fun s n location sheets hp => ⟨fun hstate => ?_, fun hstate hses hidle => ?_⟩,
    fun s n hp => ⟨fun hstate => ?_, fun hstate hjob => ?_, fun hstate hjob => ?_⟩⟩
  · have hup : (s.st n).state ≠ .down ∧ (s.st n).state ≠ .suspended := by
      obtain h | h | h | h := hstate <;> rw [h] <;> exact ⟨StationState.noConfusion, StationState.noConfusion⟩
    have hexec := exec_jam (location := location) (sheets := sheets) hp hup.1 hup.2
    obtain ⟨w, hw, htake⟩ := takeJam_session location.toNat sheets.toNat hstate
    have htaken := hw.jamTaken hses
    obtain ⟨hstays, hjams⟩ := htaken.stays hcount hnine
    rw [htake, hstays] at hexec
    obtain ⟨pending, d, timer, hst⟩ := hw.station
    have hne : (w.st n).jamsInSession.state ≠ .jammedSession := by
      rw [hst]
      show (s.st n).state ≠ _
      obtain h | h | h | h := hstate <;> rw [h] <;> exact StationState.noConfusion
    refine ⟨_, hexec, htaken.others, htaken.unposted.log, htaken.state, htaken.path, ?_, ?_, hjams, ?_, ?_, htaken.report,
      htaken.raised.1, htaken.raised.2⟩
    · rw [st_jamEntered, entered_recoveryTimer, hst]
      rfl
    · rw [st_jamEntered, entered_idleTimer hne]
      rfl
    · rw [htaken.session]
      rfl
    · rw [st_jamEntered, entered_job, hst]
      show (((s.st n).job.map _).map _).map _ = _
      rw [Option.map_map, Option.map_map]
      rfl
  · have hup : (s.st n).state ≠ .down ∧ (s.st n).state ≠ .suspended ∧ (s.st n).state ≠ .closing := by
      obtain h | h | h | h | h := hstate <;> rw [h] <;>
        exact ⟨StationState.noConfusion, StationState.noConfusion, StationState.noConfusion⟩
    have hexec := exec_jam (location := location) (sheets := sheets) hp hup.1 hup.2.1
    obtain ⟨u, htaken, htake⟩ : ∃ u, JamTaken location.toNat n ses s u ∧
        takeJam location.toNat sheets.toNat n (s.modSt n (Station.heard s.clock)) = jamLimit n u := by
      by_cases hjam : (s.st n).state = .jammedSession
      · exact takeJam_jammed location.toNat sheets.toNat hjam hses
      · obtain ⟨w, hw, htake⟩ := takeJam_session location.toNat sheets.toNat (s := s) (n := n) (by
          obtain h | h | h | h | h := hstate
          exacts [.inl h, .inr (.inl h), .inr (.inr (.inl h)), .inr (.inr (.inr h)), absurd h hjam])
        exact ⟨_, hw.jamTaken hses, htake⟩
    rw [htake] at hexec
    obtain ⟨r, hothers, htakes, hsettled, hcredited, hjams, hends⟩ := htaken.settles hend hcount hlimit hup.2.2 hroom
    exact ⟨_, r, hexec, hothers, htakes, hsettled, hcredited, hjams, hends⟩
  · have hexec := exec_jam (location := location) (sheets := sheets) hp (by rw [hstate]; exact StationState.noConfusion)
      (by rw [hstate]; exact StationState.noConfusion)
    have hheard : (s.modSt n (Station.heard s.clock)).st n = (s.st n).heard s.clock := st_modSt_self _ _ _
    have hsame : ((s.st n).heard s.clock).state = .idle := hstate
    have htake : takeJam location.toNat sheets.toNat n (s.modSt n (Station.heard s.clock)) = raiseFor .jam n
        (enter false .jammedFree n (reportJam location.toNat sheets.toNat n (s.modSt n (Station.heard s.clock)))) := by
      rw [takeJam, hheard, hsame]
    have hat : AtStation n s (reportJam location.toNat sheets.toNat n (s.modSt n (Station.heard s.clock))) :=
      (atStation_modSt s n _).trans (atStation_modSt _ n _)
    refine ⟨_, hexec.trans (congrArg _ htake), (hat.trans ((atStation_enter _ _ _ _).trans
      (atStation_raise .jam (maskOf n) n _))).onlyAt, ?_, ?_, (raiseFor_raised .jam n _).1⟩
    · rw [st_raiseFor, st_enter, entered_state]
    · rw [st_raiseFor, st_enter, entered_counters, reportJam, st_modSt_self, hheard]
      rfl
  · have hexec := exec_jam (location := location) (sheets := sheets) hp (by rw [hstate]; exact StationState.noConfusion)
      (by rw [hstate]; exact StationState.noConfusion)
    have hheard : (s.modSt n (Station.heard s.clock)).st n = (s.st n).heard s.clock := st_modSt_self _ _ _
    have hsame : ((s.st n).heard s.clock).state = .disabled := hstate
    have htake : takeJam location.toNat sheets.toNat n (s.modSt n (Station.heard s.clock)) =
        s.modSt n (Station.heard s.clock) := by rw [takeJam, hheard, hsame]
    rw [hexec, htake]
    refine congrArg Host.Outcome.next (modSt_congr ?_)
    simp only [Station.heard, hses, hidle, Option.map_none]
  · have hexec := exec_cleared hp (by rw [hstate]; exact StationState.noConfusion)
      (by rw [hstate]; exact StationState.noConfusion)
    have hheard : (s.modSt n (Station.heard s.clock)).st n = (s.st n).heard s.clock := st_modSt_self _ _ _
    have hsame : ((s.st n).heard s.clock).state = .jammedFree := hstate
    have htake : takeCleared n (s.modSt n (Station.heard s.clock)) = enterIdle false n (s.modSt n (Station.heard s.clock)) := by
      rw [takeCleared, hheard, hsame]
    refine ⟨_, hexec.trans (congrArg _ htake), ((atStation_modSt s n _).trans (atStation_enterIdle false n _)).onlyAt, ?_⟩
    rw [st_enterIdle, hheard, idled_state]
    rfl
  · have hexec := exec_cleared hp (by rw [hstate]; exact StationState.noConfusion)
      (by rw [hstate]; exact StationState.noConfusion)
    have hheard : (s.modSt n (Station.heard s.clock)).st n = (s.st n).heard s.clock := st_modSt_self _ _ _
    have hsame : ((s.st n).heard s.clock).state = .jammedSession := hstate
    have hnone : ((s.st n).heard s.clock).job = none := hjob
    have htake : takeCleared n (s.modSt n (Station.heard s.clock)) = jamCleared .opened n s := by
      rw [takeCleared, hheard, hsame]
      dsimp only
      rw [endJam, hheard, hnone]
      rfl
    refine ⟨_, hexec.trans (congrArg _ htake), (atStation_jamCleared _ _ _).onlyAt, ?_⟩
    rw [st_jamCleared, entered_state, entered_recoveryTimer, entered_idleTimer (by
      show (s.st n).state ≠ _
      rw [hstate]
      exact StationState.noConfusion)]
    exact ⟨rfl, rfl, rfl⟩
  · have hexec := exec_cleared hp (by rw [hstate]; exact StationState.noConfusion)
      (by rw [hstate]; exact StationState.noConfusion)
    obtain ⟨j, hj⟩ := Option.isSome_iff_exists.mp hjob
    have hheard : (s.modSt n (Station.heard s.clock)).st n = (s.st n).heard s.clock := st_modSt_self _ _ _
    have hsame : ((s.st n).heard s.clock).state = .jammedSession := hstate
    have hjob' : ((s.st n).heard s.clock).job = some j := hj
    have htake : takeCleared n (s.modSt n (Station.heard s.clock)) =
        consult false n (reprintGrant n (jamCleared .running n s)) := by
      rw [takeCleared, hheard, hsame]
      dsimp only
      rw [endJam, hheard, hjob']
      rfl
    have hst := st_jamCleared .running n s
    have hclearedJob : ((jamCleared .running n s).st n).job = some j := by rw [hst, entered_job]; exact hj
    obtain ⟨hrunning, htimer, hreprint, hlog⟩ := reprintGrant_result hclearedJob
    rw [hst, entered_state] at hrunning
    have hkept := consult_keeps (n := n) (s := reprintGrant n (jamCleared .running n s)) (.inl hrunning) false
    have hjobKept := jobKept_consult false n (reprintGrant n (jamCleared .running n s))
    refine ⟨_, hexec.trans (congrArg _ htake), fun m hm => ?_, ?_, hkept.state, ?_, hjobKept.reprint.trans hreprint,
      fun ses j' hses hj' => ?_⟩
    · exact ((internal_consult _ _ _).others m hm).trans (((internal_reprintGrant _ _).others m hm).trans
        ((atStation_jamCleared _ _ _).others m hm))
    · rw [hkept.log, hlog, (atStation_jamCleared _ _ _).log]
    · rw [hjobKept.recovery, htimer, hst, entered_recoveryTimer]
    · obtain rfl : j = j' := Option.some.inj (hj.symm.trans hj')
      have hsession : ((jamCleared .running n s).st n).session = some { ses with lastActivity := s.clock } := by
        rw [hst, entered_session]
        show (s.st n).session.map _ = _
        rw [hses]
        rfl
      have hwindow : ((jamCleared .running n s).st n).settings = (s.st n).settings := by rw [hst, entered_settings]; rfl
      have hfrom := sizedFrom_jamCleared n s
      obtain ⟨hgranting, g, hsized⟩ := reprintGrant_sized hsession hclearedJob
      have hu : (reprintGrant n (jamCleared .running n s)).st n = { (reprintGiven n j (jamCleared .running n s)).st n with
          job := ((reprintGiven n j (jamCleared .running n s)).st n).job.map (fun j => { j with reprint := 0 }) } := by
        rw [reprintGrant_eq hclearedJob, modJob, st_modSt_self]
      obtain ⟨l, f, hgave⟩ := hgranting.session
      obtain ⟨released, unmet, sets, hgaveJob⟩ := hgranting.job
      have hpaid : ((reprintGrant n (jamCleared .running n s)).st n).session =
          some { ({ ses with lastActivity := s.clock } : Session) with limit := l, funding := f } := by rw [hu]; exact hgave
      have hk : ((reprintGrant n (jamCleared .running n s)).st n).job =
          some { j with released := released, unmet := unmet, setsRemaining := sets, reprint := 0 } := by
        rw [hu]
        dsimp only
        rw [hgaveJob]
        rfl
      obtain ⟨-, h, hconsulted⟩ := consult_result hpaid hk false (.inl hrunning)
      have hframe := hgranting.frame
      have hsettings : ((reprintGrant n (jamCleared .running n s)).st n).settings = (s.st n).settings := by
        rw [hu]
        dsimp only
        rw [hframe]
        exact hwindow
      have hceiling : ((reprintGrant n (jamCleared .running n s)).st n).ceiling = (s.st n).ceiling := by
        rw [← hfrom.ceiling, hu]
        unfold Station.ceiling
        dsimp only
        rw [hframe]
      have hinternal := internal_reprintGrant n (jamCleared .running n s)
      rw [hrunning, hsettings, request_eq_laterRequest] at hconsulted
      rw [hwindow, reprintRequest_eq] at hsized
      exact ⟨_, _, _, g, h, hsized.from hfrom rfl rfl rfl, hpaid, hk, rfl, rfl,
        fun hs => hinternal.tables (hfrom.tables hs), hinternal.quantum.trans hfrom.quantum,
        hinternal.clock.trans hfrom.clock.1, hceiling, hconsulted⟩

end Sys2Proof.Machine
end

section
/-! PROOF. Metering a sheet (R39 to R45): what pricing its sides leaves of the session and the account, and the station that
has counted it. -/

namespace Sys2Proof.Machine

/-! ## Accounts and counts -/

/-- An account's update is read back where it does not make the record the one that an unlisted index reads as. -/
theorem lookup_putAccount_listed {a : Account} (h : a ≠ {}) (i : Nat) : ∀ t : AccountTable,
    lookupAccount (putAccount i a t) i = a
  | [] => by simp [putAccount, consAccount, h, lookupAccount]
  | (j, b) :: t => by
    unfold putAccount
    split
    · simp [consAccount, h, lookupAccount]
    · split
      · simp [consAccount, h, lookupAccount]
      · next hne =>
        rw [lookupAccount, if_neg hne]
        exact lookup_putAccount_listed h i t

theorem modClass_self {α : Type} (v : PerClass α) (c : ClassId) (f : α → α) : (modClass v c f)[c] = f v[c] := by
  simp [modClass]

theorem modClass_add_zero (v : PerClass Nat) (c : ClassId) : modClass v c (· + 0) = v := by simp [modClass]

theorem modClass_add_add (v : PerClass Nat) (c : ClassId) (a b : Nat) :
    modClass (modClass v c (· + a)) c (· + b) = modClass v c (· + (a + b)) := by
  simp [modClass, Nat.add_assoc]

theorem countedSides_eq {counts : PerClass Nat} {e : Sheet} {c : ClassId} (h : e.cls = c.val) :
    countedSides counts e = modClass counts c (· + e.charged) := by
  ext i hi
  simp only [countedSides, modClass, h, Vector.getElem_ofFn, Vector.getElem_set]
  split
  · next hc =>
    subst hc
    simp
  · next hc => simp [Ne.symm hc]

theorem countedSides_zero {counts : PerClass Nat} {e : Sheet} (h : e.charged = 0) : countedSides counts e = counts := by
  ext i hi
  simp [countedSides, h]

/-! ## Pricing (R42) -/

/-- The session once so many sides of a class have been priced. -/
def Session.priced (c : ClassId) (charged mills : Nat) (ses : Session) : Session :=
  { ses with gross := ses.gross + mills, sideCounts := modClass ses.sideCounts c (· + charged) }

/-- So many sides have been priced in the session `ses` of station `n`, whose account has counted what `taken` says. -/
structure Priced (c : ClassId) (n : StationId) (ses : Session) (charged mills : Nat) (taken : PerClass Nat → PerClass Nat)
    (s v : State) : Prop where
  station : v.st n = { s.st n with session := some (ses.priced c charged mills), advances := (v.st n).advances }
  others : ∀ m, m ≠ n → v.st m = s.st m
  rest : v = { s with stations := v.stations, accounts := v.accounts }
  account : ∀ i, ses.funding = .account i → v.account i = { s.account i with sides := taken (s.account i).sides }
  foreign : ∀ i, ses.funding ≠ .account i → v.account i = s.account i
  tables : AccountTable.wf s.accounts → AccountTable.wf v.accounts

section
variable {c : ClassId} {n : StationId} {ses : Session} {s v w : State} {tf : Tariff}

theorem Priced.none (hses : (s.st n).session = some ses) (c : ClassId) : Priced c n ses 0 0 id s s where
  station := by
    have h : ses.priced c 0 0 = ses := by
      unfold Session.priced
      rw [modClass_add_zero]
      rfl
    rw [h, ← hses]
  others _ _ := rfl
  rest := rfl
  account _ _ := rfl
  foreign _ _ := rfl
  tables := id

theorem Priced.trans {a b m m' : Nat} {taken taken' : PerClass Nat → PerClass Nat} (h : Priced c n ses a m taken s v)
    (k : Priced c n (ses.priced c a m) b m' taken' v w) : Priced c n ses (a + b) (m + m') (taken' ∘ taken) s w where
  station := by
    have hp : (ses.priced c a m).priced c b m' = ses.priced c (a + b) (m + m') := by
      unfold Session.priced
      rw [modClass_add_add, Nat.add_assoc]
    rw [k.station, hp, h.station]
  others q hq := (k.others q hq).trans (h.others q hq)
  rest := by rw [k.rest, h.rest]
  account i hi := by rw [k.account i hi, h.account i hi]; rfl
  foreign i hi := (k.foreign i hi).trans (h.foreign i hi)
  tables := k.tables ∘ h.tables

/-- An advance raises the account's count of a class by one (R117). -/
theorem account_requestSideAdvance (i : AccountId) (hfit : (s.account i).sides[c] + 1 ≤ 16777215) :
    (requestSideAdvance i c s).2.account i =
      { s.account i with sides := modClass (s.account i).sides c (· + 1) } := by
  have hcount : (fun k => satAdd maxSides k 1) (s.account i).sides[c] = (s.account i).sides[c] + 1 := Nat.min_eq_right hfit
  have hsides : modClass (s.account i).sides c (fun k => satAdd maxSides k 1) =
      modClass (s.account i).sides c (· + 1) := congrArg (Vector.set _ c.val · _) hcount
  have hlisted : ({ s.account i with sides := modClass (s.account i).sides c (· + 1) } : Account) ≠ {} := fun e => by
    have hzero := congrArg (fun a => a.sides[c]) e
    have hone : (modClass (s.account i).sides c (· + 1))[c] = (s.account i).sides[c] + 1 := modClass_self _ _ _
    have hdefault : ({} : Account).sides[c] = 0 := by fin_cases c <;> rfl
    exact Nat.succ_ne_zero _ (hone.symm.trans (hzero.trans hdefault))
  rw [← hsides] at hlisted ⊢
  exact lookup_putAccount_listed hlisted i.val s.accounts

/-- A priced side joins its session (R42, R59). -/
theorem addSide_eq {m : Nat} (hfit : ses.sideCounts[c] + 1 ≤ 16777215) : Session.addSide c m ses = ses.priced c 1 m := by
  have hcount : (fun k => satAdd maxSides k 1) ses.sideCounts[c] = ses.sideCounts[c] + 1 := Nat.min_eq_right hfit
  have hsides : modClass ses.sideCounts c (fun k => satAdd maxSides k 1) = modClass ses.sideCounts c (· + 1) :=
    congrArg (Vector.set _ c.val · _) hcount
  rw [Session.addSide, hsides]
  rfl

/-- A session that draws on no account prices a side from its own counts (R42). -/
theorem priceSide_own (hses : (s.st n).session = some ses) (htf : (s.st n).tariff.active = some tf)
    (hf : ∀ i, ses.funding ≠ .account i) (kind : SideKind) : priceSide c kind n s =
      (sideMills tf c kind ses.sideCounts[c] ses.gross,
        modSession n (Session.addSide c (sideMills tf c kind ses.sideCounts[c] ses.gross)) s) := by
  rw [priceSide, hses, htf]
  dsimp only
  cases hfund : ses.funding with
  | account i => exact absurd hfund (hf i)
  | bank _ _ _ => rfl
  | free => rfl

/-- An ACCOUNT session prices a side from the answer to an advance under PERIOD basis, and else from its own counts
(R42). -/
theorem priceSide_account {i : AccountId} {k : Nat} (hses : (s.st n).session = some ses)
    (htf : (s.st n).tariff.active = some tf) (hf : ses.funding = .account i) (hadvance : takeAdvance i c n s = (k, v))
    (kind : SideKind) : priceSide c kind n s =
      (sideMills tf c kind (if tf.pricing[c].basis = TierBasis.period then k else ses.sideCounts[c]) ses.gross,
        modSession n (Session.addSide c
          (sideMills tf c kind (if tf.pricing[c].basis = TierBasis.period then k else ses.sideCounts[c]) ses.gross)) v) := by
  rw [priceSide, hses, htf]
  dsimp only
  rw [hf]
  dsimp only
  rw [hadvance]

/-- A side priced on a state that the advance alone has changed. -/
theorem priced_addSide {m : Nat} {taken : PerClass Nat → PerClass Nat} (hses : (s.st n).session = some ses)
    (hfit : ses.sideCounts[c] + 1 ≤ 16777215) (hst : v.st n = { s.st n with advances := (v.st n).advances })
    (hothers : ∀ m, m ≠ n → v.st m = s.st m) (hrest : v = { s with stations := v.stations, accounts := v.accounts })
    (haccount : ∀ i, ses.funding = .account i → v.account i = { s.account i with sides := taken (s.account i).sides })
    (hforeign : ∀ i, ses.funding ≠ .account i → v.account i = s.account i)
    (htables : AccountTable.wf s.accounts → AccountTable.wf v.accounts) :
    Priced c n ses 1 m taken s (modSession n (Session.addSide c m) v) where
  station := by
    rw [modSession, st_modSt_self, hst]
    show ({ s.st n with session := (s.st n).session.map _, advances := _ } : Station) = _
    rw [hses]
    show ({ s.st n with session := some (Session.addSide c m ses), advances := _ } : Station) = _
    rw [addSide_eq hfit]
  others q hq := by rw [modSession, st_modSt_ne _ _ hq, hothers q hq]
  rest := by
    rw [modSession, hrest]
    rfl
  account := haccount
  foreign := hforeign
  tables := htables

/-- A station whose side advances are asked of the account table now, if its session has an account. -/
abbrev AsksNow (n : StationId) (ses : Session) (s : State) : Prop :=
  (∀ i, ses.funding ≠ .account i) ∨ (s.st n).advances = []

/-- The counts of a class, a session's and its account's, have room for so many sides. -/
abbrev FitsClass (c : ClassId) (k : Nat) (ses : Session) (s : State) : Prop :=
  ses.sideCounts[c] + k ≤ 16777215 ∧ ∀ i, ses.funding = .account i → (s.account i).sides[c] + k ≤ 16777215

/-- One side priced (R42). -/
theorem priceSide_priced (hses : (s.st n).session = some ses) (htf : (s.st n).tariff.active = some tf)
    (hasks : AsksNow n ses s) (hfit : FitsClass c 1 ses s) (kind : SideKind) :
    let m := sideMills tf c kind (tierCounter s ses tf c) ses.gross
    (priceSide c kind n s).1 = m ∧
      Priced c n ses 1 m (fun v => modClass v c (· + 1)) s (priceSide c kind n s).2 ∧
      (AsksNow n (ses.priced c 1 m) (priceSide c kind n s).2) := by
  intro m
  by_cases hf : ∃ i, ses.funding = .account i
  · obtain ⟨i, hi⟩ := hf
    have hnone : (s.st n).advances = [] := hasks.resolve_left fun h => h i hi
    have hcounter : tierCounter s ses tf c =
        if tf.pricing[c].basis = TierBasis.period then (s.account i).sides[c] else ses.sideCounts[c] := by rw [tierCounter, hi]
    have hprice := priceSide_account (kind := kind) hses htf hi (takeAdvance_now (c := c) (i := i) hnone)
    rw [← hcounter] at hprice
    rw [hprice]
    refine ⟨rfl, priced_addSide hses hfit.1 rfl (fun _ _ => rfl) rfl (fun k hk => ?_) (fun k hk => ?_)
      (fun hs => modAccount_wf hs i _), .inr ?_⟩
    · obtain rfl : i = k := Funding.account.inj (hi.symm.trans hk)
      exact account_requestSideAdvance i (hfit.2 i hi)
    · exact account_modAccount_ne _ _ fun e => hk (by rw [e]; exact hi)
    · rw [modSession, st_modSt_self]
      exact hnone
  · have hown : ∀ i, ses.funding ≠ .account i := fun i e => hf ⟨i, e⟩
    have hcounter : tierCounter s ses tf c = ses.sideCounts[c] := by
      unfold tierCounter
      cases hfund : ses.funding with
      | account i => exact absurd hfund (hown i)
      | bank _ _ _ => rfl
      | free => rfl
    have hprice := priceSide_own (c := c) (kind := kind) hses htf hown
    rw [← hcounter] at hprice
    rw [hprice]
    exact ⟨rfl, priced_addSide hses hfit.1 rfl (fun _ _ => rfl) rfl (fun i hi => absurd hi (hown i)) (fun _ _ => rfl) id,
      .inl hown⟩

/-- The tier counter goes up with each side (R42, R59, R117). -/
theorem Priced.tierCounter {m : Nat} (h : Priced c n ses 1 m (fun v => modClass v c (· + 1)) s v) :
    tierCounter v (ses.priced c 1 m) tf c = tierCounter s ses tf c + 1 := by
  have hown : (ses.priced c 1 m).sideCounts[c] = ses.sideCounts[c] + 1 := modClass_self _ _ _
  unfold Machine.tierCounter
  have hsame : (ses.priced c 1 m).funding = ses.funding := rfl
  rw [hsame]
  cases hf : ses.funding with
  | account i =>
    dsimp only
    rw [h.account i hf, hown]
    split
    · exact modClass_self _ _ _
    · rfl
  | bank _ _ _ => exact hown
  | free => exact hown

/-- The charged sides of a sheet priced in order (R42, R61). -/
theorem priceSides_priced {sides charged : Nat} (hses : (s.st n).session = some ses)
    (htf : (s.st n).tariff.active = some tf) (hasks : AsksNow n ses s) (hfit : FitsClass c 2 ses s)
    (hcharged : charged ≤ sides) (hsides : sides = 1 ∨ sides = 2) :
    (priceSides c sides charged n s).1 = sheetMills tf c sides charged (tierCounter s ses tf c) ses.gross ∧
      Priced c n ses charged (sheetMills tf c sides charged (tierCounter s ses tf c) ses.gross)
        (fun v => modClass v c (· + charged)) s (priceSides c sides charged n s).2 := by
  have hone : FitsClass c 1 ses s := ⟨by have := hfit.1; omega, fun i hi => by have := hfit.2 i hi; omega⟩
  match charged with
  | 0 =>
    have hid : (fun v : PerClass Nat => modClass v c (· + 0)) = id := funext fun v => modClass_add_zero v c
    rw [hid]
    exact ⟨rfl, .none hses c⟩
  | 1 =>
    obtain ⟨hmills, hpriced, -⟩ := priceSide_priced hses htf hasks hone (sideKindOf sides 0)
    exact ⟨hmills, hpriced⟩
  | 2 =>
    obtain rfl : sides = 2 := by omega
    obtain ⟨hmills, hpriced, hasks'⟩ := priceSide_priced hses htf hasks hone (sideKindOf 2 0)
    have hses' : ((priceSide c (sideKindOf 2 0) n s).2.st n).session =
        some (ses.priced c 1 (sideMills tf c (sideKindOf 2 0) (tierCounter s ses tf c) ses.gross)) := by rw [hpriced.station]
    have htf' : ((priceSide c (sideKindOf 2 0) n s).2.st n).tariff.active = some tf := by rw [hpriced.station]; exact htf
    have hfit' : FitsClass c 1 (ses.priced c 1 (sideMills tf c (sideKindOf 2 0) (tierCounter s ses tf c) ses.gross))
        (priceSide c (sideKindOf 2 0) n s).2 := by
      refine ⟨?_, fun i hi => ?_⟩
      · have h : (ses.priced c 1 (sideMills tf c (sideKindOf 2 0) (tierCounter s ses tf c) ses.gross)).sideCounts[c] =
            ses.sideCounts[c] + 1 := modClass_self _ _ _
        rw [h]
        exact hfit.1
      · rw [hpriced.account i hi]
        show (modClass (s.account i).sides c (· + 1))[c] + 1 ≤ _
        rw [modClass_self]
        exact hfit.2 i hi
    obtain ⟨hmills', hpriced', -⟩ := priceSide_priced hses' htf' hasks' hfit' (sideKindOf 2 1)
    rw [hpriced.tierCounter] at hmills' hpriced'
    have htaken : ((fun v : PerClass Nat => modClass v c (· + 1)) ∘ fun v => modClass v c (· + 1)) =
        fun v => modClass v c (· + 2) := funext fun v => modClass_add_add v c 1 1
    have hboth := hpriced.trans hpriced'
    rw [htaken] at hboth
    refine ⟨?_, hboth⟩
    show (priceSide c (sideKindOf 2 0) n s).1 + (priceSide c (sideKindOf 2 1) n (priceSide c (sideKindOf 2 0) n s).2).1 = _
    rw [hmills, hmills']
    rfl
  | k + 3 => omega

end

/-! ## The station that has counted a sheet -/

/-- The station that a record has reached, before a sheet is judged (R8, R13). -/
def Station.lived (x : Station) : Station :=
  { x with silence := 0, idleTimer := x.idleTimer.map (fun _ => x.settings.idleTime) }

/-- The station once a sheet has been numbered and its sides counted (R37, R39, R41, R42). -/
def Station.counting (sheet gap cls charged overrun : Nat) (x : Station) : Station :=
  { x.lived with
    lastSeq := sheet
    seqKnown := true
    job := x.job.map (fun j => { j with released := j.released - charged })
    session := x.session.map (fun ses => { ses with overrunSides := satAdd max32 ses.overrunSides overrun })
    counters := { x.counters with
      sequenceGaps := satAdd max32 x.counters.sequenceGaps gap
      overrunSides := satAdd max32 x.counters.overrunSides overrun
      sides := match classOf cls with
        | none => x.counters.sides
        | some c => modClass x.counters.sides c (fun k => satAdd max32 k charged) } }

theorem countSheet_passSeq (sheet gap cls charged overrun : Nat) (n : StationId) (s : State) :
    countSheet cls charged overrun n (passSeq sheet gap n (s.modSt n Station.lived)) =
      s.modSt n (Station.counting sheet gap cls charged overrun) := by
  rw [countSheet, passSeq, modSt_modSt, modSt_modSt]
  rfl

/-- The session once a sheet has been priced and counted. -/
def Session.metered (e : Sheet) (ses : Session) : Session :=
  { ses with
    gross := ses.gross + e.mills
    sideCounts := countedSides ses.sideCounts e
    overrunSides := satAdd max32 ses.overrunSides (e.sides - e.charged) }

/-- The station once a sheet of its session has been metered (R39 to R42, R45). -/
def Station.metered (e : Sheet) (gap : Nat) (ses : Session) (x : Station) : Station :=
  { x.counting e.number gap e.cls e.charged (e.sides - e.charged) with
    session := some (ses.metered e)
    advances := []
    audit := (x.audit.report e.cls x.chargedCategory e.charged).report e.cls .overrun (e.sides - e.charged) }

/-- The sheet `e` has been metered at station `n`, whose account has counted what `taken` says. -/
structure Metered (n : StationId) (ses : Session) (e : Sheet) (gap : Nat) (taken : PerClass Nat → PerClass Nat)
    (s v : State) : Prop where
  station : v.st n = (s.st n).metered e gap ses
  others : ∀ m, m ≠ n → v.st m = s.st m
  rest : v = { s with stations := v.stations, accounts := v.accounts }
  account : ∀ i, ses.funding = .account i → v.account i = { s.account i with sides := taken (s.account i).sides }
  foreign : ∀ i, ses.funding ≠ .account i → v.account i = s.account i
  tables : AccountTable.wf s.accounts → AccountTable.wf v.accounts

section
variable {n : StationId} {ses : Session} {e : Sheet} {gap : Nat} {taken : PerClass Nat → PerClass Nat} {s p : State}

/-- A sheet is metered once its charged sides have been priced. -/
theorem Priced.metered {c : ClassId} (hclass : e.cls = c.val)
    (h : Priced c n { ses with overrunSides := satAdd max32 ses.overrunSides (e.sides - e.charged) } e.charged e.mills taken
      (s.modSt n (Station.counting e.number gap e.cls e.charged (e.sides - e.charged))) p) :
    Metered n ses e gap taken s (reportSides e.cls .overrun (e.sides - e.charged) n
      (reportSides e.cls (s.st n).chargedCategory e.charged n (dropAdvances n p))) where
  station := by
    rw [reportSides, reportSides, dropAdvances, st_modSt_self, st_modSt_self, st_modSt_self, h.station, st_modSt_self,
      Station.metered, Session.metered, countedSides_eq hclass]
    rfl
  others m hm := by
    rw [reportSides, reportSides, dropAdvances, st_modSt_ne _ _ hm, st_modSt_ne _ _ hm, st_modSt_ne _ _ hm, h.others m hm,
      st_modSt_ne _ _ hm]
  rest := by
    rw [reportSides, reportSides, dropAdvances, h.rest]
    rfl
  account := h.account
  foreign := h.foreign
  tables := h.tables

/-- A sheet without a charged side needs no price (R40, R41). -/
theorem metered_uncharged (hses : (s.st n).session = some ses) (hcharged : e.charged = 0) (hmills : e.mills = 0) :
    Metered n ses e gap (countedSides · e) s (reportSides e.cls .overrun (e.sides - e.charged) n
      (reportSides e.cls (s.st n).chargedCategory e.charged n (dropAdvances n
        (s.modSt n (Station.counting e.number gap e.cls e.charged (e.sides - e.charged)))))) where
  station := by
    have hsession : (s.st n).session.map
        (fun ses => { ses with overrunSides := satAdd max32 ses.overrunSides (e.sides - e.charged) }) =
        some (ses.metered e) := by
      rw [hses, Session.metered, countedSides_zero hcharged, hmills]
      rfl
    rw [reportSides, reportSides, dropAdvances, st_modSt_self, st_modSt_self, st_modSt_self, st_modSt_self, Station.metered,
      ← hsession]
    rfl
  others m hm := by
    rw [reportSides, reportSides, dropAdvances, st_modSt_ne _ _ hm, st_modSt_ne _ _ hm, st_modSt_ne _ _ hm,
      st_modSt_ne _ _ hm]
  rest := rfl
  account i _ := by
    rw [countedSides_zero hcharged]
    rfl
  foreign _ _ := rfl
  tables := id

end

/-! ## The metering of a record (R40 to R42) -/

/-- A class that the copier supports is valid (R40). -/
theorem validClass_of_supports {x : Station} {cls : Byte} {c : ClassId} (h : x.supports cls c) :
    x.validClass cls.toNat = some c := by
  obtain ⟨hcls, hbit⟩ := h
  have hc : classOf cls.toNat = some c := by
    rw [hcls, classOf, dif_pos c.isLt]
  rw [Station.validClass, hc]
  exact if_pos hbit

theorem validClass_eq_none {x : Station} {cls : Byte} (h : ∀ c, ¬ x.supports cls c) : x.validClass cls.toNat = none := by
  unfold Station.validClass classOf
  split
  · rfl
  · next c hc =>
    split at hc
    · next hlt =>
      refine if_neg fun hbit => h c ⟨?_, hbit⟩
      rw [← Option.some.inj hc]
    · exact nomatch hc

section
variable {n : StationId} {ses : Session} {gap sheet cls sides : Nat} {s : State}

/-- The mills of a sheet's charged sides, and the state that pricing them leaves; an invalid class has none (R41, R42). -/
def pricedOutcome (sheet gap cls sides : Nat) (n : StationId) (s : State) : Nat × State :=
  let charged := (s.st n).chargeable cls sides
  let counted := s.modSt n (Station.counting sheet gap cls charged (sides - charged))
  match (s.st n).validClass cls with
  | none => (0, counted)
  | some c => priceSides c sides charged n counted

/-- The tier basis of an entry (R42, R43). -/
def Station.entryBasis (cls charged : Nat) (x : Station) : TierBasis :=
  match x.validClass cls with
  | none => .session
  | some c => if charged = 0 then .session else x.basisOf c

/-- The entry and the state of a metering, from its priced sides. -/
theorem meterSheet_eq : meterSheet sheet cls sides n (passSeq sheet gap n (s.modSt n Station.lived)) =
    ({ number := sheet, cls := cls, sides := sides, charged := (s.st n).chargeable cls sides
       mills := (pricedOutcome sheet gap cls sides n s).1
       basis := (s.st n).entryBasis cls ((s.st n).chargeable cls sides)
       overrun := decide (0 < sides - (s.st n).chargeable cls sides) },
      reportSides cls .overrun (sides - (s.st n).chargeable cls sides) n
        (reportSides cls (s.st n).chargedCategory ((s.st n).chargeable cls sides) n
          (dropAdvances n (pricedOutcome sheet gap cls sides n s).2))) := by
  have hst : (passSeq sheet gap n (s.modSt n Station.lived)).st n = { (s.st n).lived with
      lastSeq := sheet
      seqKnown := true
      counters := { (s.st n).counters with sequenceGaps := satAdd max32 (s.st n).counters.sequenceGaps gap } } := by
    rw [passSeq, st_modSt_self, st_modSt_self]
    rfl
  have hvalid : ((passSeq sheet gap n (s.modSt n Station.lived)).st n).validClass cls = (s.st n).validClass cls := by
    rw [hst]
    rfl
  have hcharge : ((passSeq sheet gap n (s.modSt n Station.lived)).st n).chargeable cls sides =
      (s.st n).chargeable cls sides := by
    rw [hst]
    rfl
  have hcategory : ((passSeq sheet gap n (s.modSt n Station.lived)).st n).chargedCategory = (s.st n).chargedCategory := by
    rw [hst]
    rfl
  have hbasis : ∀ c, ((passSeq sheet gap n (s.modSt n Station.lived)).st n).basisOf c = (s.st n).basisOf c := fun c => by
    rw [hst]
    rfl
  unfold meterSheet pricedOutcome Station.entryBasis
  dsimp only
  simp only [hvalid, hcharge, hcategory, hbasis, countSheet_passSeq] <;> cases (s.st n).validClass cls <;> rfl

/-- The tier basis of a charged side by the funding of its session and the basis of its class (R42). -/
def Funding.basisOf (b : TierBasis) : Funding → TierBasis
  | .account _ => b
  | .bank _ _ _ => .session
  | .free => .session

/-- A sheet of a class the copier supports is charged for its released sides (R40, R41, R42). -/
theorem meterSheet_charged {c : ClassId} {tf : Tariff} (hses : (s.st n).session = some ses)
    (htf : (s.st n).tariff.active = some tf) (hvalid : (s.st n).validClass cls = some c) (hcls : cls = c.val)
    (hasks : AsksNow n ses s) (hfit : FitsClass c 2 ses s) (hsides : sides = 1 ∨ sides = 2) :
    ∃ v, meterSheet sheet cls sides n (passSeq sheet gap n (s.modSt n Station.lived)) =
        (chargedEntry s n ses tf c sheet sides, v) ∧
      Metered n ses (chargedEntry s n ses tf c sheet sides) gap
        (countedSides · (chargedEntry s n ses tf c sheet sides)) s v := by
  subst hcls
  have hcharge : (s.st n).chargeable c.val sides = min sides (s.st n).released := by rw [Station.chargeable, hvalid]
  have hbasis : (s.st n).basisOf c = ses.funding.basisOf tf.pricing[c].basis := by
    rw [Station.basisOf, hses, htf]
    dsimp only
    cases ses.funding <;> rfl
  have htaken : (countedSides · (chargedEntry s n ses tf c sheet sides)) =
      fun v => modClass v c (· + min sides (s.st n).released) :=
    funext fun v => countedSides_eq (e := chargedEntry s n ses tf c sheet sides) rfl
  have hover : decide (0 < sides - min sides (s.st n).released) = decide ((s.st n).released < sides) :=
    decide_eq_decide.mpr (by omega)
  have hst : ((s.modSt n (Station.counting sheet gap c.val (min sides (s.st n).released)
      (sides - min sides (s.st n).released))).st n) = (s.st n).counting sheet gap c.val (min sides (s.st n).released)
      (sides - min sides (s.st n).released) := st_modSt_self _ _ _
  obtain ⟨hmills, hpriced⟩ := priceSides_priced (c := c) (n := n)
    (ses := { ses with overrunSides := satAdd max32 ses.overrunSides (sides - min sides (s.st n).released) })
    (s := s.modSt n (Station.counting sheet gap c.val (min sides (s.st n).released) (sides - min sides (s.st n).released)))
    (tf := tf) (sides := sides) (charged := min sides (s.st n).released) (by
      rw [hst]
      show (s.st n).session.map _ = _
      rw [hses]
      rfl) (by rw [hst]; exact htf) (by rw [AsksNow, hst]; exact hasks) hfit (Nat.min_le_left _ _) hsides
  have houtcome : pricedOutcome sheet gap c.val sides n s = priceSides c sides (min sides (s.st n).released) n
      (s.modSt n (Station.counting sheet gap c.val (min sides (s.st n).released) (sides - min sides (s.st n).released))) := by
    rw [pricedOutcome, hcharge, hvalid]
  rw [htaken]
  refine ⟨_, ?_, Priced.metered (e := chargedEntry s n ses tf c sheet sides) (c := c) rfl hpriced⟩
  rw [meterSheet_eq, houtcome, hmills, Station.entryBasis, hvalid, hcharge, hover]
  dsimp only
  rw [hbasis]
  rfl

/-- A sheet with nothing to charge is metered all the same (R40, R41). -/
theorem meterSheet_uncharged (hses : (s.st n).session = some ses) (hcharge : (s.st n).chargeable cls sides = 0)
    (hsides : 0 < sides) :
    ∃ v, meterSheet sheet cls sides n (passSeq sheet gap n (s.modSt n Station.lived)) = (uncharged sheet cls sides, v) ∧
      Metered n ses (uncharged sheet cls sides) gap (countedSides · (uncharged sheet cls sides)) s v := by
  have houtcome : pricedOutcome sheet gap cls sides n s = (0, s.modSt n (Station.counting sheet gap cls 0 sides)) := by
    rw [pricedOutcome, hcharge]
    cases (s.st n).validClass cls <;> rfl
  have hbasis : (s.st n).entryBasis cls 0 = .session := by
    unfold Station.entryBasis
    cases (s.st n).validClass cls <;> rfl
  have hover : decide (0 < sides - 0) = true := decide_eq_true hsides
  refine ⟨_, ?_, metered_uncharged (e := uncharged sheet cls sides) hses rfl rfl⟩
  rw [meterSheet_eq, houtcome, hcharge, hbasis, hover]
  rfl

end

end Sys2Proof.Machine
end

section
/-! PROOF. A metered sheet joins the path and completes (R43, R44), and goes on to the consultation of its job's mode
(R48 to R53). -/

namespace Sys2Proof.Machine

/-! ## The sequence check (R39) -/

theorem seqVerdict_of_inSequence {x : Station} {sheet gap : Nat} (h : x.inSequence sheet gap) :
    x.seqVerdict sheet = some gap := by
  unfold Station.inSequence at h
  unfold Station.seqVerdict
  split at h
  · next hknown =>
    obtain ⟨hlast, hdist, hhalf⟩ := h
    have hd : seqDistance sheet x.lastSeq = gap + 1 := by
      rw [seqDistance, Nat.mod_eq_of_lt hlast]
      exact hdist
    rw [if_pos hknown]
    dsimp only
    rw [hd, if_pos ⟨Nat.succ_pos gap, hhalf⟩, Nat.add_sub_cancel]
  · next hknown =>
    obtain ⟨rfl, hfresh⟩ := h
    rw [if_neg hknown]
    refine if_neg ?_
    simpa using hfresh

/-- The number after the last leaves none out (R39). -/
theorem inSequence_next {x : Station} {sheet : Nat} (hknown : x.seqKnown = true) (hlast : x.lastSeq < 65536)
    (hnext : sheet = (x.lastSeq + 1) % 65536) : x.inSequence sheet 0 := by
  unfold Station.inSequence
  rw [if_pos hknown]
  omega

/-! ## The side reports (R45, R178) -/

theorem report_state (cls : Nat) (cat : SideCategory) (k : Nat) (a : Audit) : (a.report cls cat k).state = a.state := by
  unfold Audit.report
  split
  · rfl
  · split <;> rfl

theorem report_accounted (cls : Nat) (cat : SideCategory) (k : Nat) (a : Audit) (c : ClassId) :
    (a.report cls cat k).accounted[c] =
      if a.state.running = true ∧ c.val = cls then (a.accounted[c]).add cat k else a.accounted[c] := by
  unfold Audit.report
  by_cases hcls : cls < 4
  · have hclass : classOf cls = some ⟨cls, hcls⟩ := dif_pos hcls
    rw [hclass]
    dsimp only
    by_cases hrun : a.state.running = true
    · rw [if_pos hrun]
      by_cases hc : c.val = cls
      · obtain rfl : c = ⟨cls, hcls⟩ := Fin.ext hc
        rw [if_pos ⟨hrun, rfl⟩]
        exact modClass_self _ _ _
      · rw [if_neg fun e => hc e.2]
        show (modClass a.accounted ⟨cls, hcls⟩ _)[c] = _
        simp only [modClass, Fin.getElem_fin]
        rw [Vector.getElem_set_ne _ _ (Ne.symm hc)]
    · rw [if_neg hrun, if_neg fun e => hrun e.1]
  · have hclass : classOf cls = none := dif_neg hcls
    rw [hclass, if_neg fun e : a.state.running = true ∧ c.val = cls => hcls (by rw [← e.2]; exact c.isLt)]

theorem running_iff (a : AuditState) : a.running = true ↔ a = .tracking ∨ a = .outOfStep := by
  cases a <;> simp [AuditState.running]

/-- The category of the charged sides (R45). -/
theorem chargedCategory_eq {x : Station} {ses : Session} (h : x.session = some ses) :
    x.chargedCategory = if ses.funding = .free then .free else .billed := by
  rw [Station.chargedCategory, h]
  dsimp only
  cases ses.funding <;> simp

/-! ## What a counted sheet leaves -/

/-- The numbering, the counters and the audit of a metered sheet are kept. -/
structure CountKept (m y : Station) : Prop where
  numbering : y.lastSeq = m.lastSeq ∧ y.seqKnown = m.seqKnown
  gaps : y.counters.sequenceGaps = m.counters.sequenceGaps
  overrun : y.counters.overrunSides = m.counters.overrunSides
  sides : y.counters.sides = m.counters.sides
  audit : y.audit = m.audit

theorem CountKept.trans {x y z : Station} (h : CountKept x y) (k : CountKept y z) : CountKept x z :=
  ⟨⟨k.numbering.1.trans h.numbering.1, k.numbering.2.trans h.numbering.2⟩, k.gaps.trans h.gaps, k.overrun.trans h.overrun,
    k.sides.trans h.sides, k.audit.trans h.audit⟩

section
variable {n : StationId} {ses : Session} {e : Sheet} {gap : Nat} {taken : PerClass Nat → PerClass Nat} {s t v : State}

/-- A counted sheet stays counted where its station keeps what was counted. -/
theorem CountKept.sheetCounted (h : CountKept ((s.st n).metered e gap ses) (t.st n)) (hses : (s.st n).session = some ses)
    (hover : (t.st n).session.map Session.overrunSides = some (ses.metered e).overrunSides)
    (hact : (t.st n).session.map Session.lastActivity = some s.clock)
    (helse : (∀ m, m ≠ n → t.st m = s.st m) ∧ t.log = s.log) : SheetCounted n ses e gap s t where
  numbering := h.numbering
  gaps := h.gaps
  overrun := hover
  overrunCounter := h.overrun
  sidesCounter c := by
    rw [h.sides]
    show (match classOf e.cls with
      | none => (s.st n).counters.sides
      | some c => modClass (s.st n).counters.sides c (fun k => satAdd max32 k e.charged))[c] = _
    by_cases hcls : e.cls < 4
    · have hclass : classOf e.cls = some ⟨e.cls, hcls⟩ := dif_pos hcls
      rw [hclass]
      dsimp only
      by_cases hc : c.val = e.cls
      · obtain rfl : c = ⟨e.cls, hcls⟩ := Fin.ext hc
        rw [if_pos rfl]
        exact modClass_self _ _ _
      · rw [if_neg hc]
        simp only [modClass, Fin.getElem_fin]
        rw [Vector.getElem_set_ne _ _ (Ne.symm hc)]
    · have hclass : classOf e.cls = none := dif_neg hcls
      rw [hclass, if_neg fun hc : c.val = e.cls => hcls (by rw [← hc]; exact c.isLt)]
  activity := hact
  accounted c := by
    intro a
    rw [h.audit]
    show (((s.st n).audit.report e.cls (s.st n).chargedCategory e.charged).report e.cls .overrun
      (e.sides - e.charged)).accounted[c] = _
    rw [report_accounted, report_state, report_accounted]
    simp only [running_iff]
    split
    · rw [chargedCategory_eq hses]
      split <;> rfl
    · rfl
  elsewhere := helse

/-! ## The path (R43) -/

/-- The station whose path a sheet has joined; a list of 8 first loses its head, with a fault counted (R43). -/
def Station.joins (e : Sheet) (x : Station) : Station :=
  if 8 ≤ x.inPath.length then { faulted x.exitsHead with inPath := x.inPath.tail ++ [e] }
  else { x with inPath := x.inPath ++ [e] }

theorem joinPath_result (hlast : 8 ≤ (v.st n).inPath.length → ∀ f, (v.st n).inPath.head? = some f →
    ∀ j, (v.st n).job = some j → j.lastSheet ≠ some f.number) : AtStation n v (joinPath e n v) ∧ (joinPath e n v).st n = (v.st n).joins e ∧
      (8 ≤ (v.st n).inPath.length → Raised .protocol n (joinPath e n v)) := by
  unfold joinPath Station.joins
  by_cases hfull : 8 ≤ (v.st n).inPath.length
  · rw [if_pos hfull, if_pos hfull]
    obtain ⟨f, rest, hpath⟩ : ∃ f rest, (v.st n).inPath = f :: rest := by
      cases h : (v.st n).inPath with
      | nil => rw [h] at hfull; exact absurd hfull (by decide)
      | cons f rest => exact ⟨f, rest, rfl⟩
    have hhead : exitHead n v = v.modSt n Station.exitsHead :=
      exitHead_eq hpath (hlast hfull f (by rw [hpath]; rfl))
    dsimp only
    rw [hhead]
    refine ⟨(atStation_modSt v n _).trans ((atStation_protocolFault n _).trans (atStation_modSt _ n _)), ?_,
      fun _ => (protocolFault_raised n _).modSt n _⟩
    rw [st_modSt_self, st_protocolFault, st_modSt_self]
    rfl
  · rw [if_neg hfull, if_neg hfull]
    exact ⟨atStation_modSt v n _, st_modSt_self _ _ _, fun h => absurd h hfull⟩

theorem metered_joins_free {x : Station} (h : ¬ 8 ≤ x.inPath.length) : (x.metered e gap ses).joins e =
    { x.metered e gap ses with inPath := x.inPath ++ [e] } := if_neg h

theorem metered_joins_full {x : Station} (h : 8 ≤ x.inPath.length) : (x.metered e gap ses).joins e =
    { faulted (x.metered e gap ses).exitsHead with inPath := x.inPath.tail ++ [e] } := if_pos h

/-! ## Completion (R44) -/

/-- The station at the end of a record's metering (R44). -/
def Station.completed (clock sheet : Nat) (x : Station) : Station :=
  let y : Station := { x with
    idleTimer := x.idleTimer.map (fun _ => x.settings.idleTime)
    session := x.session.map (fun ses => { ses with lastActivity := clock }) }
  { y with
    sendList := y.panelList
    job := x.job.map (fun j => { j with
      lastSheet := if j.mode = .single ∧ j.released = 0 ∧ j.unmet = 0 then some sheet else j.lastSheet }) }

/-- The completion of a record before closing or the consultation (R44). -/
def sheetCompleted (sheet : Nat) (n : StationId) (s : State) : State :=
  markLast sheet n (statePanel n (touchSession n (restartIdle n s)))

theorem st_sheetCompleted (sheet : Nat) (n : StationId) (s : State) :
    (sheetCompleted sheet n s).st n = (s.st n).completed s.clock sheet := by
  rw [sheetCompleted, markLast, modJob, st_modSt_self, st_statePanel, touchSession, modSession, st_modSt_self, restartIdle,
    st_modSt_self]
  rfl

theorem atStation_sheetCompleted (sheet : Nat) (n : StationId) (s : State) : AtStation n s (sheetCompleted sheet n s) := by
  unfold sheetCompleted markLast touchSession
  exact ((atStation_modSt s n _).trans (atStation_modSt _ n _)).trans
    ((atStation_statePanel n _).trans (atStation_modSt _ n _))

theorem completeImaged_eq (e : Sheet) (n : StationId) (s : State) : completeImaged e n s =
    if e.overrun = true ∧ ((s.st n).completed s.clock e.number).state ≠ .closing then
      startClosing .overrun n (sheetCompleted e.number n s)
    else if ¬ e.overrun = true ∧ ((s.st n).completed s.clock e.number).state = .running then
      consult false n (sheetCompleted e.number n s)
    else sheetCompleted e.number n s := by
  rw [← st_sheetCompleted]
  rfl

/-! ## Records that reach the metering -/

/-- The state that an IMAGED record's rule works on. -/
theorem exec_imaged {sheet : BitVec 16} {cls sides : Byte} (hp : (s.st n).passage = none) (hd : (s.st n).state ≠ .down)
    (hs : (s.st n).state ≠ .suspended) : exec (.imaged n sheet cls sides) s =
      .next (takeImaged sheet.toNat cls.toNat sides.toNat n (s.modSt n Station.lived)) := by
  refine congrArg Host.Outcome.next ?_
  show takeImaged sheet.toNat cls.toNat sides.toNat n (restartIdle n (arrive n s)) = _
  rw [arrive_up hp hd hs, restartIdle, modSt_modSt]
  rfl

/-- A record of one or two sides in a session without JAMMED is metered (R38). -/
theorem takeImaged_meters {sheet cls sides : Nat} (hstate : (s.st n).state = .opened ∨ (s.st n).state = .confirming ∨
    (s.st n).state = .running ∨ (s.st n).state = .starved) (hsides : sides = 1 ∨ sides = 2) :
    takeImaged sheet cls sides n (s.modSt n Station.lived) = meterImaged sheet cls sides n (s.modSt n Station.lived) := by
  have hlived : ((s.modSt n Station.lived).st n).state = (s.st n).state := by rw [st_modSt_self]; rfl
  rw [takeImaged, hlived, if_neg (by obtain h | h | h | h := hstate <;> rw [h] <;> exact StationState.noConfusion),
    if_neg fun h => hsides.elim h.1 h.2]
  obtain h | h | h | h := hstate <;> rw [h]

/-- A metered sheet joins the path and completes (R43, R44). -/
theorem meterImaged_eq {sheet cls sides : Nat} (hseq : (s.st n).seqVerdict sheet = some gap)
    (hmeter : meterSheet sheet cls sides n (passSeq sheet gap n (s.modSt n Station.lived)) = (e, v)) :
    meterImaged sheet cls sides n (s.modSt n Station.lived) = completeImaged e n (joinPath e n v) := by
  have hlived : ((s.modSt n Station.lived).st n).seqVerdict sheet = some gap := by
    rw [st_modSt_self]
    exact hseq
  rw [meterImaged, hlived]
  dsimp only
  rw [hmeter]

/-! ## The consultation after a sheet -/

/-- The station that has metered a sheet whose sides are all released, before the consultation. -/
def Station.imaged (e : Sheet) (gap : Nat) (ses : Session) (clock : Nat) (x : Station) : Station :=
  ((x.metered e gap ses).joins e).completed clock e.number

/-- The session once a metered sheet has joined its path. -/
def Session.imaged (e : Sheet) (full : Bool) (clock : Nat) (ses : Session) : Session :=
  { ses.metered e with
    sheetsExited := if full then satAdd max32 ses.sheetsExited 1 else ses.sheetsExited
    lastActivity := clock }

theorem imaged_session (e : Sheet) (gap : Nat) (ses : Session) (clock : Nat) (x : Station) :
    (x.imaged e gap ses clock).session = some (ses.imaged e (decide (8 ≤ x.inPath.length)) clock) := by
  show ((x.metered e gap ses).joins e).session.map _ = _
  by_cases hfull : 8 ≤ x.inPath.length
  · rw [metered_joins_full hfull, decide_eq_true hfull]
    rfl
  · rw [metered_joins_free hfull, decide_eq_false hfull]
    rfl

theorem imaged_inPath (e : Sheet) (gap : Nat) (ses : Session) (clock : Nat) (x : Station) :
    (x.imaged e gap ses clock).inPath = (if 8 ≤ x.inPath.length then x.inPath.tail else x.inPath) ++ [e] := by
  show ((x.metered e gap ses).joins e).inPath = _
  by_cases hfull : 8 ≤ x.inPath.length
  · rw [metered_joins_full hfull, if_pos hfull]
  · rw [metered_joins_free hfull, if_neg hfull]

/-- What joining the path and completing leave of a metered station. -/
theorem imaged_kept (e : Sheet) (gap : Nat) (ses : Session) (clock : Nat) (x : Station) :
    CountKept (x.metered e gap ses) (x.imaged e gap ses clock) ∧ (x.imaged e gap ses clock).state = x.state ∧
      (x.imaged e gap ses clock).tariff = x.tariff ∧ (x.imaged e gap ses clock).slot = x.slot ∧
      (x.imaged e gap ses clock).settings = x.settings ∧ (x.imaged e gap ses clock).advances = [] ∧
      (x.imaged e gap ses clock).job = x.job.map (fun j => { j with
        released := j.released - e.charged
        lastSheet := if j.mode = .single ∧ j.released - e.charged = 0 ∧ j.unmet = 0 then some e.number else j.lastSheet }) ∧
      ∀ k, OutRecord.grant k ∈ (x.imaged e gap ses clock).sendList ↔ OutRecord.grant k ∈ x.sendList := by
  unfold Station.imaged
  by_cases hfull : 8 ≤ x.inPath.length
  · rw [metered_joins_full hfull]
    exact ⟨⟨⟨rfl, rfl⟩, rfl, rfl, rfl, rfl⟩, rfl, rfl, rfl, rfl, rfl, Option.map_map ..,
      fun k => grant_mem_panelList k _⟩
  · rw [metered_joins_free hfull]
    exact ⟨⟨⟨rfl, rfl⟩, rfl, rfl, rfl, rfl⟩, rfl, rfl, rfl, rfl, rfl, Option.map_map ..,
      fun k => grant_mem_panelList k _⟩

/-- What metering, the path and the completion leave of the part, before closing or the consultation. -/
structure SheetImaged (n : StationId) (ses : Session) (e : Sheet) (gap : Nat) (taken : PerClass Nat → PerClass Nat)
    (s w : State) : Prop where
  station : w.st n = (s.st n).imaged e gap ses s.clock
  others : ∀ m, m ≠ n → w.st m = s.st m
  rest : w = { s with stations := w.stations, accounts := w.accounts, notices := w.notices }
  account : ∀ i, ses.funding = .account i → w.account i = { s.account i with sides := taken (s.account i).sides }
  foreign : ∀ i, ses.funding ≠ .account i → w.account i = s.account i
  tables : AccountTable.wf s.accounts → AccountTable.wf w.accounts

theorem Metered.imaged (h : Metered n ses e gap taken s v) (hlast : 8 ≤ (s.st n).inPath.length →
    ∀ f, (s.st n).inPath.head? = some f → ∀ j, (s.st n).job = some j → j.lastSheet ≠ some f.number) :
    SheetImaged n ses e gap taken s (sheetCompleted e.number n (joinPath e n v)) ∧
      completeImaged e n (joinPath e n v) = (if e.overrun = true ∧ (s.st n).state ≠ .closing then
          startClosing .overrun n (sheetCompleted e.number n (joinPath e n v))
        else if ¬ e.overrun = true ∧ (s.st n).state = .running then
          consult false n (sheetCompleted e.number n (joinPath e n v))
        else sheetCompleted e.number n (joinPath e n v)) ∧
      (8 ≤ (s.st n).inPath.length → Raised .protocol n (sheetCompleted e.number n (joinPath e n v))) := by
  obtain ⟨hat, hst, hraised⟩ := joinPath_result (e := e) (n := n) (v := v) (by
    rw [h.station]
    intro hfull f hf j hj
    obtain ⟨j₀, hj₀, rfl⟩ := Option.map_eq_some_iff.mp hj
    exact hlast hfull f hf j₀ hj₀)
  rw [h.station] at hst
  have hall := hat.trans (atStation_sheetCompleted e.number n _)
  have hclock : (joinPath e n v).clock = s.clock := by rw [hat.clock, h.rest]
  have hstation : (sheetCompleted e.number n (joinPath e n v)).st n = (s.st n).imaged e gap ses s.clock := by
    rw [st_sheetCompleted, hst, hclock]
    rfl
  refine ⟨⟨hstation, fun m hm => (hall.others m hm).trans (h.others m hm), ?_, fun i hi => ?_, fun i hi => ?_, fun hs => ?_⟩,
    ?_, fun hfull => ?_⟩
  · rw [hall.rest, h.rest]
  · rw [hall.account]
    exact h.account i hi
  · rw [hall.account]
    exact h.foreign i hi
  · rw [hall.accounts]
    exact h.tables hs
  · have hstate : (((joinPath e n v).st n).completed (joinPath e n v).clock e.number).state = (s.st n).state := by
      rw [hst]
      exact (imaged_kept e gap ses s.clock (s.st n)).2.1
    rw [completeImaged_eq, hstate]
  · refine Raised.modSt (Raised.notices (Raised.modSt (Raised.modSt (hraised ?_) n _) n _) (statePanel_notices n _)) n _
    rw [h.station]
    exact hfull

/-- The consultation after a sheet whose sides are all released: what it keeps of the sheet's metering, and what it grants
(R44, R48). -/
theorem SheetImaged.consulted {w : State} {j : Job} (h : SheetImaged n ses e gap taken s w) (hj : (s.st n).job = some j)
    (hstate : (s.st n).state = .running) :
    ∃ (k : Job) (g : Nat), Granting n (ses.imaged e (decide (8 ≤ (s.st n).inPath.length)) s.clock) k w (consult false n w) ∧
      Consulted .running (decide (j.mode = .set)) (j.laterRequest (s.st n).settings.window (j.released - e.charged)) n
        { ses with gross := ses.gross + e.mills } (j.released - e.charged) j.setsRemaining s (consult false n w) g := by
  obtain ⟨-, hkept, htariff, hslot, hsettings, -, hjob, hgrants⟩ := imaged_kept e gap ses s.clock (s.st n)
  have hsession : (w.st n).session = some (ses.imaged e (decide (8 ≤ (s.st n).inPath.length)) s.clock) := by
    rw [h.station, imaged_session]
  rw [hj] at hjob
  have hwj := (congrArg Station.job h.station).trans hjob
  have hrun : (w.st n).state = .running := by rw [h.station, hkept, hstate]
  obtain ⟨hgranting, g, hconsulted⟩ := consult_result hsession hwj false (.inl hrun)
  have hwindow : (w.st n).settings = (s.st n).settings := by rw [h.station, hsettings]
  have hfrom : SizedFrom n s w := by
    refine ⟨?_, by rw [h.station, hslot], fun k => by rw [h.station]; exact hgrants k, by rw [h.rest],
      by rw [h.rest]; exact ⟨rfl, rfl⟩, h.tables, fun _ i => ?_⟩
    · rw [h.station, Station.ceiling, htariff]
      rfl
    · by_cases hi : ses.funding = .account i
      · rw [h.account i hi]
      · rw [h.foreign i hi]
  rw [hrun, hwindow, request_eq_laterRequest] at hconsulted
  exact ⟨_, g, hgranting, hconsulted.from hfrom rfl rfl rfl⟩

end

end Sys2Proof.Machine
end

section
/-! PROOF. A released sheet in RUNNING is priced, joins the path and is followed by a consultation (R39 to R44, R48 to
R53, R60). -/

namespace Sys2Proof.Machine

/-! ## What the consultation leaves of a sheet -/

/-- A sheet whose sides are all released has been metered at station `n` and its job's mode consulted (R44, R48). -/
structure SheetGranted (n : StationId) (ses : Session) (j : Job) (e : Sheet) (gap : Nat)
    (taken : PerClass Nat → PerClass Nat) (s t : State) : Prop where
  others : ∀ m, m ≠ n → t.st m = s.st m
  log : t.log = s.log
  state : (t.st n).state = .running ∨ (t.st n).state = .starved
  frame : t.st n = { (s.st n).imaged e gap ses s.clock with
    state := (t.st n).state, changed := (t.st n).changed, idleTimer := (t.st n).idleTimer, session := (t.st n).session
    slot := (t.st n).slot, sendList := (t.st n).sendList, job := (t.st n).job }
  session : ∃ l f, (t.st n).session =
    some { ses.imaged e (decide (8 ≤ (s.st n).inPath.length)) s.clock with limit := l, funding := f }
  account : ∀ i, ses.funding = .account i → AccountTable.wf s.accounts → t.account i =
    { s.account i with sides := taken (s.account i).sides, funded := (t.account i).funded }
  foreign : ∀ i, ses.funding ≠ .account i → t.account i = s.account i
  raised : 8 ≤ (s.st n).inPath.length → Raised .protocol n t
  consulted : ∃ g, Consulted .running (decide (j.mode = .set))
    (j.laterRequest (s.st n).settings.window (j.released - e.charged)) n { ses with gross := ses.gross + e.mills }
    (j.released - e.charged) j.setsRemaining s t g

section
variable {src : NoticeSource} {n : StationId} {s : State}

/-- A consultation takes no station out of a notice's bitmap. -/
theorem Raised.consult (h : Raised src n s) (atStart : Bool) (m : StationId) : Raised src n (consult atStart m s) := by
  have hextend : ∀ (i : AccountId) (request tries : Nat) (u : State), Raised src n u →
      Raised src n (askExtensions i m request tries u) := by
    intro i request tries
    induction tries with
    | zero => exact fun _ hu => hu
    | succ tries ih =>
      intro u hu
      have hask : Raised src n (requestExtension i m u).2 := by
        unfold requestExtension
        split
        · exact hu
        · exact Raised.notices (Raised.notices hu rfl) (statePanel_notices m _)
      unfold askExtensions
      split
      · exact hu
      · split
        · next heq => rw [heq] at hask; exact hask
        · next heq => rw [heq] at hask; exact ih _ hask
  have hfund : ∀ request, Raised src n (askFunder m request s) := fun request => by
    unfold askFunder
    split
    · exact h
    · split
      · exact h
      · split
        · exact hextend _ _ _ _ h
        · split
          · unfold requestTopup
            split
            · exact Raised.raiseMask (Raised.notices h rfl) .authWaiting _
            all_goals exact h
          · exact h
        · exact h
  have hgive : ∀ request g oneSet u, Raised src n u → Raised src n (giveGrant m request g oneSet u) :=
    fun request g oneSet u hu => Raised.notices hu (by rw [giveGrant_rest])
  unfold Machine.consult
  split
  · exact h
  · dsimp only
    unfold grantOutcome
    split
    · exact (hgive _ _ _ _ (hfund _)).enter false .running m
    · split
      · exact (hgive _ _ _ _ (hfund _)).enter false .starved m
      · exact hgive _ _ _ _ (hfund _)

end

section
variable {n : StationId} {ses : Session} {j : Job} {e : Sheet} {gap sheet cls sides : Nat}
  {taken : PerClass Nat → PerClass Nat} {s v : State}

/-- A record that reaches the metering in RUNNING with a sheet whose sides are all released. -/
theorem Metered.granted (h : Metered n ses e gap taken s v) (hj : (s.st n).job = some j) (hstate : (s.st n).state = .running)
    (hover : e.overrun = false)
    (hlast : 8 ≤ (s.st n).inPath.length → ∀ f, (s.st n).inPath.head? = some f → j.lastSheet ≠ some f.number)
    (hseq : (s.st n).seqVerdict sheet = some gap) (hsides : sides = 1 ∨ sides = 2)
    (hmeter : meterSheet sheet cls sides n (passSeq sheet gap n (s.modSt n Station.lived)) = (e, v)) :
    SheetGranted n ses j e gap taken s (takeImaged sheet cls sides n (s.modSt n Station.lived)) := by
  obtain ⟨himaged, hcomplete, hraised⟩ := h.imaged fun hfull f hf k hk => by
    obtain rfl : j = k := Option.some.inj (hj.symm.trans hk)
    exact hlast hfull f hf
  obtain ⟨k, g, hgranting, hconsulted⟩ := himaged.consulted hj hstate
  have htake : takeImaged sheet cls sides n (s.modSt n Station.lived) =
      consult false n (sheetCompleted e.number n (joinPath e n v)) := by
    rw [takeImaged_meters (.inr (.inr (.inl hstate))) hsides, meterImaged_eq hseq hmeter, hcomplete, hover,
      if_neg fun e => Bool.false_ne_true e.1]
    exact if_pos ⟨Bool.false_ne_true, hstate⟩
  rw [htake]
  refine ⟨fun m hm => ((internal_consult _ _ _).others m hm).trans (himaged.others m hm), ?_,
    hconsulted.running_or_starved (.inl rfl), ?_, hgranting.session, fun i hi hs => ?_, fun i hi => ?_,
    fun hfull => (hraised hfull).consult false n, g, hconsulted⟩
  · rw [hgranting.log, himaged.rest]
  · rw [← himaged.station]
    exact hgranting.frame
  · rw [hgranting.accounts i (himaged.tables hs), himaged.account i hi]
  · rw [hgranting.unfunded i hi, himaged.foreign i hi]

/-- A sheet whose sides are all released, under a class the copier supports. -/
theorem granted_released {sheet : BitVec 16} {cls sides : Byte} {c : ClassId} {tf : Tariff}
    (hses : (s.st n).session = some ses) (hj : (s.st n).job = some j) (hstate : (s.st n).state = .running)
    (htf : (s.st n).tariff.active = some tf) (hsupports : (s.st n).supports cls c) (hasks : AsksNow n ses s)
    (hfit : FitsClass c 2 ses s) (hsides : sides = 1#8 ∨ sides = 2#8) (hreleased : sides.toNat ≤ j.released)
    (hlast : 8 ≤ (s.st n).inPath.length → ∀ f, (s.st n).inPath.head? = some f → j.lastSheet ≠ some f.number)
    (hseq : (s.st n).inSequence sheet.toNat gap) :
    let e := chargedEntry s n ses tf c sheet.toNat sides.toNat
    SheetGranted n ses j e gap (countedSides · e) s
      (takeImaged sheet.toNat cls.toNat sides.toNat n (s.modSt n Station.lived)) := by
  intro e
  have hcount : sides.toNat = 1 ∨ sides.toNat = 2 := by
    obtain rfl | rfl := hsides
    · exact .inl rfl
    · exact .inr rfl
  have hall : (s.st n).released = j.released := by rw [Station.released, hj]
  obtain ⟨v, hmeter, hmetered⟩ := meterSheet_charged (gap := gap) (sheet := sheet.toNat) hses htf
    (validClass_of_supports hsupports) hsupports.1 hasks hfit hcount
  refine hmetered.granted hj hstate ?_ hlast (seqVerdict_of_inSequence hseq) hcount hmeter
  exact decide_eq_false (by rw [hall]; omega)

/-- What the granted sheet has left of the station and its session. -/
theorem SheetGranted.figures {t : State} (h : SheetGranted n ses j e gap taken s t) :
    (t.st n).session.map Session.gross = some (ses.gross + e.mills) ∧
      (t.st n).session.map Session.sideCounts = some (countedSides ses.sideCounts e) ∧
      (t.st n).session.map Session.lastActivity = some s.clock ∧
      (t.st n).session.map Session.overrunSides = some (ses.metered e).overrunSides ∧
      (t.st n).session.map Session.sheetsExited =
        some (if 8 ≤ (s.st n).inPath.length then min 4294967295 (ses.sheetsExited + 1) else ses.sheetsExited) ∧
      (t.st n).inPath = (if 8 ≤ (s.st n).inPath.length then (s.st n).inPath.tail else (s.st n).inPath) ++ [e] ∧
      (t.st n).advances = [] ∧ CountKept ((s.st n).metered e gap ses) (t.st n) := by
  obtain ⟨l, f, hsession⟩ := h.session
  obtain ⟨hkept, -, -, -, -, hadvances, -⟩ := imaged_kept e gap ses s.clock (s.st n)
  have hframe := h.frame
  rw [hsession]
  refine ⟨rfl, rfl, rfl, rfl, ?_, ?_, ?_, ?_⟩
  · show some (if decide (8 ≤ (s.st n).inPath.length) = true then _ else _) = _
    simp only [decide_eq_true_eq]
    rfl
  · rw [hframe]
    exact imaged_inPath e gap ses s.clock (s.st n)
  · rw [hframe]
    exact hadvances
  · rw [hframe]
    exact ⟨hkept.numbering, hkept.gaps, hkept.overrun, hkept.sides, hkept.audit⟩

/-- The entry of a sheet whose sides are all released (R43). -/
theorem chargedEntry_released {c : ClassId} {tf : Tariff} (hpos : 0 < sides) (hreleased : sides ≤ (s.st n).released) :
    chargedEntry s n ses tf c sheet sides =
      { number := sheet, cls := c.val, sides := sides, charged := sides
        mills := sheetMills tf c sides sides (tierCounter s ses tf c) ses.gross
        basis := ses.funding.basisOf tf.pricing[c].basis
        overrun := false } := by
  have hmin : min sides (s.st n).released = sides := Nat.min_eq_left hreleased
  have hover : decide ((s.st n).released < sides) = false := decide_eq_false (Nat.not_lt.mpr hreleased)
  unfold chargedEntry
  dsimp only
  rw [hmin, hover, if_neg hpos.ne']
  cases ses.funding <;> rfl

end

/-- The mills of a released sheet, side by side (R61). -/
theorem sheetMills_released {tf : Tariff} {c : ClassId} {sides : Byte} (hsides : sides = 1#8 ∨ sides = 2#8)
    (counter gross : Nat) : gross + sheetMills tf c sides.toNat sides.toNat counter gross =
      (let m0 := sideMills tf c (if sides = 1#8 then .simplex else .first) counter gross
       let m1 := if sides = 1#8 then 0 else sideMills tf c .second (counter + 1) (gross + m0)
       gross + m0 + m1) := by
  obtain rfl | rfl := hsides <;> simp [sheetMills, Nat.add_assoc]

/-! ## A side advance made ahead (R60) -/

section
variable {n : StationId} {ses : Session} {s : State} {c : ClassId} {tf : Tariff} {i : AccountId} {ahead gap sheet : Nat}

/-- The mills of a duplex sheet whose first side's advance has been made ahead (R60). -/
def aheadMills (tf : Tariff) (c : ClassId) (ahead counter own gross : Nat) : Nat × Nat :=
  let m0 := sideMills tf c .first (if tf.pricing[c].basis = TierBasis.period then ahead else own) gross
  (m0, sideMills tf c .second (if tf.pricing[c].basis = TierBasis.period then counter else own + 1) (gross + m0))

/-- The entry of a duplex sheet whose first side's advance has been made ahead. -/
def aheadEntry (s : State) (ses : Session) (tf : Tariff) (i : AccountId) (c : ClassId) (ahead sheet : Nat) : Sheet :=
  let m := aheadMills tf c ahead (s.account i).sides[c] ses.sideCounts[c] ses.gross
  { number := sheet, cls := c.val, sides := 2, charged := 2, mills := m.1 + m.2, basis := tf.pricing[c].basis
    overrun := false }

/-- The two sides of a sheet priced, the first on an answer asked ahead. -/
theorem priceSides_ahead (hses : (s.st n).session = some ses) (htf : (s.st n).tariff.active = some tf)
    (hf : ses.funding = .account i) (hadvances : (s.st n).advances = [(c, ahead)])
    (hown : ses.sideCounts[c] + 2 ≤ 16777215) (hcount : (s.account i).sides[c] + 1 ≤ 16777215) :
    let m := aheadMills tf c ahead (s.account i).sides[c] ses.sideCounts[c] ses.gross
    (priceSides c 2 2 n s).1 = m.1 + m.2 ∧
      Priced c n ses 2 (m.1 + m.2) (fun v => modClass v c (· + 1)) s (priceSides c 2 2 n s).2 := by
  intro m
  generalize hu : s.modSt n (fun x => { x with advances := x.advances.erase (c, ahead) }) = u
  have hadvance : takeAdvance i c n s = (ahead, u) := by rw [takeAdvance_ahead hadvances, hu]
  have hust : u.st n = { s.st n with advances := [] } := by
    rw [← hu, st_modSt_self, hadvances, List.erase_cons_head]
  have hfirst := priceSide_account (kind := .first) hses htf hf hadvance
  have hpriced : Priced c n ses 1 m.1 id s (modSession n (Session.addSide c m.1) u) := by
    refine priced_addSide hses (by omega) (by rw [hust]) (fun q hq => ?_) ?_ (fun k _ => ?_) (fun k _ => ?_) fun hs => ?_
    · rw [← hu, st_modSt_ne _ _ hq]
    all_goals rw [← hu]
    · rfl
    · rfl
    · rfl
    · exact hs
  generalize hv : modSession n (Session.addSide c m.1) u = v at hpriced
  have hfirst' : priceSide c .first n s = (m.1, v) := by rw [hfirst, ← hv]; rfl
  have hvst := hpriced.station
  have hvsession : (v.st n).session = some (ses.priced c 1 m.1) := by rw [hvst]
  have hvadvances : (v.st n).advances = [] := by
    rw [← hv, modSession, st_modSt_self, hust]
  have hsides : (ses.priced c 1 m.1).sideCounts[c] = ses.sideCounts[c] + 1 := modClass_self _ _ _
  have hsame : (v.account i).sides = (s.account i).sides := by rw [hpriced.account i hf]; rfl
  obtain ⟨hmills, hsecond, -⟩ := priceSide_priced (tf := tf) (c := c) hvsession (by rw [hvst]; exact htf) (.inr hvadvances)
    ⟨by rw [hsides]; exact hown, fun k hk => by
      obtain rfl : i = k := Funding.account.inj (hf.symm.trans hk)
      rw [hsame]
      exact hcount⟩ .second
  have hcounter : tierCounter v (ses.priced c 1 m.1) tf c =
      if tf.pricing[c].basis = TierBasis.period then (s.account i).sides[c] else ses.sideCounts[c] + 1 := by
    have hfund : (ses.priced c 1 m.1).funding = .account i := hf
    rw [tierCounter, hfund]
    dsimp only
    rw [hsame, hsides]
  rw [hcounter] at hmills hsecond
  have hboth := hpriced.trans hsecond
  refine ⟨?_, ?_⟩
  · show (priceSide c .first n s).1 + (priceSide c .second n (priceSide c .first n s).2).1 = _
    rw [hfirst', hmills]
    rfl
  · show Priced _ _ _ _ _ _ _ (priceSide c .second n (priceSide c .first n s).2).2
    rw [hfirst']
    exact hboth

/-- A duplex sheet is metered on an answer asked ahead (R60). -/
theorem meterSheet_ahead {cls : Byte} (hses : (s.st n).session = some ses) (htf : (s.st n).tariff.active = some tf)
    (hf : ses.funding = .account i) (hadvances : (s.st n).advances = [(c, ahead)])
    (hown : ses.sideCounts[c] + 2 ≤ 16777215) (hcount : (s.account i).sides[c] + 1 ≤ 16777215)
    (hsupports : (s.st n).supports cls c) (hreleased : 2 ≤ (s.st n).released) :
    ∃ v, meterSheet sheet cls.toNat 2 n (passSeq sheet gap n (s.modSt n Station.lived)) =
        (aheadEntry s ses tf i c ahead sheet, v) ∧
      Metered n ses (aheadEntry s ses tf i c ahead sheet) gap (fun v => modClass v c (· + 1)) s v := by
  have hvalid := validClass_of_supports hsupports
  have hcharge : (s.st n).chargeable cls.toNat 2 = 2 := by
    rw [Station.chargeable, hvalid]
    exact Nat.min_eq_left hreleased
  have hst : (s.modSt n (Station.counting sheet gap c.val 2 0)).st n = (s.st n).counting sheet gap c.val 2 0 :=
    st_modSt_self _ _ _
  obtain ⟨hmills, hpriced⟩ := priceSides_ahead (c := c) (n := n) (i := i) (ahead := ahead) (tf := tf)
    (ses := { ses with overrunSides := satAdd max32 ses.overrunSides 0 })
    (s := s.modSt n (Station.counting sheet gap c.val 2 0)) (by
      rw [hst]
      show (s.st n).session.map _ = _
      rw [hses]
      rfl) (by rw [hst]; exact htf) hf (by rw [hst]; exact hadvances) hown hcount
  have houtcome : pricedOutcome sheet gap cls.toNat 2 n s = priceSides c 2 2 n
      (s.modSt n (Station.counting sheet gap c.val 2 0)) := by
    rw [pricedOutcome, hcharge, hvalid, hsupports.1]
  have hbasis : (s.st n).basisOf c = tf.pricing[c].basis := by
    rw [Station.basisOf, hses]
    dsimp only
    rw [hf, htf]
  refine ⟨_, ?_, Priced.metered (e := aheadEntry s ses tf i c ahead sheet) (c := c) rfl hpriced⟩
  rw [meterSheet_eq, houtcome, hmills, Station.entryBasis, hvalid, hcharge, hsupports.1]
  dsimp only
  rw [if_neg (by decide), hbasis]
  rfl

end

/-- Settles O46: a released sheet is priced and joins session, account and path. -/
theorem imagedSheetIsPriced : Obligations.ImagedSheetIsPriced := by
  unfold Obligations.ImagedSheetIsPriced
  refine ⟨fun s n sheet cls sides c ses j tf hp hstate hses hj htf hown hcls hbit hsides hreleased hpath hknown hseq hnext
      hfit => ?_,
    fun s n sheet cls sides c ses j tf i hp hstate hses hj htf hf hwf hcls hbit hsides hreleased hpath hknown hseq hnext hfit
      hcount hnone => ?_,
    fun s n sheet cls c ses j tf i ahead hp hstate hses hj htf hf hwf hcls hbit hreleased hpath hknown hseq hnext hfit hcount
      hadvances => ?_⟩
  · intro m0 m1
    have hpos : 0 < sides.toNat := by obtain rfl | rfl := hsides <;> decide
    have hall : (s.st n).released = j.released := by rw [Station.released, hj]
    have hgranted := granted_released (gap := 0) (sheet := sheet) (tf := tf) hses hj hstate htf ⟨hcls, hbit⟩ (.inl hown)
      ⟨hfit, fun i hi => absurd hi (hown i)⟩ hsides hreleased (fun hfull => absurd hfull (Nat.not_le.mpr hpath))
      (inSequence_next hknown hseq hnext)
    have hentry := chargedEntry_released (ses := ses) (c := c) (tf := tf) (sheet := sheet.toNat) hpos (s := s) (n := n)
      (by rw [hall]; exact hreleased)
    have hcounter : tierCounter s ses tf c = ses.sideCounts[c] := by
      unfold tierCounter
      cases hfund : ses.funding with
      | account i => exact absurd hfund (hown i)
      | bank _ _ _ => rfl
      | free => rfl
    have hbasis : ses.funding.basisOf tf.pricing[c].basis = .session := by
      cases hfund : ses.funding with
      | account i => exact absurd hfund (hown i)
      | bank _ _ _ => rfl
      | free => rfl
    have hmills : ses.gross + sheetMills tf c sides.toNat sides.toNat ses.sideCounts[c] ses.gross = ses.gross + m0 + m1 :=
      sheetMills_released hsides _ _
    have hsum : sheetMills tf c sides.toNat sides.toNat ses.sideCounts[c] ses.gross = m0 + m1 := by omega
    rw [hentry, hcounter, hbasis, hsum] at hgranted
    obtain ⟨hgross, hcounts, hact, hover, -, hin, -, hkept⟩ := hgranted.figures
    have hconsulted := hgranted.consulted
    rw [← Nat.add_assoc] at hgross
    rw [if_neg (Nat.not_le.mpr hpath)] at hin
    rw [countedSides_eq rfl] at hcounts
    dsimp only at hconsulted
    rw [← Nat.add_assoc] at hconsulted
    refine ⟨_, exec_imaged hp (by rw [hstate]; exact StationState.noConfusion) (by rw [hstate]; exact StationState.noConfusion),
      hgranted.others, hgranted.log, hgranted.state, hkept.numbering.1, hgross, hcounts, hact, ?_, hin, hconsulted⟩
    rw [hover]
    simp [Session.metered, satAdd, max32]
  · intro n0 m0 m1
    have hpos : 0 < sides.toNat := by obtain rfl | rfl := hsides <;> decide
    have hall : (s.st n).released = j.released := by rw [Station.released, hj]
    have hgranted := granted_released (gap := 0) (sheet := sheet) (tf := tf) hses hj hstate htf ⟨hcls, hbit⟩ (.inr hnone)
      ⟨hfit, fun k hk => by obtain rfl : i = k := Funding.account.inj (hf.symm.trans hk); exact hcount⟩ hsides hreleased
      (fun hfull => absurd hfull (Nat.not_le.mpr hpath)) (inSequence_next hknown hseq hnext)
    have hentry := chargedEntry_released (ses := ses) (c := c) (tf := tf) (sheet := sheet.toNat) hpos (s := s) (n := n)
      (by rw [hall]; exact hreleased)
    have hcounter : tierCounter s ses tf c = n0 := by rw [tierCounter, hf]
    have hmills : ses.gross + sheetMills tf c sides.toNat sides.toNat n0 ses.gross = ses.gross + m0 + m1 :=
      sheetMills_released hsides _ _
    have hsum : sheetMills tf c sides.toNat sides.toNat n0 ses.gross = m0 + m1 := by omega
    rw [hentry, hcounter, hf, hsum] at hgranted
    obtain ⟨hgross, hcounts, -, -, -, hin, -, hkept⟩ := hgranted.figures
    have hconsulted := hgranted.consulted
    have haccount := hgranted.account i hf hwf
    rw [← Nat.add_assoc] at hgross
    rw [if_neg (Nat.not_le.mpr hpath)] at hin
    rw [countedSides_eq rfl] at hcounts
    dsimp only at hconsulted
    rw [← Nat.add_assoc] at hconsulted
    refine ⟨_, exec_imaged hp (by rw [hstate]; exact StationState.noConfusion) (by rw [hstate]; exact StationState.noConfusion),
      hgranted.others, hgranted.log, fun k hk => hgranted.foreign k fun e => hk ?_, by rw [haccount], ?_, hgranted.state,
      hkept.numbering.1, hgross, hcounts, hin, hconsulted⟩
    · exact (Funding.account.inj (hf.symm.trans e)).symm
    · rw [haccount]
      exact countedSides_eq rfl
  · intro period m0 m1
    have hall : (s.st n).released = j.released := by rw [Station.released, hj]
    obtain ⟨v, hmeter, hmetered⟩ := meterSheet_ahead (gap := 0) (sheet := sheet.toNat) (cls := cls) hses htf hf hadvances hfit
      hcount ⟨hcls, hbit⟩ (by rw [hall]; exact hreleased)
    have hgranted := hmetered.granted hj hstate rfl (fun hfull => absurd hfull (Nat.not_le.mpr hpath))
      (seqVerdict_of_inSequence (inSequence_next hknown hseq hnext)) (.inr rfl) hmeter
    have hmills : aheadMills tf c ahead (s.account i).sides[c] ses.sideCounts[c] ses.gross = (m0, m1) := by
      simp only [aheadMills, m1, m0, period, decide_eq_true_eq]
    have hentry : aheadEntry s ses tf i c ahead sheet.toNat =
        { number := sheet.toNat, cls := c.val, sides := 2, charged := 2, mills := m0 + m1, basis := tf.pricing[c].basis
          overrun := false } := by rw [aheadEntry, hmills]
    rw [hentry] at hgranted
    obtain ⟨hgross, hcounts, -, -, -, hin, hempty, -⟩ := hgranted.figures
    have haccount := hgranted.account i hf hwf
    rw [← Nat.add_assoc] at hgross
    rw [if_neg (Nat.not_le.mpr hpath)] at hin
    rw [countedSides_eq rfl] at hcounts
    refine ⟨_, exec_imaged hp (by rw [hstate]; exact StationState.noConfusion) (by rw [hstate]; exact StationState.noConfusion),
      hgranted.others, hgranted.log, fun k hk => hgranted.foreign k fun e => hk ?_, ?_, hempty, hgross, hcounts, hin⟩
    · exact (Funding.account.inj (hf.symm.trans e)).symm
    · rw [show (2#8).toNat = 2 from rfl, haccount]
      rfl

end Sys2Proof.Machine
end

section
/-! PROOF. IMAGED records apart from a plain released sheet (R38 to R47, R153): faults, sheets with no session, overrun, a full
path, and sheets imaged as a jam came. -/

namespace Sys2Proof.Machine

section
variable {n : StationId} {ses : Session} {e : Sheet} {gap sheet cls sides : Nat} {s t w : State}

/-! ## Faults and sheets with no session (R38, R39, R46) -/

theorem seqVerdict_eq_none {x : Station} (h : (x.seqKnown = true ∧ x.lastSeq = sheet ∧ sheet < 65536) ∨
    (x.seqKnown = true ∧ x.lastSeq < 65536 ∧ 32768 ≤ (sheet + 65536 - x.lastSeq) % 65536) ∨
    (x.seqKnown = false ∧ ∃ e ∈ x.inPath, e.number = sheet)) : x.seqVerdict sheet = none := by
  unfold Station.seqVerdict
  obtain ⟨hknown, hlast, hlt⟩ | ⟨hknown, hlast, hdist⟩ | ⟨hknown, f, hf, hnumber⟩ := h
  · have hzero : seqDistance sheet x.lastSeq = 0 := by
      rw [seqDistance, hlast, Nat.mod_eq_of_lt hlt, Nat.add_sub_cancel_left]
    rw [if_pos hknown, hzero]
    exact if_neg fun h => absurd h.1 (by decide)
  · have hd : seqDistance sheet x.lastSeq = (sheet + 65536 - x.lastSeq) % 65536 := by
      rw [seqDistance, Nat.mod_eq_of_lt hlast]
    rw [if_pos hknown, hd]
    exact if_neg fun h => absurd h.2 (by omega)
  · rw [if_neg (by rw [hknown]; exact Bool.false_ne_true)]
    refine if_pos ?_
    simp only [List.any_eq_true, decide_eq_true_eq]
    exact ⟨f, hf, hnumber⟩

/-- A record that fails its check is a protocol fault in every state that looks at it (R38, R39). -/
theorem takeImaged_faults (hstate : (s.st n).state ≠ .disabled ∧ (s.st n).state ≠ .down ∧ (s.st n).state ≠ .suspended)
    (h : (sides ≠ 1 ∧ sides ≠ 2) ∨ (s.st n).seqVerdict sheet = none) :
    takeImaged sheet cls sides n s = protocolFault n s := by
  obtain ⟨hdis, hdown, hsus⟩ := hstate
  rw [takeImaged, if_neg hdis]
  by_cases hsides : sides ≠ 1 ∧ sides ≠ 2
  · exact if_pos hsides
  · have hverdict := h.resolve_left hsides
    rw [if_neg hsides]
    cases hs : (s.st n).state with
    | disabled => exact absurd hs hdis
    | down => exact absurd hs hdown
    | suspended => exact absurd hs hsus
    | running => exact by rw [meterImaged, hverdict]
    | starved => exact by rw [meterImaged, hverdict]
    | opened => exact by rw [meterImaged, hverdict]
    | confirming => exact by rw [meterImaged, hverdict]
    | closing => exact by rw [meterImaged, hverdict]
    | jammedSession => exact by rw [jammedImaged, hverdict]
    | idle => exact by rw [unattributedImaged, hverdict]
    | authorizing => exact by rw [unattributedImaged, hverdict]
    | service => exact by rw [unattributedImaged, hverdict]
    | jammedFree => exact by rw [unattributedImaged, hverdict]

/-- A sheet with no session is counted as unattributed (R46). -/
theorem takeImaged_unattributed (hstate : (s.st n).state = .idle ∨ (s.st n).state = .authorizing ∨
    (s.st n).state = .service ∨ (s.st n).state = .jammedFree) (hsides : sides = 1 ∨ sides = 2)
    (hseq : (s.st n).seqVerdict sheet = some gap) : takeImaged sheet cls sides n s =
      s.modSt n (fun x => { x with
        lastSeq := sheet
        seqKnown := true
        counters := { x.counters with
          sequenceGaps := satAdd max32 x.counters.sequenceGaps gap
          unattributed := satAdd max32 x.counters.unattributed sides }
        audit := x.audit.report cls .unattributed sides }) := by
  have htake : takeImaged sheet cls sides n s = unattributedImaged sheet cls sides n s := by
    rw [takeImaged, if_neg (by obtain h | h | h | h := hstate <;> rw [h] <;> exact StationState.noConfusion),
      if_neg fun h => hsides.elim h.1 h.2]
    obtain h | h | h | h := hstate <;> rw [h]
  rw [htake, unattributedImaged, hseq]
  dsimp only
  rw [reportSides, passSeq, modSt_modSt, modSt_modSt]

/-! ## Overrun (R41, R44) -/

theorem closed_kept (reason : EndReason) (x : Station) : CountKept x (x.closed reason) := by
  unfold Station.closed
  have hst : ∀ y : Station, CountKept y (y.entered .closing) := fun y =>
    ⟨⟨entered_lastSeq _ _, entered_seqKnown _ _⟩, by rw [entered_counters], by rw [entered_counters],
      by rw [entered_counters], entered_audit _ _⟩
  refine CountKept.trans ?_ (hst _)
  have htop : ∀ y : Station, CountKept y y.topupVoided := fun y => by
    unfold Station.topupVoided
    split <;> exact ⟨⟨rfl, rfl⟩, rfl, rfl, rfl, rfl⟩
  obtain ⟨hnum, hgaps, hover, hsides, haudit⟩ := htop x.closingFrom
  exact ⟨hnum, hgaps, hover, hsides, haudit⟩

theorem TopupTakenBack.from (h : TopupTakenBack n w t) (hslot : (w.st n).slot = (s.st n).slot)
    (hfunding : (w.st n).session.map Session.funding = (s.st n).session.map Session.funding) : TopupTakenBack n s t :=
  ⟨fun card dc req hs => by
      obtain ⟨hactive, hoff, hfund⟩ := h.voided card dc req (by rw [hslot]; exact hs)
      exact ⟨hactive, hoff, fun a v k hf => hfund a v k (by rw [hfunding]; exact hf)⟩,
    fun hno => by
      obtain ⟨hkept, hfund⟩ := h.kept (by rw [hslot]; exact hno)
      exact ⟨hkept.trans hslot, hfund.trans hfunding⟩⟩

/-- A sheet with overrun sides starts closing (R41, R44). -/
theorem SheetImaged.overrunClosed (h : SheetImaged n ses e gap (countedSides · e) s w) (hses : (s.st n).session = some ses)
    (hend : ses.endReason = none) (hpath : (s.st n).inPath.length < 8) (hstate : (s.st n).state ≠ .closing) :
    OverrunClosed n ses e gap s (startClosing .overrun n w) := by
  obtain ⟨hkept, hsame, -, hslot, -⟩ := imaged_kept e gap ses s.clock (s.st n)
  have hsession := imaged_session e gap ses s.clock (s.st n)
  have hin := imaged_inPath e gap ses s.clock (s.st n)
  rw [← h.station] at hkept hsame hslot hsession hin
  rw [if_neg (Nat.not_le.mpr hpath)] at hin
  rw [decide_eq_false (Nat.not_le.mpr hpath)] at hsession
  have hclosing : (w.st n).state ≠ .closing := by rw [hsame]; exact hstate
  have hmay : (w.st n).mayClose := by
    refine ⟨by rw [hsession]; rfl, ?_, by rw [hin]; exact List.append_ne_nil_of_right_ne_nil _ (List.cons_ne_nil _ _)⟩
    rw [hsession]
    exact hend
  obtain ⟨hbegun, -, hothers, hlog, haccounts⟩ := closingBegun_startClosing (reason := .overrun) hmay hclosing
  have hst : (startClosing .overrun n w).st n = { (w.st n).closed .overrun with drainTimer := some 20 } := by
    rw [startClosing_drains hmay hclosing, st_modSt_self, st_closingStarted]
  have hclosedSession : ((startClosing .overrun n w).st n).session =
      some ((ses.imaged e false s.clock).closing .overrun (w.st n).slot.topupTags) := by
    rw [hst]
    show ((w.st n).closed .overrun).session = _
    rw [closed_session, hsession]
    rfl
  have haccount : ∀ i, (startClosing .overrun n w).account i = w.account i := fun i => by rw [State.account, haccounts]; rfl
  have hcounts : CountKept (w.st n) ((startClosing .overrun n w).st n) := by
    rw [hst]
    obtain ⟨hnum, hgaps, hover, hsides, haudit⟩ := closed_kept .overrun (w.st n)
    exact ⟨hnum, hgaps, hover, hsides, haudit⟩
  refine ⟨(hkept.trans hcounts).sheetCounted hses (by rw [hclosedSession]; rfl) (by rw [hclosedSession]; rfl)
    ⟨fun m hm => (hothers m hm).trans (h.others m hm), by rw [hlog, h.rest]⟩, ⟨by rw [hbegun.path, hin],
      by rw [hclosedSession]; rfl, by rw [hclosedSession]; rfl, fun i hi _ => ?_, fun i hi _ => ?_⟩, hbegun.draining,
    hbegun.topup.from hslot ?_⟩
  · rw [haccount, h.account i hi]
    exact ⟨rfl, rfl⟩
  · rw [haccount, h.foreign i hi]
  · rw [hsession, hses]
    rfl

/-- A metered record with overrun sides starts closing (R41, R44). -/
theorem takeImaged_overrun {v : State} (hses : (s.st n).session = some ses) (hend : ses.endReason = none)
    (hstate : (s.st n).state = .opened ∨ (s.st n).state = .confirming ∨ (s.st n).state = .running ∨
      (s.st n).state = .starved) (hsides : sides = 1 ∨ sides = 2) (hseq : (s.st n).seqVerdict sheet = some gap)
    (hpath : (s.st n).inPath.length < 8) (hover : e.overrun = true)
    (hmeter : meterSheet sheet cls sides n (passSeq sheet gap n (s.modSt n Station.lived)) = (e, v))
    (hmetered : Metered n ses e gap (countedSides · e) s v) :
    OverrunClosed n ses e gap s (takeImaged sheet cls sides n (s.modSt n Station.lived)) := by
  have hclosing : (s.st n).state ≠ .closing := by
    obtain h | h | h | h := hstate <;> rw [h] <;> exact StationState.noConfusion
  obtain ⟨himaged, hcomplete, -⟩ := hmetered.imaged fun hfull => absurd hfull (Nat.not_le.mpr hpath)
  have htake : takeImaged sheet cls sides n (s.modSt n Station.lived) =
      startClosing .overrun n (sheetCompleted e.number n (joinPath e n v)) := by
    rw [takeImaged_meters hstate hsides, meterImaged_eq hseq hmeter, hcomplete]
    exact if_pos ⟨hover, hclosing⟩
  rw [htake]
  exact himaged.overrunClosed hses hend hpath hclosing

/-! ## Sheets imaged as a jam came (R153) -/

/-- The sides of an account after a return for each class of some sheets (R118, R146). -/
theorem account_returnSides {i : AccountId} (l : List Sheet) : ∀ (cs : List ClassId) (s : State), cs.Nodup →
    AccountTable.wf s.accounts →
    let t := cs.foldl (fun acc c => if chargedOf l c = 0 then acc else requestSideReturn i c (chargedOf l c) acc) s
    ∀ c : ClassId, (t.account i).sides[c] =
      if c ∈ cs then (s.account i).sides[c] - chargedOf l c else (s.account i).sides[c]
  | [], s, _, _ => fun c => rfl
  | d :: cs, s, hnodup, hs => by
    intro t c
    obtain ⟨hd, hcs⟩ := List.nodup_cons.mp hnodup
    by_cases hzero : chargedOf l d = 0
    · have ht : t = cs.foldl (fun acc c => if chargedOf l c = 0 then acc else requestSideReturn i c (chargedOf l c) acc) s :=
        congrArg (fun u => cs.foldl _ u) (if_pos hzero)
      rw [ht, account_returnSides l cs s hcs hs c]
      by_cases hc : c = d
      · subst hc
        rw [if_neg hd, if_pos (List.mem_cons_self ..), hzero, Nat.sub_zero]
      · simp only [List.mem_cons, hc, false_or]
    · have ht : t = cs.foldl (fun acc c => if chargedOf l c = 0 then acc else requestSideReturn i c (chargedOf l c) acc)
          (requestSideReturn i d (chargedOf l d) s) := congrArg (fun u => cs.foldl _ u) (if_neg hzero)
      have hone : ((requestSideReturn i d (chargedOf l d) s).account i).sides =
          modClass (s.account i).sides d (fun k => k - chargedOf l d) := by
        rw [requestSideReturn, account_modAccount_self hs]
      rw [ht, account_returnSides l cs (requestSideReturn i d (chargedOf l d) s) hcs (modAccount_wf hs i _) c, hone]
      by_cases hc : c = d
      · subst hc
        rw [if_neg hd, if_pos (List.mem_cons_self ..)]
        exact modClass_self _ _ _
      · have hother : (modClass (s.account i).sides d (fun k => k - chargedOf l d))[c] = (s.account i).sides[c] := by
          simp only [modClass, Fin.getElem_fin]
          rw [Vector.getElem_set_ne _ _ fun e => hc (Fin.ext e.symm)]
        rw [hother]
        simp only [List.mem_cons, hc, false_or]

/-- A credit returns the charged sides of the path to the account of its session (R118, R146). -/
theorem credit_account {i : AccountId} (hs : AccountTable.wf s.accounts) (hses : (s.st n).session = some ses)
    (hf : ses.funding = .account i) (c : ClassId) :
    ((credit n s).account i).sides[c] = (s.account i).sides[c] - chargedOf (s.st n).inPath c := by
  have hcredit : credit n s = returnSides i (s.st n).inPath (s.modSt n Station.credited) := by
    unfold credit
    dsimp only
    rw [hses]
    dsimp only
    rw [hf]
    rfl
  have hsides := account_returnSides (i := i) (s.st n).inPath (List.finRange 4) (s.modSt n Station.credited)
    (List.nodup_finRange 4) hs c
  rw [if_pos (List.mem_finRange c)] at hsides
  rw [hcredit]
  exact hsides

/-- The station that has credited a sheet imaged as the jam came, with the rest of its path (R146, R147, R153), before its
PANEL is listed. -/
def Station.jamCounts (e : Sheet) (gap : Nat) (ses : Session) (clock : Nat) (x : Station) : Station :=
  let y : Station := ({ x.metered e gap ses with inPath := x.inPath ++ [e] } : Station).credited
  { y with
    job := y.job.map (fun j => { j with reprint := satAdd 16 j.reprint (chargedSum (x.inPath ++ [e])) })
    lastJam := x.lastJam.map (JamReport.add (x.inPath ++ [e]))
    session := y.session.map (fun ses => { ses with lastActivity := clock }) }

/-- The station that has metered and credited a sheet imaged as the jam came (R153). -/
def Station.jamImaged (e : Sheet) (gap : Nat) (ses : Session) (clock : Nat) (x : Station) : Station :=
  { x.jamCounts e gap ses clock with sendList := (x.jamCounts e gap ses clock).panelList }

/-- The state in which a sheet imaged as the jam came is credited. -/
def jamListed (e : Sheet) (n : StationId) (v : State) : State :=
  v.modSt n (fun x => { x with inPath := x.inPath ++ [e] })

/-- A sheet imaged in JAMMED with a session is metered and credited (R153). -/
theorem takeImaged_jammed {v : State} (hstate : (s.st n).state = .jammedSession) (hsides : sides = 1 ∨ sides = 2)
    (hseq : (s.st n).seqVerdict sheet = some gap)
    (hmeter : meterSheet sheet cls sides n (passSeq sheet gap n (s.modSt n Station.lived)) = (e, v))
    (hmetered : Metered n ses e gap (countedSides · e) s v) :
    AtStation n (credit n (jamListed e n v)) (takeImaged sheet cls sides n (s.modSt n Station.lived)) ∧
      (takeImaged sheet cls sides n (s.modSt n Station.lived)).st n = (s.st n).jamImaged e gap ses s.clock := by
  have hlived : ((s.modSt n Station.lived).st n).state = .jammedSession := by rw [st_modSt_self]; exact hstate
  have hverdict : ((s.modSt n Station.lived).st n).seqVerdict sheet = some gap := by
    rw [st_modSt_self]
    exact hseq
  have hlisted : (jamListed e n v).st n = { (s.st n).metered e gap ses with inPath := (s.st n).inPath ++ [e] } := by
    rw [jamListed, st_modSt_self, hmetered.station]
    rfl
  have htake : takeImaged sheet cls sides n (s.modSt n Station.lived) = statePanel n (touchSession n
      ((allowReprint (chargedSum ((s.st n).inPath ++ [e])) n (credit n (jamListed e n v))).modSt n
        (fun x => { x with lastJam := x.lastJam.map (JamReport.add ((s.st n).inPath ++ [e])) }))) := by
    rw [takeImaged, if_neg (by rw [hlived]; exact StationState.noConfusion), if_neg fun h => hsides.elim h.1 h.2, hlived]
    show jammedImaged sheet cls sides n (s.modSt n Station.lived) = _
    rw [jammedImaged, hverdict]
    dsimp only
    rw [hmeter]
    have hin : ((jamListed e n v).st n).inPath = (s.st n).inPath ++ [e] := by rw [hlisted]
    rw [← hin]
    rfl
  have hclock : (credit n (jamListed e n v)).clock = s.clock := by
    rw [credit_rest, jamListed, hmetered.rest]
    rfl
  rw [htake]
  refine ⟨?_, ?_⟩
  · unfold touchSession allowReprint
    exact ((atStation_modSt _ n _).trans (atStation_modSt _ n _)).trans
      ((atStation_modSt _ n _).trans (atStation_statePanel n _))
  · have hclock' : ((allowReprint (chargedSum ((s.st n).inPath ++ [e])) n (credit n (jamListed e n v))).modSt n
        (fun x => { x with lastJam := x.lastJam.map (JamReport.add ((s.st n).inPath ++ [e])) })).clock = s.clock := hclock
    rw [st_statePanel, touchSession, hclock', modSession, st_modSt_self, st_modSt_self, allowReprint, modJob, st_modSt_self,
      st_credit, hlisted]
    rfl

end

/-- The charged sides of a path with one sheet more. -/
theorem chargedOf_append (l : List Sheet) (e : Sheet) (c : ClassId) :
    chargedOf (l ++ [e]) c = chargedOf l c + if c.val = e.cls then e.charged else 0 := by
  unfold chargedOf
  rw [List.filter_append, List.map_append, List.sum_append]
  by_cases h : c.val = e.cls
  · simp [h]
  · simp [h, Ne.symm h]

section
variable {n : StationId} {ses : Session} {e : Sheet} {gap sheet cls sides : Nat} {s v : State}

/-- What a sheet imaged as the jam came leaves (R153). -/
theorem jamSheetCredited (hstate : (s.st n).state = .jammedSession) (hses : (s.st n).session = some ses)
    (hsides : sides = 1 ∨ sides = 2) (hseq : (s.st n).seqVerdict sheet = some gap)
    (hmeter : meterSheet sheet cls sides n (passSeq sheet gap n (s.modSt n Station.lived)) = (e, v))
    (hmetered : Metered n ses e gap (countedSides · e) s v) :
    JamSheetCredited n ses e gap s (takeImaged sheet cls sides n (s.modSt n Station.lived)) := by
  obtain ⟨hat, hst⟩ := takeImaged_jammed hstate hsides hseq hmeter hmetered
  generalize takeImaged sheet cls sides n (s.modSt n Station.lived) = t at hat hst
  have hlisted : (jamListed e n v).st n = { (s.st n).metered e gap ses with inPath := (s.st n).inPath ++ [e] } := by
    rw [jamListed, st_modSt_self, hmetered.station]
    rfl
  have hsession : (t.st n).session =
      some { (ses.metered e).creditSheets ((s.st n).inPath ++ [e]) with lastActivity := s.clock } := by rw [hst]; rfl
  have hkept : CountKept ((s.st n).metered e gap ses) (t.st n) := by rw [hst]; exact ⟨⟨rfl, rfl⟩, rfl, rfl, rfl, rfl⟩
  have hmills : millsSum ((s.st n).inPath ++ [e]) = ((s.st n).inPath.map Sheet.mills).sum + e.mills := by simp [millsSum]
  have hcharged : chargedSum ((s.st n).inPath ++ [e]) = ((s.st n).inPath.map Sheet.charged).sum + e.charged := by
    simp [chargedSum]
  have hlength : ((s.st n).inPath ++ [e]).length = (s.st n).inPath.length + 1 := by simp
  have htaken : ∀ (counts : PerClass Nat) (c : ClassId), (countedSides counts e)[c] -
      chargedOf ((s.st n).inPath ++ [e]) c = counts[c] - chargedOf (s.st n).inPath c := fun counts c => by
    rw [chargedOf_append]
    simp only [countedSides, Fin.getElem_fin, Vector.getElem_ofFn]
    omega
  constructor
  case counted =>
    refine hkept.sheetCounted hses (by rw [hsession]; rfl) (by rw [hsession]; rfl) ⟨fun m hm => ?_, ?_⟩
    · rw [hat.others m hm, credit_others _ hm, jamListed, st_modSt_ne _ _ hm, hmetered.others m hm]
    · rw [hat.log, credit_rest, jamListed, hmetered.rest]
      rfl
  case stays => rw [hst]; exact ⟨hstate, rfl, rfl⟩
  case panel =>
    have hlock : ∀ x : Station, x.state = .jammedSession → x.panelList = listPanel true x.remaining (some .jammed) x.sendList :=
      fun x hx => by
        have hamount : x.lockAndAmount = some (true, x.remaining) := by unfold Station.lockAndAmount; rw [hx]
        rw [Station.panelList, hamount, hx]
        rfl
    rw [hst]
    exact (congrArg List.getLast? (hlock ((s.st n).jamCounts e gap ses s.clock) hstate)).trans (listPanel_getLast _ _ _ _)
  case session => rw [hsession]; rfl
  case gross =>
    rw [hsession]
    show some (ses.gross + e.mills - millsSum ((s.st n).inPath ++ [e])) = _
    rw [hmills]
    exact congrArg some (by omega)
  case credited =>
    rw [hsession]
    show some (satAdd maxMoney ses.credited (millsSum ((s.st n).inPath ++ [e]))) = _
    rw [hmills]
    rfl
  case sheets =>
    rw [hsession]
    show some (satAdd max32 ses.sheetsCredited ((s.st n).inPath ++ [e]).length) = _
    rw [hlength]
    rfl
  case sheetsCounter =>
    rw [hst]
    show satAdd max32 (s.st n).counters.sheetsCredited ((s.st n).inPath ++ [e]).length = _
    rw [hlength]
    rfl
  case sides =>
    intro c
    rw [hsession]
    show some ((Vector.ofFn (fun c : Fin 4 => (countedSides ses.sideCounts e)[c] -
      chargedOf ((s.st n).inPath ++ [e]) c))[c]) = _
    simp only [Fin.getElem_fin, Vector.getElem_ofFn]
    exact congrArg some (htaken ses.sideCounts c)
  case account =>
    intro i hf hs c
    have haccount : (jamListed e n v).account i = v.account i := rfl
    have htables : AccountTable.wf (jamListed e n v).accounts := hmetered.tables hs
    have hsides' := credit_account (n := n) (s := jamListed e n v) (ses := ses.metered e) (i := i) htables
      (by rw [hlisted]; rfl) hf c
    have hin : ((jamListed e n v).st n).inPath = (s.st n).inPath ++ [e] := by rw [hlisted]
    obtain ⟨sides, hown⟩ := (credit_accounts (n := n) htables).2.1 i
    rw [haccount, hmetered.account i hf] at hsides' hown
    rw [hin] at hsides'
    rw [hat.account]
    refine ⟨hsides'.trans (htaken (s.account i).sides c), ?_, ?_⟩
    · rw [hown]
    · rw [hown]
  case released =>
    rw [hst]
    show ((((s.st n).job.map _).map _).map _).map _ = _
    simp only [Option.map_map]
    rfl
  case reprint =>
    rw [hst]
    show ((((s.st n).job.map _).map _).map _).map _ = _
    simp only [Option.map_map]
    refine Option.map_congr fun j _ => ?_
    show satAdd 16 j.reprint (chargedSum ((s.st n).inPath ++ [e])) = _
    rw [hcharged]
    rfl
  case report =>
    rw [hst]
    show (s.st n).lastJam.map (JamReport.add ((s.st n).inPath ++ [e])) = _
    refine Option.map_congr fun r _ => ?_
    rw [JamReport.add, hlength, hcharged, hmills]
    rfl

end

end Sys2Proof.Machine
end

section
/-! PROOF. The cases of an IMAGED record apart from a plain released sheet (R38 to R47, R153). -/

namespace Sys2Proof.Machine

theorem toNat_of_sides {sides : Byte} (h : sides = 1#8 ∨ sides = 2#8) : sides.toNat = 1 ∨ sides.toNat = 2 := by
  obtain rfl | rfl := h
  · exact .inl rfl
  · exact .inr rfl

section
variable {n : StationId} {ses : Session} {e : Sheet} {gap : Nat} {s t : State}

/-- A faulty record changes its station's counter, its idle timer and the notices alone (R38, R39). -/
theorem imaged_fault {sheet : BitVec 16} {cls sides : Byte} (hp : (s.st n).passage = none)
    (hstate : (s.st n).state ≠ .disabled ∧ (s.st n).state ≠ .down ∧ (s.st n).state ≠ .suspended)
    (h : (sides.toNat ≠ 1 ∧ sides.toNat ≠ 2) ∨ (s.st n).seqVerdict sheet.toNat = none) :
    exec (.imaged n sheet cls sides) s = .next (protocolFault n (s.modSt n Station.lived)) ∧
      OnlyAt n s (protocolFault n (s.modSt n Station.lived)) ∧
      (protocolFault n (s.modSt n Station.lived)).st n = faulted (s.st n).lived := by
  have hlived : (s.modSt n Station.lived).st n = (s.st n).lived := st_modSt_self _ _ _
  refine ⟨?_, ((atStation_modSt s n _).trans (atStation_protocolFault n _)).onlyAt, by rw [st_protocolFault, hlived]⟩
  rw [exec_imaged hp hstate.2.1 hstate.2.2, takeImaged_faults (by rw [hlived]; exact hstate)]
  exact h.imp_right fun hv => by rw [hlived]; exact hv

/-- What the fault of a full path leaves (R43). -/
theorem imaged_counters (e : Sheet) (gap : Nat) (ses : Session) (clock : Nat) (x : Station) :
    (x.imaged e gap ses clock).counters.sheetsExited = (if 8 ≤ x.inPath.length then
        min 4294967295 (x.counters.sheetsExited + 1) else x.counters.sheetsExited) ∧
      (x.imaged e gap ses clock).counters.protocolFaults = (if 8 ≤ x.inPath.length then
        min 4294967295 (x.counters.protocolFaults + 1) else x.counters.protocolFaults) ∧
      (8 ≤ x.inPath.length → (x.imaged e gap ses clock).serviceDue = true) := by
  unfold Station.imaged
  by_cases hfull : 8 ≤ x.inPath.length
  · rw [metered_joins_full hfull, if_pos hfull, if_pos hfull]
    refine ⟨rfl, rfl, fun _ => ?_⟩
    show (x.serviceDue || true) = true
    exact Bool.or_true _
  · rw [metered_joins_free hfull, if_neg hfull, if_neg hfull]
    exact ⟨rfl, rfl, fun h => absurd h hfull⟩

/-- A granted sheet has been counted (R39 to R45). -/
theorem SheetGranted.counted {j : Job} {taken : PerClass Nat → PerClass Nat} (h : SheetGranted n ses j e gap taken s t)
    (hses : (s.st n).session = some ses) : SheetCounted n ses e gap s t := by
  obtain ⟨-, -, hact, hover, -, -, -, hkept⟩ := h.figures
  exact hkept.sheetCounted hses hover hact ⟨h.others, h.log⟩

/-- A granted sheet has joined the path of its session (R42, R43). -/
theorem SheetGranted.entered {j : Job} (h : SheetGranted n ses j e gap (countedSides · e) s t) :
    SheetEntered n ses e (if 8 ≤ (s.st n).inPath.length then (s.st n).inPath.tail else (s.st n).inPath) s t := by
  obtain ⟨hgross, hcounts, -, -, -, hpath, -⟩ := h.figures
  refine ⟨hpath, hgross, hcounts, fun i hi hs => ?_, fun i hi _ => h.foreign i hi⟩
  rw [h.account i hi hs]
  exact ⟨rfl, rfl⟩

end

/-- Settles O47: the other cases of an IMAGED record. -/
theorem imagedWithoutReleasedSides : Obligations.ImagedWithoutReleasedSides := by
  unfold Obligations.ImagedWithoutReleasedSides
  refine ⟨fun s n sheet cls sides hp => ⟨fun hdis hdown hsus hfault => ?_, fun hstate hnone gap hseq hsides => ?_,
      fun hstate hsome hend hjob hknown hpath hsides => ?_⟩,
    fun s n sheet cls sides gap ses hp hses hend hstate hseq hpath hsides hfit hnone =>
      ⟨fun c tf hsupports htf hreleased => ?_, fun hinvalid => ?_⟩,
    fun s n sheet cls sides gap ses j c tf hp hstate hses hj htf hwf hsupports hsides hreleased hseq hpath hlast hfit hnone => ?_,
    fun s n sheet cls sides gap ses hp hstate hses hseq hsides hfit hnone =>
      ⟨fun c tf hsupports htf => ?_, fun hinvalid => ?_⟩⟩
  · obtain ⟨hexec, honly, hst⟩ := imaged_fault (cls := cls) (sides := sides) (sheet := sheet) hp ⟨hdis, hdown, hsus⟩ (by
      obtain hsides | ⟨hknown, hlast⟩ | hfar | hlisted := hfault
      · exact .inl ⟨fun h => hsides.1 (BitVec.eq_of_toNat_eq h), fun h => hsides.2 (BitVec.eq_of_toNat_eq h)⟩
      · exact .inr (seqVerdict_eq_none (.inl ⟨hknown, hlast, sheet.isLt⟩))
      · exact .inr (seqVerdict_eq_none (.inr (.inl hfar)))
      · exact .inr (seqVerdict_eq_none (.inr (.inr hlisted))))
    refine ⟨_, hexec, honly, ?_⟩
    rw [hst]
    exact ⟨rfl, rfl, rfl, rfl, rfl, rfl, rfl, rfl, rfl⟩
  · have hup : (s.st n).state ≠ .down ∧ (s.st n).state ≠ .suspended := by
      obtain h | h | h | h := hstate <;> rw [h] <;> exact ⟨StationState.noConfusion, StationState.noConfusion⟩
    have hlived : (s.modSt n Station.lived).st n = (s.st n).lived := st_modSt_self _ _ _
    have htake := takeImaged_unattributed (cls := cls.toNat) (s := s.modSt n Station.lived) (by rw [hlived]; exact hstate)
      (toNat_of_sides hsides) (by rw [hlived]; exact seqVerdict_of_inSequence hseq)
    rw [modSt_modSt] at htake
    refine ⟨_, (exec_imaged hp hup.1 hup.2).trans (congrArg _ htake), rfl, fun m hm => st_modSt_ne s _ hm, ?_⟩
    rw [st_modSt_self]
    exact ⟨rfl, rfl, rfl, rfl, rfl, rfl⟩
  · obtain ⟨ses, hses⟩ := Option.isSome_iff_exists.mp hsome
    have hreason : ses.endReason = none := by rw [hses] at hend; exact hend
    have hcount := toNat_of_sides hsides
    have hzero : (s.st n).chargeable cls.toNat sides.toNat = 0 := by
      have hreleased : (s.st n).released = 0 := by rw [Station.released, hjob]
      unfold Station.chargeable
      split
      · rfl
      · rw [hreleased, Nat.min_zero]
    obtain ⟨v, hmeter, hmetered⟩ := meterSheet_uncharged (gap := 0) (sheet := sheet.toNat) hses hzero (by omega)
    have hover := takeImaged_overrun hses hreason (.inl hstate) hcount (seqVerdict_of_inSequence (by
      rw [Station.inSequence, if_neg (by rw [hknown]; exact Bool.false_ne_true), hpath]
      exact ⟨rfl, fun e he => absurd he List.not_mem_nil⟩)) (by rw [hpath]; decide) rfl hmeter hmetered
    refine ⟨_, exec_imaged hp (by rw [hstate]; exact StationState.noConfusion)
      (by rw [hstate]; exact StationState.noConfusion), hover.counted.elsewhere.1, hover.draining.state, hover.draining.reason,
      ?_, ?_, ?_, ?_⟩
    · rw [hover.entered.gross, hses]
      rfl
    · rw [hover.counted.overrun, hses]
      rfl
    · rw [hover.entered.path, hpath]
      rfl
    · rw [hover.entered.path, hpath]
      rfl
  · have hup : (s.st n).state ≠ .down ∧ (s.st n).state ≠ .suspended := by
      obtain h | h | h | h := hstate <;> rw [h] <;> exact ⟨StationState.noConfusion, StationState.noConfusion⟩
    have hcount := toNat_of_sides hsides
    obtain ⟨v, hmeter, hmetered⟩ := meterSheet_charged (gap := gap) (sheet := sheet.toNat) hses htf
      (validClass_of_supports hsupports) hsupports.1 (.inr hnone) ⟨(hfit c).1, (hfit c).2⟩ hcount
    exact ⟨_, exec_imaged hp hup.1 hup.2, takeImaged_overrun hses hend hstate hcount (seqVerdict_of_inSequence hseq) hpath
      (decide_eq_true hreleased) hmeter hmetered⟩
  · have hup : (s.st n).state ≠ .down ∧ (s.st n).state ≠ .suspended := by
      obtain h | h | h | h := hstate <;> rw [h] <;> exact ⟨StationState.noConfusion, StationState.noConfusion⟩
    have hcount := toNat_of_sides hsides
    have hzero : (s.st n).chargeable cls.toNat sides.toNat = 0 := by
      rw [Station.chargeable, validClass_eq_none hinvalid]
    obtain ⟨v, hmeter, hmetered⟩ := meterSheet_uncharged (gap := gap) (sheet := sheet.toNat) hses hzero (by omega)
    exact ⟨_, exec_imaged hp hup.1 hup.2, takeImaged_overrun hses hend hstate hcount (seqVerdict_of_inSequence hseq) hpath
      rfl hmeter hmetered⟩
  · intro e full
    have hfull : full ↔ 8 ≤ (s.st n).inPath.length := ⟨fun h => Nat.le_of_eq h.symm, fun h => Nat.le_antisymm hpath h⟩
    have hgranted : SheetGranted n ses j e gap (countedSides · e) s _ := granted_released (sheet := sheet) hses hj hstate htf
      hsupports (.inr hnone) ⟨(hfit c).1, (hfit c).2⟩ hsides hreleased (fun _ f hf => hlast f hf) hseq
    obtain ⟨-, -, -, -, hexited, -⟩ := hgranted.figures
    obtain ⟨hcexited, hcfaults, hservice⟩ := imaged_counters e gap ses s.clock (s.st n)
    have hcharged : e.charged = sides.toNat := by
      show min sides.toNat (s.st n).released = _
      rw [Station.released, hj]
      exact Nat.min_eq_left hreleased
    have hentered := hgranted.entered
    have hconsulted := hgranted.consulted
    have hframe := hgranted.frame
    rw [hcharged] at hconsulted
    simp only [← hfull] at hentered hexited hcexited hcfaults
    refine ⟨_, exec_imaged hp (by rw [hstate]; exact StationState.noConfusion)
      (by rw [hstate]; exact StationState.noConfusion), hgranted.counted hses, hentered, hexited, ?_, ?_,
      fun h => ⟨?_, hgranted.raised (hfull.mp h)⟩, hconsulted⟩
    · rw [hframe]
      exact hcexited
    · rw [hframe]
      exact hcfaults
    · rw [hframe]
      exact hservice (hfull.mp h)
  · obtain ⟨v, hmeter, hmetered⟩ := meterSheet_charged (gap := gap) (sheet := sheet.toNat) hses htf
      (validClass_of_supports hsupports) hsupports.1 (.inr hnone) ⟨(hfit c).1, (hfit c).2⟩ (toNat_of_sides hsides)
    exact ⟨_, exec_imaged hp (by rw [hstate]; exact StationState.noConfusion)
      (by rw [hstate]; exact StationState.noConfusion), jamSheetCredited hstate hses (toNat_of_sides hsides)
        (seqVerdict_of_inSequence hseq) hmeter hmetered⟩
  · have hcount := toNat_of_sides hsides
    have hzero : (s.st n).chargeable cls.toNat sides.toNat = 0 := by
      rw [Station.chargeable, validClass_eq_none hinvalid]
    obtain ⟨v, hmeter, hmetered⟩ := meterSheet_uncharged (gap := gap) (sheet := sheet.toNat) hses hzero (by omega)
    exact ⟨_, exec_imaged hp (by rw [hstate]; exact StationState.noConfusion)
      (by rw [hstate]; exact StationState.noConfusion), jamSheetCredited hstate hses hcount
        (seqVerdict_of_inSequence hseq) hmeter hmetered⟩

end Sys2Proof.Machine
end

section
/-! PROOF. The meter audit's judgement of a METER record (R177, R180 to R183), and the station links: receiver and
transmitter (R201, R202, R213, R214). -/

namespace Sys2Proof.Machine

/-! ## METER records -/

/-- The state that a METER record's rule works on. -/
theorem exec_meter {s : State} {n : StationId} {m0 m1 m2 m3 : BitVec 32} (hp : (s.st n).passage = none)
    (hd : (s.st n).state ≠ .down) (hs : (s.st n).state ≠ .suspended) : exec (.meter n m0 m1 m2 m3) s =
      .next (takeMeter #v[m0.toNat, m1.toNat, m2.toNat, m3.toNat] n (s.modSt n (fun x => { x with silence := 0 }))) := by
  refine congrArg Host.Outcome.next ?_
  show takeMeter _ n (arrive n s) = _
  rw [arrive_up hp hd hs]

theorem meterDelta_eq {base meter : PerClass Nat} (h : ∀ c : Fin 4, base[c] < 4294967296) (c : ClassId) :
    meterDelta base meter c = (meter[c] + 4294967296 - base[c]) % 4294967296 := by
  rw [meterDelta, Nat.mod_eq_of_lt (h c)]

theorem wentBackwards_iff (base meter : PerClass Nat) :
    wentBackwards base meter = true ↔ ∃ c : Fin 4, 2147483648 ≤ meterDelta base meter c := by
  simp [wentBackwards]

/-- Some class's discrepancy lies beyond the threshold (R182). -/
theorem beyondThreshold_iff (threshold : Nat) (d : PerClass Int) :
    beyondThreshold threshold d = true ↔ ∃ c : Fin 4, threshold < (d[c]).natAbs := by
  unfold beyondThreshold
  simp only [List.any_eq_true, decide_eq_true_eq, Vector.mem_toList_iff, Vector.mem_iff_getElem]
  constructor
  · rintro ⟨x, ⟨i, hi, rfl⟩, hlt⟩
    exact ⟨⟨i, hi⟩, hlt⟩
  · rintro ⟨c, hlt⟩
    exact ⟨_, ⟨c.val, c.isLt, rfl⟩, hlt⟩

section
variable {n : StationId} {meter base : PerClass Nat} {s : State}

/-- The audit of a METER record that has not gone backwards (R181, R182). -/
def judgedAudit (meter base : PerClass Nat) (s : State) (n : StationId) : Audit :=
  (s.st n).audit.judged meter (s.clock, s.clockSet) (s.st n).settings.auditThreshold base

/-- The state of an audit that has been judged, before the passage between its states is looked at. -/
def judgedState (meter base : PerClass Nat) (n : StationId) (s : State) : State :=
  s.modSt n (fun x => { x with
    audit := x.audit.judged meter (s.clock, s.clockSet) x.settings.auditThreshold base })

theorem judgeMeter_forward (hbase : (s.st n).audit.baseline = some base) (hforward : wentBackwards base meter = false) :
    judgeMeter meter n s =
      if (s.st n).audit.state = .tracking ∧ (judgedAudit meter base s n).state = .outOfStep then
        lockIdle n (raiseFor .audit n (judgedState meter base n s))
      else if (s.st n).audit.state = .outOfStep ∧ (judgedAudit meter base s n).state = .tracking then
        raiseFor .audit n (judgedState meter base n s)
      else judgedState meter base n s := by
  have hget : (s.st n).audit.baseline.getD (Vector.replicate 4 0) = base := by rw [hbase]; rfl
  have hst : ((s.modSt n (fun x => { x with
      audit := x.audit.judged meter (s.clock, s.clockSet) x.settings.auditThreshold base })).st n).audit =
      judgedAudit meter base s n := by
    rw [st_modSt_self]
    rfl
  unfold judgeMeter
  dsimp only
  rw [hget, hforward, if_neg Bool.false_ne_true, hst]
  rfl

theorem judgeMeter_backwards (hbase : (s.st n).audit.baseline = some base) (hback : wentBackwards base meter = true) :
    judgeMeter meter n s = raiseFor .audit n (s.modSt n (fun x => { x with
      audit := { x.audit.rebase meter (s.clock, s.clockSet) x.settings.interval with
        rebaselines := satAdd 65535 x.audit.rebaselines 1 } })) := by
  have hget : (s.st n).audit.baseline.getD (Vector.replicate 4 0) = base := by rw [hbase]; rfl
  unfold judgeMeter
  dsimp only
  rw [hget]
  exact if_pos hback

theorem judged_state (a : Audit) (time : Nat × Bool) (threshold : Nat) :
    (a.judged meter time threshold base).state = .outOfStep ∨ (a.judged meter time threshold base).state = .tracking := by
  unfold Audit.judged
  dsimp only
  split
  · exact .inl rfl
  · exact .inr rfl

/-- The lock of an audit takes a station from IDLE to SERVICE, and leaves any other where it is (R183). -/
theorem lockIdle_result (hraised : Raised .audit n s) (hout : (s.st n).audit.state = .outOfStep) :
    AtStation n s (lockIdle n s) ∧ ((lockIdle n s).st n).audit = (s.st n).audit ∧
      ((lockIdle n s).st n).state = (if (s.st n).state = .idle ∧ (s.st n).settings.auditLock = true then .service
        else (s.st n).state) ∧ Raised .audit n (lockIdle n s) := by
  have hlock : (s.st n).lockedOut = (s.st n).settings.auditLock := by
    rw [Station.lockedOut, decide_eq_true hout, Bool.and_true]
  unfold lockIdle
  rw [hlock]
  by_cases h : (s.st n).state = .idle ∧ (s.st n).settings.auditLock = true
  · rw [if_pos h, if_pos h]
    refine ⟨atStation_enterService _ _ _, ?_, ?_, Raised.enter (hraised.raiseMask .service _) false .service n⟩
    · rw [enterService, st_enter, entered_audit, st_raiseFor]
    · rw [enterService, st_enter, entered_state]
  · rw [if_neg h, if_neg h]
    exact ⟨.refl n s, rfl, rfl, hraised⟩

/-- What the judgement of a METER record that has not gone backwards leaves (R181 to R183). -/
theorem judgeMeter_result (hbase : (s.st n).audit.baseline = some base) (hforward : wentBackwards base meter = false)
    (hruns : (s.st n).audit.state = .tracking ∨ (s.st n).audit.state = .outOfStep) :
    AtStation n s (judgeMeter meter n s) ∧ ((judgeMeter meter n s).st n).audit = judgedAudit meter base s n ∧
      ((judgedAudit meter base s n).state ≠ (s.st n).audit.state → Raised .audit n (judgeMeter meter n s)) ∧
      ((judgedAudit meter base s n).state = (s.st n).audit.state → (judgeMeter meter n s).notices = s.notices) ∧
      ((judgeMeter meter n s).st n).state = (if (s.st n).audit.state = .tracking ∧
        (judgedAudit meter base s n).state = .outOfStep ∧ (s.st n).state = .idle ∧ (s.st n).settings.auditLock = true
        then .service else (s.st n).state) := by
  have hjudged : (judgedState meter base n s).st n = { s.st n with audit := judgedAudit meter base s n } := by
    rw [judgedState, st_modSt_self]
    rfl
  have hat : AtStation n s (judgedState meter base n s) := atStation_modSt s n _
  have hafter : (judgedAudit meter base s n).state = .outOfStep ∨ (judgedAudit meter base s n).state = .tracking :=
    judged_state _ _ _
  rw [judgeMeter_forward hbase hforward]
  by_cases hleaves : (s.st n).audit.state = .tracking ∧ (judgedAudit meter base s n).state = .outOfStep
  · rw [if_pos hleaves]
    have hst : (raiseFor .audit n (judgedState meter base n s)).st n = { s.st n with audit := judgedAudit meter base s n } := by
      rw [st_raiseFor, hjudged]
    obtain ⟨hlocked, haudit, hstate, hraised⟩ := lockIdle_result (n := n) (s := raiseFor .audit n (judgedState meter base n s))
      (raiseFor_raised .audit n _) (by rw [hst]; exact hleaves.2)
    rw [hst] at haudit hstate
    refine ⟨(hat.trans (atStation_raise .audit (maskOf n) n _)).trans hlocked, haudit, fun _ => hraised, fun hsame => ?_, ?_⟩
    · rw [hleaves.1, hleaves.2] at hsame
      exact nomatch hsame
    · rw [hstate]
      simp only [hleaves, true_and]
  · rw [if_neg hleaves, if_neg fun h : _ ∧ _ ∧ _ => hleaves ⟨h.1, h.2.1⟩]
    by_cases hreturns : (s.st n).audit.state = .outOfStep ∧ (judgedAudit meter base s n).state = .tracking
    · rw [if_pos hreturns]
      refine ⟨hat.trans (atStation_raise .audit (maskOf n) n _), ?_, fun _ => raiseFor_raised .audit n _, fun hsame => ?_, ?_⟩
      · rw [st_raiseFor, hjudged]
      · rw [hreturns.1, hreturns.2] at hsame
        exact nomatch hsame
      · rw [st_raiseFor, hjudged]
    · rw [if_neg hreturns]
      refine ⟨hat, by rw [hjudged], fun hne => ?_, fun _ => rfl, by rw [hjudged]⟩
      obtain h | h := hruns <;> obtain h' | h' := hafter
      · exact absurd ⟨h, h'⟩ hleaves
      · exact absurd (h'.trans h.symm) hne
      · exact absurd (h'.trans h.symm) hne
      · exact absurd ⟨h, h'⟩ hreturns

end

/-- Settles O42: a METER record by the audit's state. -/
theorem meterRecordResult : Obligations.MeterRecordResult := by
  unfold Obligations.MeterRecordResult
  intro s n m0 m1 m2 m3 hp hd hs meter
  have hlived : (s.modSt n (fun x => { x with silence := 0 })).st n = { s.st n with silence := 0 } := st_modSt_self _ _ _
  have hexec := exec_meter (m0 := m0) (m1 := m1) (m2 := m2) (m3 := m3) hp hd hs
  have haudit : ((s.modSt n (fun x => { x with silence := 0 })).st n).audit = (s.st n).audit := by rw [hlived]
  have hjudge (hruns : (s.st n).audit.state = .tracking ∨ (s.st n).audit.state = .outOfStep) :
      exec (.meter n m0 m1 m2 m3) s = .next (judgeMeter meter n (s.modSt n (fun x => { x with silence := 0 }))) := by
    rw [hexec, takeMeter, haudit]
    obtain h | h := hruns <;> rw [h]
  refine ⟨fun hoff => ?_, fun hbaseline => ?_, fun base hruns hbase hlt hforward => ?_, fun base hruns hbase hlt hback => ?_⟩
  · rw [hexec, takeMeter, haudit, hoff]
  · have htake : takeMeter meter n (s.modSt n (fun x => { x with silence := 0 })) = s.modSt n (fun x => { x with
        silence := 0, audit := x.audit.rebase meter (s.clock, s.clockSet) x.settings.interval }) := by
      rw [takeMeter, haudit, hbaseline]
      dsimp only
      rw [modSt_modSt]
      rfl
    refine ⟨_, hexec.trans (congrArg _ htake), rfl, fun m hm => st_modSt_ne s _ hm, ?_⟩
    rw [st_modSt_self]
    rfl
  · have hno : wentBackwards base meter = false := Bool.eq_false_iff.mpr fun h => by
      obtain ⟨c, hc⟩ := (wentBackwards_iff base meter).mp h
      rw [meterDelta_eq hlt] at hc
      exact absurd (hforward c) (Nat.not_lt.mpr hc)
    obtain ⟨hat, hresult, hraised, hquiet, hstate⟩ := judgeMeter_result (n := n) (meter := meter)
      (s := s.modSt n (fun x => { x with silence := 0 })) (by rw [haudit]; exact hbase) hno (by rw [haudit]; exact hruns)
    have hjudged : judgedAudit meter base (s.modSt n (fun x => { x with silence := 0 })) n = judgedAudit meter base s n := by
      rw [judgedAudit, hlived]
      rfl
    rw [hjudged, haudit] at hraised hquiet hstate
    rw [hjudged] at hresult
    rw [hlived] at hstate
    have hdisc : ∀ c : Fin 4, (judgedAudit meter base s n).discrepancy[c] =
        (meterDelta base meter c : Int) - (((s.st n).audit.accounted[c]).total : Int) := fun c => by
      show (discrepancies base meter (s.st n).audit.accounted)[c] = _
      simp only [discrepancies, Fin.getElem_fin, Vector.getElem_ofFn]
    refine ⟨_, hjudge hruns, fun m hm => (hat.others m hm).trans (st_modSt_ne s _ hm), ?_⟩
    rw [hresult]
    refine ⟨rfl, hbase, rfl, rfl, rfl, fun c => ?_, ?_, judged_state _ _ _, hraised, hquiet, hstate⟩
    · rw [hdisc, meterDelta_eq hlt]
      rfl
    · rw [← beyondThreshold_iff]
      show (if beyondThreshold (s.st n).settings.auditThreshold (judgedAudit meter base s n).discrepancy
        then AuditState.outOfStep else AuditState.tracking) = .outOfStep ↔ _
      split
      · next h => exact ⟨fun _ => h, fun _ => rfl⟩
      · next h => exact ⟨fun e => (nomatch e), fun e => absurd e h⟩
  · have hyes : wentBackwards base meter = true := (wentBackwards_iff base meter).mpr (by
      obtain ⟨c, hc⟩ := hback
      exact ⟨c, by rw [meterDelta_eq hlt]; exact hc⟩)
    have hresult := judgeMeter_backwards (n := n) (meter := meter) (base := base)
      (s := s.modSt n (fun x => { x with silence := 0 })) (by rw [haudit]; exact hbase) hyes
    rw [modSt_modSt] at hresult
    obtain ⟨hpending, hmask⟩ := raiseFor_raised .audit n (s.modSt n (fun x => { x with
      silence := 0
      audit := { x.audit.rebase meter (s.clock, s.clockSet) x.settings.interval with
        rebaselines := satAdd 65535 x.audit.rebaselines 1 } }))
    refine ⟨_, (hjudge hruns).trans (congrArg _ hresult),
      ((atStation_modSt s n _).trans (atStation_raise .audit (maskOf n) n _)).onlyAt, ?_, hpending, hmask, ?_⟩
    · rw [st_raiseFor, st_modSt_self]
    · rw [st_raiseFor, st_modSt_self]
      rfl

/-! ## The station links (R201) -/

section
variable {n : StationId} {s : State}

/-- Within a frame that is still short, bytes are only gathered (R201). -/
theorem stationBytes_gather (len : Byte) (xs : List Byte) : ∀ rest : List Byte, rest.length + xs.length < len.toNat + 2 →
    stationBytes n xs (s.modSt n (fun x => { x with rx := .inFrame (len :: rest) })) =
      s.modSt n (fun x => { x with rx := .inFrame (len :: rest ++ xs) }) := by
  induction xs with
  | nil =>
    intro rest _
    rw [List.append_nil]
    rfl
  | cons b xs ih =>
    intro rest hlen
    rw [List.length_cons] at hlen
    have hshort : ¬ (len :: rest ++ [b]).length = len.toNat + 3 := by simp; omega
    have hbyte : stationByte n (s.modSt n (fun x => { x with rx := .inFrame (len :: rest) })) b =
        s.modSt n (fun x => { x with rx := .inFrame (len :: (rest ++ [b])) }) := by
      rw [stationByte, st_modSt_self]
      dsimp only
      rw [if_neg hshort, modSt_modSt]
      rfl
    show stationBytes n xs (stationByte n _ b) = _
    rw [hbyte, ih (rest ++ [b]) (by simp; omega)]
    simp

/-- A whole frame that arrives at a hunting receiver is judged with its last byte (R201). -/
theorem stationBytes_frame (hx : (s.st n).rx = .hunting) {len last : Byte} {mid : List Byte} (hlow : len.toNat ≤ 32)
    (hmid : mid.length = len.toNat + 1) : stationBytes n (0x5A#8 :: len :: (mid ++ [last])) s =
      completeStationFrame (len :: mid ++ [last]) n (s.modSt n (fun x => { x with rx := .inFrame (len :: mid) })) := by
  have hstart : stationByte n s 0x5A#8 = s.modSt n (fun x => { x with rx := .inFrame [] }) := by
    rw [stationByte, hx]
    exact if_pos rfl
  have hlen : stationByte n (s.modSt n (fun x => { x with rx := .inFrame [] })) len =
      s.modSt n (fun x => { x with rx := .inFrame [len] }) := by
    rw [stationByte, st_modSt_self]
    dsimp only
    rw [if_neg (Nat.not_lt.mpr hlow), modSt_modSt]
  have hwhole : (len :: mid ++ [last]).length = len.toNat + 3 := by simp [hmid]
  have hlast : stationByte n (s.modSt n (fun x => { x with rx := .inFrame (len :: mid) })) last =
      completeStationFrame (len :: mid ++ [last]) n (s.modSt n (fun x => { x with rx := .inFrame (len :: mid) })) := by
    rw [stationByte, st_modSt_self]
    exact if_pos hwhole
  have hgather := stationBytes_gather (n := n) (s := s) len mid [] (by simp [hmid])
  unfold stationBytes at hgather ⊢
  rw [List.foldl_cons, hstart, List.foldl_cons, hlen, List.foldl_append, hgather]
  exact hlast

/-- A frame that fails at a hunting receiver leaves it hunting and is counted (R201). -/
theorem frameError_hunting (hx : (s.st n).rx = .hunting) (r : Receiver) :
    frameError n (s.modSt n (fun x => { x with rx := r })) = s.modSt n (fun x => { x with
      counters := { x.counters with frameErrors := min 4294967295 (x.counters.frameErrors + 1) } }) := by
  rw [frameError, modSt_modSt]
  refine modSt_congr ?_
  dsimp only
  rw [← hx]
  rfl

/-- The last bytes of a frame of a payload, from its length byte on. -/
def framedPayload (kind crc : Byte) (payload : List Byte) : List Byte := be1 payload.length ++ [kind] ++ payload ++ [crc]

/-- A frame of a payload of up to 32 bytes is judged as it stands, once it is whole (R201, R205). -/
theorem stationBytes_payload (hx : (s.st n).rx = .hunting) (kind crc : Byte) {payload : List Byte}
    (hp : payload.length ≤ 32) : ∃ r : Receiver, stationBytes n (0x5A#8 :: framedPayload kind crc payload) s =
      completeStationFrame (framedPayload kind crc payload) n (s.modSt n (fun x => { x with rx := r })) := by
  have hlen : (BitVec.ofNat 8 payload.length).toNat = payload.length := by simp; omega
  have hframe := stationBytes_frame (n := n) (s := s) (mid := [kind] ++ payload) (last := crc) hx (hlen.trans_le hp)
    (by simp; omega)
  have hbytes : framedPayload kind crc payload = BitVec.ofNat 8 payload.length :: ([kind] ++ payload ++ [crc]) := by
    simp [framedPayload, be1]
  exact ⟨.inFrame (BitVec.ofNat 8 payload.length :: ([kind] ++ payload)), by rw [hbytes, hframe]; rfl⟩

/-- The check byte of a frame is its last (R205). -/
theorem framed_body (kind crc : Byte) (payload : List Byte) :
    (framedPayload kind crc payload).take ((framedPayload kind crc payload).length - 1) =
      BitVec.ofNat 8 payload.length :: kind :: payload ∧
    (framedPayload kind crc payload).drop ((framedPayload kind crc payload).length - 1) = [crc] := by
  have hsplit : framedPayload kind crc payload = (BitVec.ofNat 8 payload.length :: kind :: payload) ++ [crc] := by
    simp [framedPayload, be1]
  have hk : (framedPayload kind crc payload).length - 1 = (BitVec.ofNat 8 payload.length :: kind :: payload).length := by
    rw [hsplit, List.length_append]
    exact Nat.add_sub_cancel _ 1
  rw [hk, hsplit]
  exact ⟨List.take_left, List.drop_left⟩

/-- A frame that passes its check is handled as the record it reads as (R201). -/
theorem completeStationFrame_takes {r : CopierRecord} {kind : Byte} {payload : List Byte}
    (hr : recordOf kind.toNat payload = some r) :
    completeStationFrame (framedPayload kind (crc8 (be1 payload.length ++ [kind] ++ payload)) payload) n s =
      handleRecord r n (s.modSt n (fun x => { x with rx := .hunting })) := by
  obtain ⟨hbody, hcheck⟩ := framed_body kind (crc8 (be1 payload.length ++ [kind] ++ payload)) payload
  have hpassed : natOf [crc8 (be1 payload.length ++ [kind] ++ payload)] =
      (crc8 (BitVec.ofNat 8 payload.length :: kind :: payload)).toNat := by simp [natOf, be1]
  unfold completeStationFrame
  dsimp only
  rw [hbody, hcheck, hpassed, decide_eq_true rfl]
  dsimp only
  rw [if_pos rfl, hr]

/-- A frame that fails its check, or that reads as no record, is counted (R201). -/
theorem completeStationFrame_rejects {kind crc : Byte} {payload : List Byte}
    (h : crc ≠ crc8 (be1 payload.length ++ [kind] ++ payload) ∨ recordOf kind.toNat payload = none) :
    completeStationFrame (framedPayload kind crc payload) n s = frameError n s := by
  obtain ⟨hbody, hcheck⟩ := framed_body kind crc payload
  have hnone : (if decide (natOf [crc] = (crc8 (BitVec.ofNat 8 payload.length :: kind :: payload)).toNat) = true
      then recordOf kind.toNat payload else none) = none := by
    obtain h | h := h
    · refine if_neg fun hpassed => h (BitVec.eq_of_toNat_eq ?_)
      simpa [natOf, be1] using hpassed
    · rw [h]
      exact ite_self _
  unfold completeStationFrame
  dsimp only
  rw [hbody, hcheck]
  dsimp only
  rw [hnone]

/-- The frame of a record whose payload reads back as the record is handled as the record (R201). -/
theorem stationBytes_record {r : CopierRecord} {kind : Byte} {payload : List Byte} (hx : (s.st n).rx = .hunting)
    (hframe : r.frame = stationFrame kind payload) (hp : payload.length ≤ 32) (hr : recordOf kind.toNat payload = some r) :
    stationBytes n r.frame s = handleRecord r n s := by
  obtain ⟨rx, h⟩ := stationBytes_payload (n := n) (s := s) hx kind (crc8 (be1 payload.length ++ [kind] ++ payload)) hp
  rw [hframe]
  refine h.trans ((completeStationFrame_takes hr).trans (congrArg (handleRecord r n) ?_))
  rw [modSt_modSt]
  refine modSt_same ?_
  show ({ s.st n with rx := .hunting } : Station) = _
  rw [← hx]

/-- A frame that fails at a hunting receiver changes nothing but the count (R201). -/
theorem stationBytes_rejected {kind crc : Byte} {payload : List Byte} (hx : (s.st n).rx = .hunting)
    (hp : payload.length ≤ 32)
    (h : crc ≠ crc8 (be1 payload.length ++ [kind] ++ payload) ∨ recordOf kind.toNat payload = none) :
    stationBytes n (0x5A#8 :: framedPayload kind crc payload) s = s.modSt n (fun x => { x with
      counters := { x.counters with frameErrors := min 4294967295 (x.counters.frameErrors + 1) } }) := by
  obtain ⟨rx, hjudged⟩ := stationBytes_payload (n := n) (s := s) hx kind crc hp
  rw [hjudged, completeStationFrame_rejects h, frameError_hunting hx]

/-- A length above 32 fails at once (R201). -/
theorem stationBytes_tooLong {len : Byte} (hx : (s.st n).rx = .hunting) (hlong : 32 < len.toNat) :
    stationBytes n [0x5A#8, len] s = s.modSt n (fun x => { x with
      counters := { x.counters with frameErrors := min 4294967295 (x.counters.frameErrors + 1) } }) := by
  have hstart : stationByte n s 0x5A#8 = s.modSt n (fun x => { x with rx := .inFrame [] }) := by
    rw [stationByte, hx]
    exact if_pos rfl
  show stationByte n (stationByte n s 0x5A#8) len = _
  rw [hstart, stationByte, st_modSt_self]
  dsimp only
  rw [if_pos hlong, frameError_hunting hx]

end

/-- A 16-bit field reads back (R204). -/
theorem word16_be2 (v : BitVec 16) (y : List Byte) : word16 (be2 v.toNat ++ y) 0 = v := by
  rw [word16, fieldAt_be2 v.isLt, BitVec.ofNat_toNat, BitVec.setWidth_eq]

/-- A 32-bit field reads back after the bytes before it (R204). -/
theorem word32_be4 (v : BitVec 32) {x : List Byte} {off : Nat} (hx : x.length = off) (y : List Byte) :
    word32 (x ++ (be4 v.toNat ++ y)) off = v := by
  have h := fieldAt_beyond hx (be4 v.toNat ++ y) 0 4
  rw [Nat.add_zero] at h
  rw [word32, h, fieldAt_be4 v.isLt, BitVec.ofNat_toNat, BitVec.setWidth_eq]

/-- A 16-bit field reads back after the bytes before it (R204). -/
theorem word16_be2_beyond (v : BitVec 16) {x : List Byte} {off : Nat} (hx : x.length = off) (y : List Byte) :
    word16 (x ++ (be2 v.toNat ++ y)) off = v := by
  have h := fieldAt_beyond hx (be2 v.toNat ++ y) 0 2
  rw [Nat.add_zero] at h
  rw [word16, h, fieldAt_be2 v.isLt, BitVec.ofNat_toNat, BitVec.setWidth_eq]

/-- A copier's record reads back from its frame, whatever its kind (R213, R214). -/
theorem stationBytes_carried {s : State} {n : StationId} (r : CopierRecord) (hx : (s.st n).rx = .hunting)
    (hcard : ∀ bytes, r = .card bytes → bytes.length = 11) : stationBytes n r.frame s = handleRecord r n s := by
  cases r with
  | announce model classes capacity =>
    refine stationBytes_record hx rfl (by simp) ?_
    show some (CopierRecord.announce (word16 (be2 model.toNat ++ [classes, capacity]) 0) classes capacity) = _
    rw [word16_be2]
  | status => exact stationBytes_record hx rfl (by simp) rfl
  | card bytes =>
    have hlen : bytes.length = 11 := hcard bytes rfl
    refine stationBytes_record hx rfl (by omega) ?_
    unfold recordOf
    rw [hlen]
    rfl
  | start mode originals copies duplex =>
    refine stationBytes_record hx rfl (by simp) ?_
    show some (CopierRecord.start mode (word16 ([mode] ++ (be2 originals.toNat ++ (be2 copies.toNat ++ [duplex]))) 1)
      (word16 ([mode] ++ be2 originals.toNat ++ (be2 copies.toNat ++ [duplex])) 3) duplex) = _
    rw [word16_be2_beyond (off := 1) originals rfl, word16_be2_beyond (off := 3) copies rfl]
  | imaged sheet cls sides =>
    refine stationBytes_record hx rfl (by simp) ?_
    show some (CopierRecord.imaged (word16 (be2 sheet.toNat ++ [cls, sides]) 0) cls sides) = _
    rw [word16_be2]
  | exited sheet =>
    refine stationBytes_record hx rfl (by simp) ?_
    show some (CopierRecord.exited (word16 (be2 sheet.toNat ++ []) 0)) = _
    rw [word16_be2]
  | jobEnd outcome => exact stationBytes_record hx rfl (by simp) rfl
  | jam location sheets => exact stationBytes_record hx rfl (by simp) rfl
  | cleared => exact stationBytes_record hx rfl (by simp) rfl
  | finish => exact stationBytes_record hx rfl (by simp) rfl
  | meter m0 m1 m2 m3 =>
    refine stationBytes_record hx rfl (by simp) ?_
    show some (CopierRecord.meter (word32 ([] ++ (be4 m0.toNat ++ (be4 m1.toNat ++ be4 m2.toNat ++ be4 m3.toNat))) 0)
      (word32 (be4 m0.toNat ++ (be4 m1.toNat ++ (be4 m2.toNat ++ be4 m3.toNat))) 4)
      (word32 (be4 m0.toNat ++ be4 m1.toNat ++ (be4 m2.toNat ++ be4 m3.toNat)) 8)
      (word32 (be4 m0.toNat ++ be4 m1.toNat ++ be4 m2.toNat ++ (be4 m3.toNat ++ [])) 12)) = _
    rw [word32_be4 (off := 0) m0 rfl, word32_be4 (off := 4) m1 rfl, word32_be4 (off := 8) m2 rfl,
      word32_be4 (off := 12) m3 rfl]

/-- What is sent of a station's send list: its oldest record as a frame (R202). -/
theorem sendRecord_eq {s : State} {n : StationId} {r : OutRecord} {rest : List OutRecord}
    (h : (s.st n).sendList = r :: rest) : sendRecord n s = s.modSt n (fun x => { x with
      sendList := rest, line := outFrame x.audit r, audit := if r = .probe then x.audit.probed else x.audit }) := by
  refine modSt_congr ?_
  rw [h]

/-- A gap within a frame abandons it (R201). -/
theorem exec_stationGap {s : State} {n : StationId} {bytes : List Byte} (hx : (s.st n).rx = .inFrame bytes) :
    exec (.stationFrameGapTimeout n) s = .next (frameError n s) := by
  show execStationFrameGapTimeout n s = _
  rw [execStationFrameGapTimeout, hx]

/-- Settles O43: the station link carries every copier's record and counts bad frames. -/
theorem stationLinkCarriesRecords : Obligations.StationLinkCarriesRecords := by
  unfold Obligations.StationLinkCarriesRecords
  refine ⟨fun s n r hx hcard => stationBytes_carried r hx hcard, fun s n kind crc payload hx hp h =>
    congrArg Host.Outcome.next (stationBytes_rejected hx hp h), fun s n len hx hlong =>
    congrArg Host.Outcome.next (stationBytes_tooLong hx hlong), fun s n bytes hx => exec_stationGap hx, fun s n r rest h => ?_⟩
  · have hst : ((sendRecord n s).st n) = { s.st n with
        sendList := rest, line := outFrame (s.st n).audit r
        audit := if r = .probe then (s.st n).audit.probed else (s.st n).audit } := by
      rw [sendRecord_eq h, st_modSt_self]
    refine ⟨sendRecord n s, rfl, by rw [sendRecord_eq h]; rfl, fun m hm => by rw [sendRecord_eq h]; exact st_modSt_ne s _ hm, ?_⟩
    rw [hst]
    refine ⟨rfl, rfl, fun g hg => by rw [hg]; rfl, fun hg => by rw [hg]; rfl, fun locked amount code hg => by rw [hg]; rfl,
      fun hg => ?_⟩
    subst hg
    refine ⟨?_, fun hne => ?_⟩
    · simp [outFrame, beFlag, Audit.probeAsks]
    · show (Audit.probed _).meterRequest = _
      rw [Audit.probed, if_neg hne]

end Sys2Proof.Machine
end

section
/-! PROOF. Turns of several stations whose sessions close, one after another in a free order (log entry 4): what the turns of
the others leave of a station's own. -/

namespace Sys2Proof.Machine

/-! ## The count of open sessions -/

theorem stations_toList (s : State) : s.stations.toList = (List.finRange 16).map s.st := by
  refine List.ext_getElem (by simp) fun i h1 h2 => ?_
  simp [State.st]

/-- The stations that have a session record. -/
def openStations (s : State) : Finset StationId := Finset.univ.filter (fun n => (s.st n).session.isSome = true)

theorem mem_openStations {s : State} {n : StationId} : n ∈ openStations s ↔ (s.st n).session.isSome = true := by
  simp [openStations]

/-- How many there are is the count of open sessions. -/
theorem openSessions_eq (s : State) : openSessions s = (openStations s).card := by
  have hfilter : ((List.finRange 16).map s.st).filter (fun x => x.session.isSome) =
      ((List.finRange 16).filter (fun n => (s.st n).session.isSome)).map s.st := by
    rw [List.filter_map]
    rfl
  have hnodup : ((List.finRange 16).filter (fun n => (s.st n).session.isSome)).Nodup := (List.nodup_finRange 16).filter _
  rw [openSessions, stations_toList, hfilter, List.length_map, ← List.toFinset_card_of_nodup hnodup]
  refine congrArg Finset.card (Finset.ext fun n => ?_)
  rw [mem_openStations, List.mem_toFinset, List.mem_filter]
  exact and_iff_right (List.mem_finRange n)

theorem openSessions_pos {s : State} {n : StationId} (h : (s.st n).session.isSome = true) : 0 < openSessions s := by
  rw [openSessions_eq]
  exact Finset.card_pos.mpr ⟨n, mem_openStations.mpr h⟩

/-- Where no session opens there are no more than before. -/
theorem openSessions_le {s t : State} (h : ∀ m, (t.st m).session.isSome = true → (s.st m).session.isSome = true) :
    openSessions t ≤ openSessions s := by
  rw [openSessions_eq, openSessions_eq]
  exact Finset.card_le_card fun m hm => mem_openStations.mpr (h m (mem_openStations.mp hm))

/-- Where none opens and one has gone there are fewer. -/
theorem openSessions_lt {s t : State} {n : StationId}
    (h : ∀ m, (t.st m).session.isSome = true → (s.st m).session.isSome = true)
    (hn : (s.st n).session.isSome = true) (hgone : (t.st n).session = none) : openSessions t < openSessions s := by
  rw [openSessions_eq, openSessions_eq]
  refine Finset.card_lt_card ⟨fun m hm => mem_openStations.mpr (h m (mem_openStations.mp hm)), fun hsub => ?_⟩
  have := mem_openStations.mp (hsub (mem_openStations.mpr hn))
  rw [hgone] at this
  exact Bool.false_ne_true this

/-! ## What turns leave of the other stations -/

/-- Stations of `P` have had turns in which sessions have closed, and some of them settled: no other station has changed, an
account has changed only where the session of one of them drew on it and is gone, and the log holds a record more for at
most each session gone. -/
structure Turned (P : StationId → Prop) (s t : State) : Prop where
  others : ∀ m, ¬ P m → t.st m = s.st m
  clock : t.clock = s.clock ∧ t.clockSet = s.clockSet
  tables : AccountTable.wf s.accounts → AccountTable.wf t.accounts
  sessions : ∀ m, (t.st m).session.isSome = true → (s.st m).session.isSome = true
  drawn : ∀ m i, (t.st m).session.map Session.funding = some (.account i) →
    (s.st m).session.map Session.funding = some (.account i)
  accounts : AccountTable.wf s.accounts → ∀ i, t.account i = s.account i ∨
    ∃ m, P m ∧ (s.st m).session.map Session.funding = some (.account i) ∧ (t.st m).session = none
  funded : AccountTable.wf s.accounts → ∀ i, ∀ e ∈ (t.account i).funded, e ∈ (s.account i).funded
  fetched : ∀ m ∈ t.fetchOrder, m ∈ s.fetchOrder
  records : ∃ more, t.log.records = s.log.records ++ more
  room : t.log.records.length + openSessions t ≤ s.log.records.length + openSessions s

/-- A session that is gone stays so. -/
theorem Turned.gone {P : StationId → Prop} {s t : State} (h : Turned P s t) {m : StationId}
    (hm : (s.st m).session = none) : (t.st m).session = none := by
  cases ht : (t.st m).session with
  | none => rfl
  | some ses =>
    have := h.sessions m (by rw [ht]; rfl)
    rw [hm] at this
    exact absurd this Bool.false_ne_true

theorem Turned.refl (P : StationId → Prop) (s : State) : Turned P s s where
  others _ _ := rfl
  clock := ⟨rfl, rfl⟩
  tables := id
  sessions _ := id
  drawn _ _ := id
  accounts _ _ := .inl rfl
  funded _ _ _ := id
  fetched _ := id
  records := ⟨[], (List.append_nil _).symm⟩
  room := le_rfl

theorem Turned.trans {P : StationId → Prop} {s t u : State} (h : Turned P s t) (k : Turned P t u) : Turned P s u where
  others m hm := (k.others m hm).trans (h.others m hm)
  clock := ⟨k.clock.1.trans h.clock.1, k.clock.2.trans h.clock.2⟩
  tables hs := k.tables (h.tables hs)
  sessions m hm := h.sessions m (k.sessions m hm)
  drawn m i hm := h.drawn m i (k.drawn m i hm)
  accounts hs i := by
    obtain hu | ⟨m, hm, hdrawn, hgone⟩ := k.accounts (h.tables hs) i
    · obtain ht | ⟨m, hm, hdrawn, hgone⟩ := h.accounts hs i
      · exact .inl (hu.trans ht)
      · exact .inr ⟨m, hm, hdrawn, k.gone hgone⟩
    · exact .inr ⟨m, hm, h.drawn m i hdrawn, hgone⟩
  funded hs i e he := h.funded hs i e (k.funded (h.tables hs) i e he)
  fetched m hm := h.fetched m (k.fetched m hm)
  records := by
    obtain ⟨a, ha⟩ := h.records
    obtain ⟨b, hb⟩ := k.records
    exact ⟨a ++ b, by rw [hb, ha, List.append_assoc]⟩
  room := k.room.trans h.room

theorem Turned.mono {P Q : StationId → Prop} {s t : State} (h : Turned P s t) (hPQ : ∀ m, P m → Q m) : Turned Q s t :=
  { h with
    others := fun m hm => h.others m fun hp => hm (hPQ m hp)
    accounts := fun hs i => (h.accounts hs i).imp_right fun ⟨m, hm, hrest⟩ => ⟨m, hPQ m hm, hrest⟩ }

/-- A step that posts nothing, and that opens no session, is such a turn. -/
theorem Quiet.turned {P : StationId → Prop} {s t : State} (h : Quiet s t) (hothers : ∀ m, ¬ P m → t.st m = s.st m)
    (hsessions : ∀ m, (t.st m).session.isSome = (s.st m).session.isSome)
    (hdrawn : ∀ m i, (t.st m).session.map Session.funding = some (.account i) →
      (s.st m).session.map Session.funding = some (.account i))
    (hfetched : ∀ m ∈ t.fetchOrder, m ∈ s.fetchOrder) : Turned P s t where
  others := hothers
  clock := h.clock
  tables hs := by rw [h.accounts]; exact hs
  sessions m hm := by rw [← hsessions]; exact hm
  drawn := hdrawn
  accounts _ i := .inl (h.account i)
  funded _ i e he := by rw [← h.account]; exact he
  fetched := hfetched
  records := ⟨[], by rw [h.log, List.append_nil]⟩
  room := by
    rw [h.log]
    exact Nat.add_le_add_left (openSessions_le fun m hm => by rw [← hsessions]; exact hm) _

/-- A change of one station that leaves its session is such a turn. -/
theorem AtStation.turned {n : StationId} {s t : State} (h : AtStation n s t)
    (hsession : (t.st n).session = (s.st n).session) : Turned (· = n) s t := by
  have hall : ∀ m, (t.st m).session = (s.st m).session := fun m => by
    by_cases hm : m = n
    · rw [hm, hsession]
    · rw [h.others m hm]
  exact h.quiet.turned h.others (fun m => by rw [hall m]) (fun m i hm => by rw [← hall m]; exact hm)
    fun m hm => by rw [← h.fetchOrder]; exact hm

/-! ## The turns of a settlement -/

section
variable {n : StationId} {v : State} {cur : Session}

/-- What a settlement's posting and record leave (R114, R169). -/
theorem settledLog_frame (n : StationId) (cur : Session) (v : State) : settledLog n cur v =
    { v with accounts := (postCharge n cur ((v.st n).charge cur).1 v).accounts, log := (settledLog n cur v).log
             notices := (settledLog n cur v).notices } := by
  have hpost : ∀ charge, postCharge n cur charge v = { v with accounts := (postCharge n cur charge v).accounts } :=
    fun charge => by
      unfold postCharge
      split
      · exact requestPosting_rest _ _ _ _
      · rfl
      · rfl
  unfold settledLog offerReserved
  dsimp only
  rw [hpost]
  split
  · rw [joinLog_frame]
  · rfl

theorem settledLog_account (i : AccountId) :
    (settledLog n cur v).account i = (postCharge n cur ((v.st n).charge cur).1 v).account i := by
  rw [settledLog_frame]
  rfl

theorem settledLog_account_ne {i : AccountId} (hi : cur.funding ≠ .account i) :
    (settledLog n cur v).account i = v.account i := by
  rw [settledLog_account]
  unfold postCharge
  split
  · next k hk => exact requestPosting_account_ne n _ v fun e => hi (by rw [hk, e])
  · rfl
  · rfl

theorem settledLog_account_self {i : AccountId} (hi : cur.funding = .account i) :
    (settledLog n cur v).account i = (requestPosting i n ((v.st n).charge cur).1 v).account i := by
  rw [settledLog_account, postCharge, hi]

/-- A settlement's record joins the log where it has room (R169). -/
theorem settledLog_records : ∃ more : List LogRecord, more.length ≤ 1 ∧
    (settledLog n cur v).log.records = v.log.records ++ more := by
  have hpost : ∀ charge, (postCharge n cur charge v).log = v.log := fun charge => by
    unfold postCharge
    split
    · rw [requestPosting_rest]
    · rfl
    · rfl
  unfold settledLog offerReserved
  dsimp only
  split
  · rw [(joinLog_log _ _ _).1, hpost]
    exact ⟨_, le_rfl, rfl⟩
  · rw [hpost]
    exact ⟨[], Nat.zero_le 1, (List.append_nil _).symm⟩

/-- The funded list of an account loses at most the settled session's entry (R114). -/
theorem settledLog_funded (hv : AccountTable.wf v.accounts) (i : AccountId) :
    ((settledLog n cur v).account i).funded = if cur.funding = .account i
      then (v.account i).funded.filter (fun e => decide (e.station ≠ n)) else (v.account i).funded := by
  split
  next hi => rw [settledLog_account_self hi, requestPosting_funded hv, if_pos rfl]
  next hi => rw [settledLog_account_ne hi]

/-- A settlement's posting, record and dropping of the session are a turn of its station (R28). -/
theorem turned_settleRecord (h : (v.st n).session = some cur) : Turned (· = n) v (settleRecord n v) := by
  have heq := settleRecord_eq h
  have hframe := settledLog_frame n cur v
  have hst := st_settleRecord h
  have hinternal := internal_settleRecord n v
  have hgone : ((settleRecord n v).st n).session = none := by rw [hst]; rfl
  have hothers : ∀ m, m ≠ n → (settleRecord n v).st m = v.st m := hinternal.others
  have haccount : ∀ i, (settleRecord n v).account i = (settledLog n cur v).account i := fun i => by rw [heq]; rfl
  have hsub : ∀ m, ((settleRecord n v).st m).session.isSome = true → (v.st m).session.isSome = true := fun m hm => by
    by_cases he : m = n
    · rw [he, h]; rfl
    · rw [← hothers m he]; exact hm
  obtain ⟨more, hlength, hmore⟩ := settledLog_records (n := n) (cur := cur) (v := v)
  have hrecords : (settleRecord n v).log.records = v.log.records ++ more := by rw [heq]; exact hmore
  refine ⟨hothers, ?_, hinternal.tables, hsub, fun m i hm => ?_, fun _ i => ?_, fun hv i e he => ?_, fun m hm => ?_,
    ⟨more, hrecords⟩, ?_⟩
  · rw [heq]
    show (settledLog n cur v).clock = _ ∧ (settledLog n cur v).clockSet = _
    rw [hframe]
    exact ⟨rfl, rfl⟩
  · by_cases he : m = n
    · rw [he, hgone] at hm
      exact nomatch hm
    · rw [← hothers m he]; exact hm
  · by_cases hi : cur.funding = .account i
    · exact .inr ⟨n, rfl, by rw [h]; exact congrArg some hi, hgone⟩
    · exact .inl ((haccount i).trans (settledLog_account_ne hi))
  · rw [haccount, settledLog_funded hv] at he
    split at he
    · exact List.mem_of_mem_filter he
    · exact he
  · have hfetch : (settleRecord n v).fetchOrder = v.fetchOrder := by
      rw [heq]
      show (settledLog n cur v).fetchOrder = _
      rw [hframe]
    rw [← hfetch]
    exact hm
  · rw [hrecords, List.length_append]
    have := openSessions_lt hsub (by rw [h]; rfl) hgone
    omega

/-- A settlement is a turn of its station (R28). -/
theorem turned_settle (h : (v.st n).session = some cur) : Turned (· = n) v (settle n v) := by
  refine (turned_settleRecord h).trans ((atStation_settle n v).turned ?_)
  rw [st_settle h, settles_session, st_settleRecord h]
  rfl

end

/-! ## The turns of a closing -/

/-- The steps of a closing up to its entry to CLOSING are a turn of its station (R26). -/
theorem turned_closingStarted (reason : EndReason) (n : StationId) (s : State) :
    Turned (· = n) s (closingStarted reason n s) := by
  have hst := st_closingStarted reason n s
  have hframe := closingStarted_frame reason n s
  have hothers := fun (m : StationId) (hm : m ≠ n) => closingStarted_others reason s hm
  have hquiet : Quiet s (closingStarted reason n s) := by rw [Quiet, hframe]
  refine hquiet.turned hothers (fun m => ?_) (fun m i hm => ?_) fun m hm => ?_
  · by_cases he : m = n
    · rw [he, hst, closed_session, Option.isSome_map]
    · rw [hothers m he]
  · by_cases he : m = n
    · rw [he, hst, closed_session, Option.map_map] at hm
      rw [he]
      cases hses : (s.st n).session with
      | none => rw [hses] at hm; exact nomatch hm
      | some ses =>
        rw [hses] at hm
        have hfunding : ses.funding.withVoided (s.st n).slot.topupTags = .account i := Option.some.inj hm
        refine congrArg some ?_
        cases hf : ses.funding <;> simp [Funding.withVoided, hf] at hfunding ⊢
        exact hfunding
    · rw [← hothers m he]
      exact hm
  · have hfetch : (closingStarted reason n s).fetchOrder = (voidTopup n (s.modSt n Station.closingFrom)).fetchOrder := by
      rw [hframe]
    rw [hfetch] at hm
    unfold voidTopup at hm
    split at hm
    · exact List.mem_of_mem_filter hm
    · exact hm
    · exact hm
    · exact hm

/-- A start of closing is a turn of its station (R26). -/
theorem turned_startClosing (reason : EndReason) (n : StationId) (s : State) :
    Turned (· = n) s (startClosing reason n s) := by
  by_cases h : (s.st n).session.isNone = true ∨ (s.st n).state = .closing
  · rw [startClosing, if_pos h]
    exact .refl _ s
  · obtain ⟨hnone, hclosing⟩ := not_or.mp h
    obtain ⟨ses, hses⟩ := Option.isSome_iff_exists.mp (Option.isNone_eq_false_iff.mp (Bool.eq_false_iff.mpr hnone))
    rw [startClosing_eq reason hses hclosing]
    have hstarted := turned_closingStarted reason n s
    split
    · refine hstarted.trans (turned_settle (cur := ses.closing reason (s.st n).slot.topupTags) ?_)
      rw [st_closingStarted, closed_session, hses]
      rfl
    · exact hstarted.trans ((atStation_modSt _ n _).turned (by rw [st_modSt_self]))

/-! ## One station's turn among several -/

/-- Turns of the stations of a list, each taken while its station is still as it was. -/
theorem turned_atEach {f : StationId → State → State} {I : Station → Prop}
    (hf : ∀ n s, I (s.st n) → Turned (· = n) s (f n s)) : ∀ (l : List StationId) (s : State), l.Nodup →
      (∀ m ∈ l, I (s.st m)) → Turned (· ∈ l) s (atEach l f s)
  | [], s, _, _ => .refl _ s
  | a :: l, s, hd, hI => by
    obtain ⟨ha, hd⟩ := List.nodup_cons.mp hd
    have hturn := hf a s (hI a List.mem_cons_self)
    refine (hturn.mono fun m hm => hm ▸ List.mem_cons_self).trans
      ((turned_atEach hf l (f a s) hd fun m hm => ?_).mono fun m => List.mem_cons_of_mem a)
    rw [hturn.others m fun e => ha (e ▸ hm)]
    exact hI m (List.mem_cons_of_mem a hm)

/-- A station's own turn stands between turns of others. -/
theorem turned_atEach_at {f : StationId → State → State} {I : Station → Prop}
    (hf : ∀ n s, I (s.st n) → Turned (· = n) s (f n s)) {l : List StationId} {s : State} {n : StationId} (hd : l.Nodup)
    (hn : n ∈ l) (hI : ∀ m ∈ l, I (s.st m)) :
    ∃ u, Turned (· ≠ n) s u ∧ Turned (· ≠ n) (f n u) (atEach l f s) := by
  obtain ⟨l₁, l₂, rfl⟩ := List.append_of_mem hn
  have hfold : atEach (l₁ ++ n :: l₂) f s = atEach l₂ f (f n (atEach l₁ f s)) := by
    rw [atEach, List.foldl_append]
    rfl
  obtain ⟨hd₁, hd₂, hne⟩ := List.nodup_append.mp hd
  obtain ⟨hn₂, hd₂⟩ := List.nodup_cons.mp hd₂
  have hn₁ : n ∉ l₁ := fun h => hne n h n List.mem_cons_self rfl
  have hbefore := turned_atEach hf l₁ s hd₁ fun m hm => hI m (List.mem_append_left _ hm)
  have hkept : ∀ m ∈ n :: l₂, (atEach l₁ f s).st m = s.st m := fun m hm =>
    hbefore.others m fun h => hne m h m hm rfl
  have hturn := hf n (atEach l₁ f s) (by
    rw [hkept n List.mem_cons_self]
    exact hI n (List.mem_append_right _ List.mem_cons_self))
  have hafter := turned_atEach hf l₂ (f n (atEach l₁ f s)) hd₂ fun m hm => by
    rw [hturn.others m fun e => hn₂ (e ▸ hm), hkept m (List.mem_cons_of_mem n hm)]
    exact hI m (List.mem_append_right _ (List.mem_cons_of_mem n hm))
  refine ⟨atEach l₁ f s, hbefore.mono fun m hm e => hn₁ (e ▸ hm), ?_⟩
  rw [hfold]
  exact hafter.mono fun m hm e => hn₂ (e ▸ hm)

section
variable {n : StationId} {s u v t : State}

/-- A station whose own turn it is not keeps its account as long as no other session on it settles. -/
theorem Turned.account_kept (h : Turned (· ≠ n) s u) {i : AccountId} (hs : AccountTable.wf s.accounts)
    (hstays : ∀ m, m ≠ n → (s.st m).session.map Session.funding = some (.account i) → (u.st m).session.isSome = true) :
    u.account i = s.account i := by
  obtain h | ⟨m, hm, hdrawn, hgone⟩ := h.accounts hs i
  · exact h
  · have := hstays m hm hdrawn
    rw [hgone] at this
    exact absurd this Bool.false_ne_true

/-- A drain begun in a station's own turn is a drain begun over all turns. -/
theorem ClosingBegun.among {reason : EndReason} (h : ClosingBegun reason n u v) (hbefore : Turned (· ≠ n) s u)
    (hafter : Turned (· ≠ n) v t) : ClosingBegun reason n s t := by
  have hu : u.st n = s.st n := hbefore.others n (not_not.mpr rfl)
  have ht : t.st n = v.st n := hafter.others n (not_not.mpr rfl)
  obtain ⟨hdraining, hpath, hsession, hcounts, hvoided, hkept⟩ := h
  rw [hu] at hpath hsession hcounts hvoided hkept
  refine ⟨?_, ?_, ?_, ?_, ⟨fun card dc req hslot => ?_, fun hno => ?_⟩⟩
  · rw [ht]; exact hdraining
  · rw [ht]; exact hpath
  · rw [ht]; exact hsession
  · rw [ht]; exact hcounts
  · obtain ⟨hactive, hoff, hfunding⟩ := hvoided card dc req hslot
    rw [ht]
    exact ⟨hactive, fun hm => hoff (hafter.fetched n hm), hfunding⟩
  · rw [ht]
    exact hkept hno

/-- A settlement in a station's own turn is a settlement over all turns. -/
theorem Settled.among {reason : EndReason} {ses : Session} {x : Station} {r : SessionRecord}
    (h : Settled reason n ses x u v r) (hbefore : Turned (· ≠ n) s u) (hown : ∀ m, m ≠ n → v.st m = u.st m)
    (hv : AccountTable.wf u.accounts → AccountTable.wf v.accounts) (hafter : Turned (· ≠ n) v t) :
    Settled reason n ses x s t r := by
  have hu : u.st n = s.st n := hbefore.others n (not_not.mpr rfl)
  have ht : t.st n = v.st n := hafter.others n (not_not.mpr rfl)
  have hfirst : ∀ i, AccountTable.wf s.accounts → NoOtherSettled i n s t → u.account i = s.account i := fun i hs hno =>
    hbefore.account_kept hs fun m hm hdrawn => by
      rw [← hown m hm]
      exact hafter.sessions m (hno m hm hdrawn)
  have hlast : ∀ i, AccountTable.wf s.accounts → NoOtherSettled i n s t → t.account i = v.account i := fun i hs hno =>
    hafter.account_kept (hv (hbefore.tables hs)) fun m hm hdrawn => by
      rw [hown m hm] at hdrawn
      exact hno m hm (hbefore.drawn m i hdrawn)
  have hmiddle : ∀ i, NoOtherSettled i n s t → NoOtherSettled i n u v := fun i hno m hm hdrawn =>
    hafter.sessions m (hno m hm (hbefore.drawn m i hdrawn))
  exact {
    record := by rw [← hu]; exact h.record
    ends := h.ends
    closed := ⟨h.closed.1.trans hbefore.clock.1, h.closed.2.trans hbefore.clock.2⟩
    charge := by rw [← hu]; exact h.charge
    posted := fun i hi hs e he => h.posted i hi (hbefore.tables hs) e (hafter.funded (hv (hbefore.tables hs)) i e he)
    taken := fun i hi hs hno hentry => by
      rw [← hfirst i hs hno] at hentry
      have := h.taken i hi (hbefore.tables hs) (hmiddle i hno) hentry
      rw [hfirst i hs hno, ← hlast i hs hno] at this
      exact this
    others := fun i hi hs hno => by
      rw [hlast i hs hno, h.others i hi (hbefore.tables hs) (hmiddle i hno), hfirst i hs hno]
    gone := by rw [ht]; exact h.gone
    timers := by rw [ht]; exact h.timers
    slot := by rw [ht]; exact h.slot
    fetched := fun hne hm => h.fetched (by rw [hu]; exact hne) (hafter.fetched n hm)
    state := by rw [ht]; exact h.state }

/-- A close at once in a station's own turn is one over all turns. -/
theorem ClosedAtOnce.among {reason : EndReason} {ses : Session} {x : Station} {r : SessionRecord}
    (h : ClosedAtOnce reason n ses x u v r) (hbefore : Turned (· ≠ n) s u) (hown : ∀ m, m ≠ n → v.st m = u.st m)
    (hv : AccountTable.wf u.accounts → AccountTable.wf v.accounts) (hafter : Turned (· ≠ n) v t) :
    ClosedAtOnce reason n ses x s t r := by
  have ht : t.st n = v.st n := hafter.others n (not_not.mpr rfl)
  exact ⟨h.settled.among hbefore hown hv hafter, h.figures, h.counts, by rw [ht]; exact h.start⟩

/-- A record taken in a station's own turn stands in the log after all turns. -/
theorem TakesRecord.among {r : SessionRecord} (h : TakesRecord u v r) (hbefore : Turned (· ≠ n) s u)
    (hafter : Turned (· ≠ n) v t) :
    { number := u.log.counter, body := .session r } ∈ t.log.records.drop s.log.records.length := by
  obtain ⟨before, hu⟩ := hbefore.records
  obtain ⟨after, ht⟩ := hafter.records
  rw [ht, h.1, hu, List.append_assoc, List.append_assoc, List.drop_left]
  simp

/-- The turn of a station whose session closes, among turns of others. -/
theorem startClosing_among {reason : EndReason} (hbefore : Turned (· ≠ n) s u)
    (hafter : Turned (· ≠ n) (startClosing reason n u) t) :
    ((s.st n).state ≠ .closing → (s.st n).mayClose → ClosingBegun reason n s t) ∧
    ∀ ses, (s.st n).closesAtOnce ses → s.log.records.length + openSessions s ≤ 256 →
      ∃ (k : Nat) (r : SessionRecord), { number := k, body := .session r } ∈ t.log.records.drop s.log.records.length ∧
        ClosedAtOnce reason n ses (s.st n) s t r := by
  have hu : u.st n = s.st n := hbefore.others n (not_not.mpr rfl)
  refine ⟨fun hstate hmay => ?_, fun ses hcloses hlog => ?_⟩
  · rw [← hu] at hstate hmay
    exact (closingBegun_startClosing hmay hstate).1.among hbefore hafter
  · rw [← hu] at hcloses
    have hopen : 0 < openSessions u := openSessions_pos (n := n) (by rw [hcloses.1]; rfl)
    have hroom : u.log.records.length < 256 := by
      have := hbefore.room
      omega
    obtain ⟨htakes, hclosed, hothers⟩ := closedAtOnce_here (reason := reason) hcloses hroom
    refine ⟨_, _, htakes.among hbefore hafter, ?_⟩
    rw [← hu]
    exact hclosed.among hbefore hothers (internal_startClosing reason n u).tables hafter

end

end Sys2Proof.Machine
end

section
/-! PROOF. STATION-DISABLE (R7) and MARK-LOST (R98): each of the stations that they name handles it in its own turn. -/

namespace Sys2Proof.Machine

/-- A step that leaves stations, accounts, log, fetch order and clock leaves all that a turn speaks of. -/
theorem turned_aside {s t : State} (P : StationId → Prop) (hstations : t.stations = s.stations)
    (haccounts : t.accounts = s.accounts) (hlog : t.log = s.log) (hfetch : t.fetchOrder = s.fetchOrder)
    (hclock : t.clock = s.clock ∧ t.clockSet = s.clockSet) : Turned P s t where
  others m _ := st_congr hstations m
  clock := hclock
  tables hs := by rw [haccounts]; exact hs
  sessions m hm := by rw [← st_congr hstations m]; exact hm
  drawn m i hm := by rw [← st_congr hstations m]; exact hm
  accounts _ i := .inl (by rw [State.account, haccounts]; rfl)
  funded _ i e he := by rw [State.account, haccounts] at he; exact he
  fetched m hm := by rw [← hfetch]; exact hm
  records := ⟨[], by rw [hlog, List.append_nil]⟩
  room := by rw [hlog, openSessions, openSessions, hstations]

/-! ## STATION-DISABLE -/

section
variable {n : StationId} {s : State}

/-- What STATION-DISABLE does at a station with no card in passage, by its state (R7). -/
theorem disableStation_cases (hp : (s.st n).passage = none) :
    ((s.st n).state = .disabled → disableStation n s = s) ∧
    ((s.st n).state = .down ∨ (s.st n).state = .idle ∨ (s.st n).state = .service ∨ (s.st n).state = .jammedFree ∨
      (s.st n).state = .authorizing → disableStation n s = enter false .disabled n s) ∧
    ((s.st n).state = .closing → disableStation n s = s.modSt n (fun x => { x with disablePending := true })) ∧
    ((s.st n).state.hasSession = true → (s.st n).state ≠ .closing → disableStation n s = startClosing .disabled n s) := by
  rw [disableStation, finishPassage_none hp, disableByState]
  refine ⟨fun h => by rw [h], fun h => ?_, fun h => by rw [h], fun h hne => ?_⟩
  · obtain h | h | h | h | h := h <;> rw [h]
  · cases hstate : (s.st n).state with
    | opened | confirming | running | starved | jammedSession | suspended => rfl
    | closing => exact absurd hstate hne
    | _ => rw [hstate] at h; exact absurd h Bool.false_ne_true

/-- So it is a turn of the station. -/
theorem turned_disableStation (hp : (s.st n).passage = none) : Turned (· = n) s (disableStation n s) := by
  obtain ⟨hdisabled, henters, hclosing, hcloses⟩ := disableStation_cases hp
  have henter : Turned (· = n) s (enter false .disabled n s) :=
    (atStation_enter false .disabled n s).turned (by rw [st_enter, entered_session])
  cases hstate : (s.st n).state with
  | disabled => rw [hdisabled hstate]; exact .refl _ s
  | closing => rw [hclosing hstate]; exact (atStation_modSt s n _).turned (by rw [st_modSt_self])
  | down => rw [henters (.inl hstate)]; exact henter
  | idle => rw [henters (.inr (.inl hstate))]; exact henter
  | service => rw [henters (.inr (.inr (.inl hstate)))]; exact henter
  | jammedFree => rw [henters (.inr (.inr (.inr (.inl hstate))))]; exact henter
  | authorizing => rw [henters (.inr (.inr (.inr (.inr hstate))))]; exact henter
  | _ =>
    rw [hcloses (by rw [hstate]; rfl) (by rw [hstate]; exact StationState.noConfusion)]
    exact turned_startClosing _ n s

end

/-- The mask that a payload is reads back as the mask (R204). -/
theorem maskAt_be2_alone (m : Mask) : maskAt (be2 m.toNat) 0 = m := by
  simpa using maskAt_be2_append m []

/-- Settles O14: each masked station is handled by its state in its own turn, and an empty path settles at once. -/
theorem stationDisableResult : Obligations.StationDisableResult := by
  unfold Obligations.StationDisableResult
  intro s tag rest mask h hpassage hsession
  have hd : ((takeOrder s).1.filter (inMask mask)).Nodup := (nodup_stationOrder s.draws).filter _
  have hmem : ∀ n, n ∈ (takeOrder s).1.filter (inMask mask) ↔ inMask mask n = true := fun n => by
    rw [List.mem_filter]
    exact and_iff_right (mem_stationOrder s.draws n)
  have hturn : ∀ n u, (u.st n).passage = none → Turned (· = n) u (disableStation n u) := fun n u => turned_disableStation
  have hpassages : ∀ m ∈ (takeOrder s).1.filter (inMask mask), ((takeOrder s).2.st m).passage = none := fun m _ => hpassage m
  refine ⟨atEach ((takeOrder s).1.filter (inMask mask)) disableStation (takeOrder s).2, congrArg Host.Outcome.next ?_,
    fun n => ⟨fun hno => ?_, fun hin => ?_⟩⟩
  · refine runCommand_answers h rfl rfl (fun ht => absurd ht Bool.false_ne_true) ?_ ?_
    · show ruleStationDisable (be2 mask.toNat) s = _
      rw [ruleStationDisable, maskAt_be2_alone]
      rfl
    · exact (internal_atEach (fun n u => (internal_disableStation n u).toInternal) _ _).host
  · by_cases hin : inMask mask n = true
    · obtain hno | hno := hno
      · rw [hin] at hno
        exact nomatch hno
      · obtain ⟨u, hbefore, hafter⟩ := turned_atEach_at (I := fun x => x.passage = none) hturn hd ((hmem n).mpr hin) hpassages
        have hu : u.st n = s.st n := hbefore.others n (not_not.mpr rfl)
        rw [(disableStation_cases (by rw [hu]; exact hpassage n)).1 (by rw [hu]; exact hno)] at hafter
        rw [hafter.others n (not_not.mpr rfl), hu]
    · exact (turned_atEach (I := fun x => x.passage = none) hturn _ _ hd hpassages).others n fun hl => hin ((hmem n).mp hl)
  · obtain ⟨u, hdrawn, hafter⟩ := turned_atEach_at (I := fun x => x.passage = none) hturn hd ((hmem n).mpr hin) hpassages
    have hbefore := (turned_aside (s := s) (t := (takeOrder s).2) (· ≠ n) rfl rfl rfl rfl ⟨rfl, rfl⟩).trans hdrawn
    have hu : u.st n = s.st n := hbefore.others n (not_not.mpr rfl)
    obtain ⟨-, henters, hclosing, hcloses⟩ := disableStation_cases (n := n) (s := u) (by rw [hu]; exact hpassage n)
    rw [hu] at henters hclosing hcloses
    have hown := hafter.others n (not_not.mpr rfl)
    refine ⟨fun hstate => ?_, fun hstate => ?_, fun ⟨hsome, hne, hmay⟩ => ?_, fun ses hses hlog => ?_⟩
    · rw [hown, henters hstate, st_enter, entered_state, entered_slot, hu]
      exact ⟨rfl, rfl⟩
    · rw [hown, hclosing hstate, st_modSt_self, hu]
    · rw [hcloses ((hsession n).symm.trans hsome) hne] at hafter
      exact (startClosing_among hbefore hafter).1 hne hmay
    · rw [hcloses ((hsession n).symm.trans (by rw [hses.1]; rfl)) hses.2.2.2] at hafter
      exact (startClosing_among hbefore hafter).2 ses hses hlog

/-! ## MARK-LOST -/

/-- The loss of a card starts closing at the stations whose session was opened with it (R98). -/
theorem loseCard_of_session {card : CardId} {n : StationId} {s : State}
    (h : (s.st n).session.map Session.card = some card) : loseCard card n s = startClosing .cardLost n s := by
  rw [loseCard]
  cases hses : (s.st n).session with
  | none => rw [hses] at h; exact nomatch h
  | some ses =>
    rw [hses] at h
    exact if_pos (Option.some.inj h)

/-- It leaves the others. -/
theorem loseCard_else {card : CardId} {n : StationId} {s : State}
    (h : (s.st n).session.map Session.card ≠ some card ∨ (s.st n).state = .closing) : loseCard card n s = s := by
  rw [loseCard]
  cases hses : (s.st n).session with
  | none => rfl
  | some ses =>
    rw [hses] at h
    dsimp only
    split
    next hcard =>
      obtain h | h := h
      · exact absurd (congrArg some hcard) h
      · exact if_pos (.inr h)
    next => rfl

theorem turned_loseCard (card : CardId) (n : StationId) (s : State) : Turned (· = n) s (loseCard card n s) := by
  by_cases h : (s.st n).session.map Session.card = some card
  · rw [loseCard_of_session h]
    exact turned_startClosing _ n s
  · rw [loseCard_else (.inl h)]
    exact .refl _ s

/-- Settles O25: the binding is LOST, and each station whose session the card opened starts closing in its own turn. -/
theorem markLostResult : Obligations.MarkLostResult := by
  unfold Obligations.MarkLostResult
  intro s tag rest card hwf ht h
  have hsize : sizeAllowed 0x15#8 (beCardId card).length = true := by simp [length_beCardId, sizeAllowed]
  have hrule : ruleMarkLost (beCardId card) s = if s.bound card then
      done (atEach (takeOrder s).1 (loseCard card) { s with
        bindings := s.bindings.map (fun b => if b.card = card then { b with lost := true } else b), draws := s.draws + 1 })
      else refuse .notFound s := onCard_at hwf (take_beCardId card) s _
  refine ⟨fun hno => congrArg Host.Outcome.next ?_, fun hb => ?_⟩
  · exact runCommand_answers h rfl hsize (fun _ => ht) (hrule.trans (if_neg (not_bound hno))) rfl
  · generalize hlost : ({ s with
        bindings := s.bindings.map (fun b => if b.card = card then { b with lost := true } else b)
        draws := s.draws + 1 } : State) = s₁ at hrule
    have hst : ∀ n, s₁.st n = s.st n := fun n => by rw [← hlost]; rfl
    have hinternal : Internal s₁ (atEach (takeOrder s).1 (loseCard card) s₁) :=
      internal_atEach (fun n u => (internal_loseCard card n u).toInternal) _ _
    refine ⟨atEach (takeOrder s).1 (loseCard card) s₁, congrArg Host.Outcome.next ?_, ?_, fun n => ?_⟩
    · refine runCommand_answers h rfl hsize (fun _ => ht) (hrule.trans (if_pos ((bound_iff s card).mpr hb))) ?_
      rw [hinternal.host, ← hlost]
    · rw [hinternal.bindings, ← hlost]
    · obtain ⟨u, hdrawn, hafter⟩ := turned_atEach_at (I := fun _ => True) (s := s₁) (fun m v _ => turned_loseCard card m v)
        (nodup_stationOrder s.draws) (mem_stationOrder s.draws n) fun _ _ => trivial
      have hbefore : Turned (· ≠ n) s u :=
        (turned_aside (· ≠ n) (by rw [← hlost]) (by rw [← hlost]) (by rw [← hlost]) (by rw [← hlost])
          (by rw [← hlost]; exact ⟨rfl, rfl⟩)).trans hdrawn
      have hu : u.st n = s.st n := hbefore.others n (not_not.mpr rfl)
      refine ⟨fun helse => ?_, fun hcard hne hmay => ?_, fun ses hses hcard hlog => ?_⟩
      · rw [← hu] at helse
        rw [loseCard_else helse] at hafter
        exact (hafter.others n (not_not.mpr rfl)).trans hu
      · rw [loseCard_of_session (by rw [hu]; exact hcard)] at hafter
        exact (startClosing_among hbefore hafter).1 hne hmay
      · rw [loseCard_of_session (by rw [hu, hses.1]; exact congrArg some hcard)] at hafter
        exact (startClosing_among hbefore hafter).2 ses hses hlog

end Sys2Proof.Machine
end

section
/-! PROOF. TARIFF-APPLY, the eight tests of the checker and the completion of a check (R78 to R85). -/

namespace Sys2Proof.Machine

/-! ## TARIFF-APPLY -/

/-- The action of the stations of a mask, each on its own tariff. -/
theorem atEach_mask {f : StationId → State → State} {g : Station → Station} (hf : ∀ n s, f n s = s.modSt n g) (m : Mask)
    (s : State) : atEach (stationsOf m) f s = { s with stations := (atEach (stationsOf m) f s).stations } ∧
      ∀ n, (atEach (stationsOf m) f s).st n = if inMask m n = true then g (s.st n) else s.st n := by
  have hat : ∀ n s, AtStation n s (f n s) := fun n s => by rw [hf]; exact atStation_modSt s n g
  refine ⟨atEach_stations (fun n s => by rw [hf]; rfl) _ s, fun n => ?_⟩
  split
  next hn =>
    obtain ⟨u, hu, ht⟩ := atEach_st_of_mem hat s (nodup_stationsOf m) (mem_stationsOf.mpr hn)
    rw [ht, hf, st_modSt_self, hu]
  next hn => exact atEach_st_of_notMem hat s (mt mem_stationsOf.mp hn)

/-- The timing byte of TARIFF-APPLY (R78). -/
theorem timingOf_byte (b : Byte) (h : b.toNat ≤ 1) :
    timingOf b.toNat = some (if b = 0#8 then Timing.atIdle else Timing.now) := by
  have hb : b = BitVec.ofNat 8 b.toNat := by simp
  obtain hzero | hone := Nat.le_one_iff_eq_zero_or_eq_one.mp h
  · rw [hb, hzero]
    rfl
  · rw [hb, hone]
    rfl

theorem notChecking {s : State} (h : s.tariffs.check = none) : ¬ s.tariffs.check.isSome = true := by
  rw [h]
  exact Bool.false_ne_true

theorem timingOf_beyond {k : Nat} (h : 1 < k) : timingOf k = none := by
  match k, h with
  | k + 2, _ => rfl

/-! ## The checker's tests (R80) -/

/-- The lowest class that fails a test. -/
theorem firstClassFailing_eq_some {test : Pricing → Bool} {q : PerClass Pricing} {c : ClassId} (hc : test q[c] = false)
    (hlow : ∀ d : ClassId, d < c → test q[d] = true) : firstClassFailing test q = some c := by
  have hfirst : ∀ (f : Fin 4 → Bool) (c : Fin 4), f c = false → (∀ d, d < c → f d = true) →
      (List.finRange 4).find? (fun d => !(f d)) = some c := by decide
  exact hfirst (fun d => test q[d]) c hc hlow

theorem firstClassFailing_eq_none {test : Pricing → Bool} {q : PerClass Pricing} (h : ∀ c : ClassId, test q[c] = true) :
    firstClassFailing test q = none := by
  refine List.find?_eq_none.mpr fun c _ => ?_
  rw [h c]
  exact Bool.false_ne_true

/-- Test 6 of a class is that none of its breakpoints is bad. -/
theorem breaksOk_iff (q : Pricing) : breaksOk q = true ↔ ¬ q.BadBreaks := by
  obtain ⟨tiers, breaks, prices, basis⟩ := q
  obtain ⟨b0, b1, b2, rfl⟩ : ∃ b0 b1 b2, breaks = #v[b0, b1, b2] := ⟨breaks[0], breaks[1], breaks[2], by
    ext i hi
    match i, hi with
    | 0, _ | 1, _ | 2, _ => rfl⟩
  match tiers with
  | 0 => simp [breaksOk, Pricing.BadBreaks, risingFromOne]
  | 1 => simp [breaksOk, Pricing.BadBreaks, risingFromOne]
  | 2 => simp [breaksOk, Pricing.BadBreaks, risingFromOne]; omega
  | 3 => simp [breaksOk, Pricing.BadBreaks, risingFromOne, Fin.forall_fin_succ]; omega
  | k + 4 => simp [breaksOk, Pricing.BadBreaks, risingFromOne, Fin.forall_fin_succ]; omega

/-- Test 7 of a class is that none of its prices is bad. -/
theorem pricesOk_iff (q : Pricing) : pricesOk q = true ↔ ¬ q.BadPrices := by
  obtain ⟨tiers, breaks, prices, basis⟩ := q
  obtain ⟨p0, p1, p2, p3, rfl⟩ : ∃ p0 p1 p2 p3, prices = #v[p0, p1, p2, p3] :=
    ⟨prices[0], prices[1], prices[2], prices[3], by
      ext i hi
      match i, hi with
      | 0, _ | 1, _ | 2, _ | 3, _ => rfl⟩
  match tiers with
  | 0 => simp [pricesOk, Pricing.BadPrices, nonIncreasing]
  | 1 => simp [pricesOk, Pricing.BadPrices, nonIncreasing]
  | 2 => simp [pricesOk, Pricing.BadPrices, nonIncreasing]
  | 3 => simp [pricesOk, Pricing.BadPrices, nonIncreasing, Fin.forall_fin_succ]
  | k + 4 => simp [pricesOk, Pricing.BadPrices, nonIncreasing, Fin.forall_fin_succ]

/-- The ceiling is the largest P0 (R80). -/
theorem ceilingOf_isMax (q : PerClass Pricing) :
    (∃ c : ClassId, q[c].prices[0] = ceilingOf q) ∧ ∀ c : ClassId, q[c].prices[0] ≤ ceilingOf q := by
  refine ⟨?_, fun c => ?_⟩
  · obtain h | h | h | h : q[0].prices[0] = ceilingOf q ∨ q[1].prices[0] = ceilingOf q ∨ q[2].prices[0] = ceilingOf q ∨
        q[3].prices[0] = ceilingOf q := by
      unfold ceilingOf
      omega
    · exact ⟨0, h⟩
    · exact ⟨1, h⟩
    · exact ⟨2, h⟩
    · exact ⟨3, h⟩
  · match c with
    | 0 => exact (Nat.le_max_left _ _).trans (Nat.le_max_left _ _)
    | 1 => exact (Nat.le_max_right _ _).trans (Nat.le_max_left _ _)
    | 2 => exact (Nat.le_max_left _ _).trans (Nat.le_max_right _ _)
    | 3 => exact (Nat.le_max_right _ _).trans (Nat.le_max_right _ _)

section
variable {ts : TariffStore}

/-- Test 1 names the lowest empty section of a class (R80). -/
theorem stagedSections_empty (hheader : ts.header.isSome = true) {c : ClassId} (hc : ts.pricing[c] = none)
    (hlow : ∀ d : ClassId, d < c → ts.pricing[d].isSome = true) : stagedSections ts = .error (.pricing c) := by
  obtain ⟨h, hh⟩ := Option.isSome_iff_exists.mp hheader
  have hbelow : ∀ d : ClassId, d < c → ∃ q, ts.pricing[d] = some q := fun d hd => Option.isSome_iff_exists.mp (hlow d hd)
  unfold stagedSections
  rw [hh]
  dsimp only
  match c, hc, hbelow with
  | 0, hc, _ =>
    have h0 : ts.pricing[0] = none := hc
    rw [h0]
  | 1, hc, hbelow =>
    obtain ⟨q0, h0⟩ : ∃ q, ts.pricing[0] = some q := hbelow 0 (by decide)
    have h1 : ts.pricing[1] = none := hc
    rw [h0, h1]
  | 2, hc, hbelow =>
    obtain ⟨q0, h0⟩ : ∃ q, ts.pricing[0] = some q := hbelow 0 (by decide)
    obtain ⟨q1, h1⟩ : ∃ q, ts.pricing[1] = some q := hbelow 1 (by decide)
    have h2 : ts.pricing[2] = none := hc
    rw [h0, h1, h2]
  | 3, hc, hbelow =>
    obtain ⟨q0, h0⟩ : ∃ q, ts.pricing[0] = some q := hbelow 0 (by decide)
    obtain ⟨q1, h1⟩ : ∃ q, ts.pricing[1] = some q := hbelow 1 (by decide)
    obtain ⟨q2, h2⟩ : ∃ q, ts.pricing[2] = some q := hbelow 2 (by decide)
    have h3 : ts.pricing[3] = none := hc
    rw [h0, h1, h2, h3]

/-- The five sections, all loaded (R80). -/
theorem stagedSections_full {h : Header} {q : PerClass Pricing} (hheader : ts.header = some h)
    (hq : ∀ c : ClassId, ts.pricing[c] = some q[c]) : stagedSections ts = .ok (h, q) := by
  have h0 : ts.pricing[0] = some q[0] := hq 0
  have h1 : ts.pricing[1] = some q[1] := hq 1
  have h2 : ts.pricing[2] = some q[2] := hq 2
  have h3 : ts.pricing[3] = some q[3] := hq 3
  have hvector : #v[q[0], q[1], q[2], q[3]] = q := by
    ext i hi
    match i, hi with
    | 0, _ | 1, _ | 2, _ | 3, _ => rfl
  unfold stagedSections
  rw [hheader, h0, h1, h2, h3]
  dsimp only
  rw [hvector]

end

/-- The tests after the first, on the sections loaded (R80). -/
theorem judgeStaged_full {ts : TariffStore} {h : Header} {q : PerClass Pricing} (hheader : ts.header = some h)
    (hq : ∀ c : ClassId, ts.pricing[c] = some q[c]) :
    (h.stamp = 0 → judgeStaged ts = .error .badStamp) ∧
    (h.stamp ≠ 0 → 100 < h.duplex → judgeStaged ts = .error .badDuplex) ∧
    (h.stamp ≠ 0 → h.duplex ≤ 100 → 2000 < h.minimum → judgeStaged ts = .error .badMinimum) ∧
    (h.stamp ≠ 0 → h.duplex ≤ 100 → h.minimum ≤ 2000 → (∃ d ∈ h.discounts.toList, 50 < d) →
      judgeStaged ts = .error .badDiscount) ∧
    (h.stamp ≠ 0 → h.duplex ≤ 100 → h.minimum ≤ 2000 → (∀ d ∈ h.discounts.toList, d ≤ 50) →
      (∀ c, firstClassFailing breaksOk q = some c → judgeStaged ts = .error (.badBreakpoints c)) ∧
      (firstClassFailing breaksOk q = none →
        (∀ c, firstClassFailing pricesOk q = some c → judgeStaged ts = .error (.badPrices c)) ∧
        (firstClassFailing pricesOk q = none →
          (ceilingOf q = 0 → judgeStaged ts = .error .noPrice) ∧
          (ceilingOf q ≠ 0 → judgeStaged ts = .ok { header := h, pricing := q, ceiling := ceilingOf q })))) := by
  have hdiscounts : h.discounts.toList.any (fun d => decide (50 < d)) = true ↔ ∃ d ∈ h.discounts.toList, 50 < d := by
    simp only [List.any_eq_true, decide_eq_true_eq]
  unfold judgeStaged
  rw [stagedSections_full hheader hq]
  dsimp only
  refine ⟨fun h0 => if_pos h0, fun h0 h1 => ?_, fun h0 h1 h2 => ?_, fun h0 h1 h2 h3 => ?_, fun h0 h1 h2 h3 => ?_⟩
  · rw [if_neg h0, if_pos h1]
  · rw [if_neg h0, if_neg (Nat.not_lt.mpr h1), if_pos h2]
  · rw [if_neg h0, if_neg (Nat.not_lt.mpr h1), if_neg (Nat.not_lt.mpr h2), if_pos (hdiscounts.mpr h3)]
  · rw [if_neg h0, if_neg (Nat.not_lt.mpr h1), if_neg (Nat.not_lt.mpr h2), if_neg fun hany => by
      obtain ⟨d, hd, hlt⟩ := hdiscounts.mp hany
      exact absurd (h3 d hd) (Nat.not_le.mpr hlt)]
    refine ⟨fun c hc => by rw [hc], fun hbreaks => ?_⟩
    rw [hbreaks]
    refine ⟨fun c hc => by rw [hc], fun hprices => ?_⟩
    rw [hprices]
    exact ⟨fun hzero => if_pos hzero, fun hne => if_neg hne⟩

/-- The checker's judgement is R80's. -/
theorem judgeStaged_tests (ts : TariffStore) : (ts.header = none → judgeStaged ts = .error (.sectionEmpty .header)) ∧
    (∀ c : ClassId, ts.header.isSome = true → ts.pricing[c] = none →
      (∀ d : ClassId, d < c → ts.pricing[d].isSome = true) →
      judgeStaged ts = .error (.sectionEmpty (.pricing c))) := by
  refine ⟨fun hnone => ?_, fun c hheader hc hlow => ?_⟩
  · rw [judgeStaged, stagedSections, hnone]
  · rw [judgeStaged, stagedSections_empty hheader hc hlow]

/-! ## The completion of a check -/

/-- Where no card is in passage none is finished. -/
theorem atEach_finishPassage {s : State} (h : ∀ n, (s.st n).passage = none) : ∀ l : List StationId,
    atEach l finishPassage s = s
  | [] => rfl
  | n :: l => by
    show atEach l finishPassage (finishPassage n s) = s
    rw [finishPassage_none (h n)]
    exact atEach_finishPassage h l

/-- A passed check's outcome at a station (R82). -/
def Station.takesTariff (tf : Tariff) (timing : Timing) (x : Station) : Station :=
  { x with tariff :=
    if x.state = .authorizing ∨ x.session.isSome then
      (if timing = .now then { x.tariff with status := .rejectedBusy }
      else { x.tariff with next := some tf, status := .pending })
    else { active := some tf, next := none, status := .applied } }

theorem takeTariff_eq (tf : Tariff) (timing : Timing) (n : StationId) (s : State) :
    takeTariff tf timing n s = s.modSt n (Station.takesTariff tf timing) := by
  refine modSt_congr ?_
  have hholds : (s.st n).holdsSession = true ↔ (s.st n).state = .authorizing ∨ (s.st n).session.isSome = true := by
    simp [Station.holdsSession]
  unfold Station.takesTariff
  by_cases h : (s.st n).state = .authorizing ∨ (s.st n).session.isSome = true
  · rw [if_pos h, if_pos (hholds.mpr h)]
    cases timing <;> rfl
  · rw [if_neg h, if_neg (mt hholds.mp h)]

/-- What the completion of a check leaves of the rest, with its result and the outcome at each selected station (R80 to
R82, R85). -/
theorem check_completed {s u t : State} {mask : Mask} {f : StationId → State → State} {g : Station → Station}
    (hf : ∀ n s, f n s = s.modSt n g) {result : CheckResult}
    (hu : u = { s with tariffs := { s.tariffs with check := none, lastResult := result }, draws := u.draws })
    (ht : t = raiseMask .tariff mask (atEach (stationsOf mask) f u)) :
    t.tariffs.check = none ∧ t.tariffs.header = s.tariffs.header ∧ t.tariffs.pricing = s.tariffs.pricing ∧
      (t.source .tariff).pending = true ∧ (t.source .tariff).bitmap = (s.source .tariff).bitmap ||| mask ∧
      t.accounts = s.accounts ∧ t.log = s.log ∧ (∀ n, inMask mask n = false → t.st n = s.st n) ∧
      t.tariffs.lastResult = result ∧ ∀ n, inMask mask n = true → t.st n = g (s.st n) := by
  obtain ⟨hframe, hst⟩ := atEach_mask hf mask u
  have hust : ∀ n, u.st n = s.st n := fun n => by rw [hu]; rfl
  have hsource : (t.source .tariff) = { s.source .tariff with
      pending := true, bitmap := (s.source .tariff).bitmap ||| mask } := by
    rw [ht, raiseMask_source, hframe, hu]
    rfl
  refine ⟨?_, ?_, ?_, by rw [hsource], by rw [hsource], ?_, ?_, fun n hn => ?_, ?_, fun n hn => ?_⟩
  · rw [ht, raiseMask_tariffs, hframe, hu]
  · rw [ht, raiseMask_tariffs, hframe, hu]
  · rw [ht, raiseMask_tariffs, hframe, hu]
  · rw [ht, raiseMask_accounts, hframe, hu]
  · rw [ht, raiseMask_log, hframe, hu]
  · rw [ht, raiseMask_st, hst, if_neg (by rw [hn]; exact Bool.false_ne_true), hust]
  · rw [ht, raiseMask_tariffs, hframe, hu]
  · rw [ht, raiseMask_st, hst, if_pos hn, hust]

/-- A rejected check's outcome at a station (R81). -/
def Station.rejectsTariff (x : Station) : Station := { x with tariff := { x.tariff with status := .rejectedInvalid } }

/-- Settles O20: TARIFF-APPLY, the completion of its check, and the eight tests. -/
theorem tariffApplyAndCompletion : Obligations.TariffApplyAndCompletion := by
  unfold Obligations.TariffApplyAndCompletion
  refine ⟨fun s tag timing rest mask h => ⟨fun hbusy => congrArg Host.Outcome.next ?_, fun hfree hbad =>
      congrArg Host.Outcome.next ?_, fun hfree htiming hmask => ?_⟩, fun s mask timing hcheck hpassage => ?_, fun ts =>
    ⟨(judgeStaged_tests ts).1, (judgeStaged_tests ts).2, fun hd q hheader hq => ?_⟩⟩
  · exact runCommand_answers h rfl (by simp [sizeAllowed]) (fun ht => absurd ht Bool.false_ne_true) (if_pos hbusy) rfl
  · refine runCommand_answers h rfl (by simp [sizeAllowed]) (fun ht => absurd ht Bool.false_ne_true) ?_ rfl
    show ruleTariffApply (be2 mask.toNat ++ [timing]) s = _
    rw [ruleTariffApply, if_neg (notChecking hfree), action_auditControl, maskAt_be2_append]
    obtain hbeyond | hnone := hbad
    · rw [timingOf_beyond hbeyond]
      rfl
    · cases timingOf timing.toNat with
      | none => rfl
      | some _ => exact if_pos hnone
  · obtain ⟨hframe, hst⟩ := atEach_mask (f := setApplyStatus .inProgress) (fun n s => rfl) mask
      { s with tariffs := { s.tariffs with check := some (mask, if timing = 0#8 then .atIdle else .now) } }
    refine ⟨_, congrArg Host.Outcome.next (runCommand_answers h rfl (by simp [sizeAllowed])
      (fun ht => absurd ht Bool.false_ne_true) ?_ ?_), hframe, hst⟩
    · show ruleTariffApply (be2 mask.toNat ++ [timing]) s = _
      rw [ruleTariffApply, if_neg (notChecking hfree), action_auditControl, maskAt_be2_append, timingOf_byte _ htiming]
      exact if_neg hmask
    · rw [hframe]
  · have hexec : exec .tariffCheckCompletion s = .next (finishCheck mask timing s) := by
      show execTariffCheckCompletion s = _
      rw [execTariffCheckCompletion, hcheck]
    refine ⟨finishCheck mask timing s, hexec, ?_⟩
    cases hjudge : judgeStaged s.tariffs with
    | error r =>
      obtain ⟨h1, h2, h3, h4, h5, h6, h7, h8, hresult, hat⟩ := check_completed (s := s) (t := finishCheck mask timing s)
        (f := setApplyStatus .rejectedInvalid) (g := Station.rejectsTariff) (fun n s => rfl) (result := r) rfl
        (by rw [finishCheck, hjudge])
      refine ⟨h1, h2, h3, h4, h5, h6, h7, h8, fun r' hr' => ?_, fun tf htf => (by cases htf)⟩
      obtain rfl := Except.error.inj hr'
      exact ⟨hresult, hat⟩
    | ok tf =>
      obtain ⟨h1, h2, h3, h4, h5, h6, h7, h8, hresult, hat⟩ := check_completed (s := s) (t := finishCheck mask timing s)
        (u := { s with tariffs := { s.tariffs with check := none, lastResult := .passed }, draws := s.draws + 1 })
        (takeTariff_eq tf timing) (result := .passed) rfl (by
          rw [finishCheck, hjudge]
          dsimp only
          rw [finishPassages, atEach_finishPassage]
          · rfl
          · exact hpassage)
      refine ⟨h1, h2, h3, h4, h5, h6, h7, h8, fun r hr => (by cases hr), fun tf' htf => ?_⟩
      obtain rfl := Except.ok.inj htf
      exact ⟨hresult, hat⟩
  · obtain ⟨hstamp, hduplex, hminimum, hdiscount, hrest⟩ := judgeStaged_full hheader hq
    refine ⟨hstamp, hduplex, hminimum, hdiscount, fun h0 h1 h2 h3 => ?_⟩
    obtain ⟨hbreaks, hlater⟩ := hrest h0 h1 h2 h3
    refine ⟨fun c hc hlow => hbreaks c (firstClassFailing_eq_some ?_ fun d hd => (breaksOk_iff _).mpr (hlow d hd)),
      fun hgood => ?_⟩
    · exact Bool.eq_false_iff.mpr fun hok => (breaksOk_iff _).mp hok hc
    · obtain ⟨hprices, hlast⟩ := hlater (firstClassFailing_eq_none fun c => (breaksOk_iff _).mpr (hgood c))
      refine ⟨fun c hc hlow => hprices c (firstClassFailing_eq_some ?_ fun d hd => (pricesOk_iff _).mpr (hlow d hd)),
        fun hordered => ?_⟩
      · exact Bool.eq_false_iff.mpr fun hok => (pricesOk_iff _).mp hok hc
      · obtain ⟨hzero, hpriced⟩ := hlast (firstClassFailing_eq_none fun c => (pricesOk_iff _).mpr (hordered c))
        obtain ⟨⟨c, hc⟩, hmax⟩ := ceilingOf_isMax q
        refine ⟨fun hall => hzero (hc.symm.trans (hall c)), fun ⟨d, hd⟩ => ⟨ceilingOf q, hpriced fun hnone => ?_, ⟨c, hc⟩, hmax⟩⟩
        have := hmax d
        omega

end Sys2Proof.Machine
end

section
/-! PROOF. What a warm reset carries through its turns (R34, R35, R175), and where it leaves the stations and the blocks. -/

namespace Sys2Proof.Machine

/-- A station is entered into the state that it stands in without a change (R1). -/
theorem entered_self {new : StationState} {x : Station} (h : x.state = new) : x.entered new = x := if_pos h

/-! ## What is carried through -/

/-- What a warm reset leaves of a station whatever becomes of its session. -/
structure Station.Carried (x y : Station) : Prop where
  settings : y.settings = x.settings
  identity : y.identity = x.identity
  silence : y.silence = x.silence
  audit : y.audit = x.audit
  lastSeq : y.lastSeq = x.lastSeq
  seqKnown : y.seqKnown = x.seqKnown
  lastJam : y.lastJam = x.lastJam
  rx : y.rx = x.rx
  line : y.line = x.line

section
variable {x y z : Station}

theorem Station.Carried.refl (x : Station) : x.Carried x := ⟨rfl, rfl, rfl, rfl, rfl, rfl, rfl, rfl, rfl⟩

theorem Station.Carried.trans (h : x.Carried y) (k : y.Carried z) : x.Carried z where
  settings := k.settings.trans h.settings
  identity := k.identity.trans h.identity
  silence := k.silence.trans h.silence
  audit := k.audit.trans h.audit
  lastSeq := k.lastSeq.trans h.lastSeq
  seqKnown := k.seqKnown.trans h.seqKnown
  lastJam := k.lastJam.trans h.lastJam
  rx := k.rx.trans h.rx
  line := k.line.trans h.line

theorem carried_entered (new : StationState) (x : Station) : x.Carried (x.entered new) :=
  ⟨entered_settings _ _, entered_identity _ _, entered_silence _ _, entered_audit _ _, entered_lastSeq _ _,
    entered_seqKnown _ _, entered_lastJam _ _, entered_rx _ _, entered_line _ _⟩

theorem carried_idled (x : Station) : x.Carried x.idled :=
  ⟨idled_settings _, idled_identity _, idled_silence _, idled_audit _, idled_lastSeq _, idled_seqKnown _, idled_lastJam _,
    idled_rx _, idled_line _⟩

theorem carried_topupVoided (x : Station) : x.Carried x.topupVoided := by
  unfold Station.topupVoided
  split <;> exact ⟨rfl, rfl, rfl, rfl, rfl, rfl, rfl, rfl, rfl⟩

theorem carried_credited (x : Station) : x.Carried x.credited := ⟨rfl, rfl, rfl, rfl, rfl, rfl, rfl, rfl, rfl⟩

theorem carried_closedAtOnce (reason : EndReason) (x : Station) : x.Carried (x.closedAtOnce reason) :=
  (carried_topupVoided x).trans ⟨rfl, rfl, rfl, rfl, rfl, rfl, rfl, rfl, rfl⟩

theorem carried_settled (bank : Bool) (x : Station) : x.Carried (x.settled bank) := ⟨rfl, rfl, rfl, rfl, rfl, rfl, rfl, rfl, rfl⟩

theorem carried_warm (x : Station) : x.Carried x.warm := ⟨rfl, rfl, rfl, rfl, rfl, rfl, rfl, rfl, rfl⟩

end

/-- What a warm reset's turns carry through: of each station what `Carried` says, the records that the log holds, and the
tag counter. -/
structure WarmKept (s t : State) : Prop where
  stations : ∀ m, (s.st m).Carried (t.st m)
  records : ∃ more, t.log.records = s.log.records ++ more
  tags : t.tagCounter = s.tagCounter

theorem WarmKept.refl (s : State) : WarmKept s s := ⟨fun _ => .refl _, ⟨[], (List.append_nil _).symm⟩, rfl⟩

theorem WarmKept.trans {s t u : State} (h : WarmKept s t) (k : WarmKept t u) : WarmKept s u where
  stations m := (h.stations m).trans (k.stations m)
  records := by
    obtain ⟨a, ha⟩ := h.records
    obtain ⟨b, hb⟩ := k.records
    exact ⟨a ++ b, by rw [hb, ha, List.append_assoc]⟩
  tags := k.tags.trans h.tags

/-- Turns that each carry this through carry it through together. -/
theorem warmKept_atEach {f : StationId → State → State} (hf : ∀ n s, WarmKept s (f n s)) (l : List StationId) (s : State) :
    WarmKept s (atEach l f s) :=
  atEach_keeps (P := WarmKept s) (fun n _ h => h.trans (hf n _)) l s (.refl s)

/-- A change of one station carries it through where the station does. -/
theorem AtStation.warmKept {n : StationId} {s t : State} (h : AtStation n s t) (hn : (s.st n).Carried (t.st n)) :
    WarmKept s t where
  stations m := by
    by_cases hm : m = n
    · rw [hm]; exact hn
    · rw [h.others m hm]; exact .refl _
  records := ⟨[], by rw [h.log, List.append_nil]⟩
  tags := by rw [h.rest]

/-- A step that leaves the stations and the tag counter carries it through where the log grows at its end. -/
theorem warmKept_aside {s t : State} (hstations : t.stations = s.stations)
    (hrecords : ∃ more, t.log.records = s.log.records ++ more) (htags : t.tagCounter = s.tagCounter) : WarmKept s t :=
  ⟨fun m => by rw [st_congr hstations]; exact .refl _, hrecords, htags⟩

theorem warmKept_returnReservation (s : State) : WarmKept s (returnReservation s) := by
  refine warmKept_aside (returnReservation_stations s) ⟨[], ?_⟩ ?_
  · rw [returnReservation, logLowCheck_records, List.append_nil]
  · rw [returnReservation, logLowCheck_frame]

theorem warmKept_offerReserved (body : LogBody) (s : State) : WarmKept s (offerReserved body s) := by
  refine warmKept_aside (offerReserved_stations body s) ?_ ?_
  · unfold offerReserved
    split
    · exact ⟨_, (joinLog_log body _ s).1⟩
    · exact ⟨[], (List.append_nil _).symm⟩
  · unfold offerReserved
    split
    · rw [joinLog_frame]
    · rfl

theorem warmKept_endPassage (n : StationId) (s : State) : WarmKept s (endPassage n s) :=
  (atStation_modSt s n _).warmKept (by rw [st_modSt_self]; exact ⟨rfl, rfl, rfl, rfl, rfl, rfl, rfl, rfl, rfl⟩)

/-- An opening carries it through (R11). -/
theorem warmKept_openSession (funding : Funding) (card : CardId) (limit : Option Nat) (discount : Nat) (n : StationId)
    (s : State) : WarmKept s (openSession funding card limit discount n s) := by
  refine (warmKept_aside (s := s) (t := (takeSessionNumber s).2) rfl ⟨[], (List.append_nil _).symm⟩ rfl).trans ?_
  refine ((atStation_modSt _ n _).trans (atStation_enter false .opened n _)).warmKept ?_
  rw [st_enter, st_modSt_self]
  exact Station.Carried.trans (y := (s.st n).withSession _) ⟨rfl, rfl, rfl, rfl, rfl, rfl, rfl, rfl, rfl⟩
    (carried_entered .opened _)

theorem warmKept_resetPassage (n : StationId) (s : State) : WarmKept s (resetPassage n s) := by
  unfold resetPassage
  split
  · exact .refl s
  next p hp =>
    split
    next hhold =>
      obtain ⟨⟨i, limit, dc⟩, hv⟩ := Option.isSome_iff_exists.mp hhold
      rw [finishPassage, hp]
      dsimp only
      rw [hv]
      exact (warmKept_endPassage n s).trans (warmKept_openSession _ _ _ _ n _)
    next => exact (warmKept_endPassage n s).trans (warmKept_returnReservation _)

/-! ## First requests -/

/-- The station once a first request of its slot has ended (R137, R143). -/
def Station.firstVoided (x : Station) : Station := { x with slot := if x.slot.isRequested then .free else x.slot }

theorem firstVoided_of_not_requested {x : Station} (h : x.slot.isRequested = false) : x.firstVoided = x := by
  rw [Station.firstVoided, h]
  rfl

theorem st_voidFirst (cause : VoidCause) (n : StationId) (s : State) :
    (voidFirst cause n s).st n = (s.st n).firstVoided := by
  unfold voidFirst
  cases hslot : (s.st n).slot with
  | requested card dc req =>
    dsimp only
    rw [st_congr (offerReserved_stations _ _), st_leaveFetchOrder, st_modSt_self, Station.firstVoided, hslot]
    rfl
  | _ => exact (firstVoided_of_not_requested (by rw [hslot]; rfl)).symm

theorem carried_firstVoided (x : Station) : x.Carried x.firstVoided := ⟨rfl, rfl, rfl, rfl, rfl, rfl, rfl, rfl, rfl⟩

theorem warmKept_voidFirst (cause : VoidCause) (n : StationId) (s : State) : WarmKept s (voidFirst cause n s) := by
  unfold voidFirst
  split
  · refine WarmKept.trans (WarmKept.trans (t := s.modSt n (fun x => { x with slot := .free })) ?_ ?_)
      (warmKept_offerReserved _ _)
    · refine (atStation_modSt s n _).warmKept ?_
      rw [st_modSt_self]
      exact ⟨rfl, rfl, rfl, rfl, rfl, rfl, rfl, rfl, rfl⟩
    · exact warmKept_aside rfl ⟨[], (List.append_nil _).symm⟩ rfl
  · exact .refl s
  · exact .refl s
  · exact .refl s

/-! ## Sessions -/

/-- The session's station as the settlement of a warm reset finds it: drained in CLOSING, closed at once elsewhere (R35). -/
def Station.resetEnding (x : Station) : Station := if x.state = .closing then x.credited else x.closedAtOnce .reset

/-- The state that the settlement of a warm reset finds (R35). -/
def endForReset (n : StationId) (s : State) : State := if (s.st n).state = .closing then credit n s else closeAtOnce .reset n s

theorem st_endForReset (n : StationId) (s : State) : (endForReset n s).st n = (s.st n).resetEnding := by
  unfold endForReset Station.resetEnding
  split
  · exact st_credit n s
  · exact st_closeAtOnce .reset n s

/-- A session of a station that is to be disabled ends in DISABLED (R35). -/
def Station.endsDisabled (x : Station) : Bool :=
  x.disablePending || decide (x.session.bind Session.endReason = some .disabled)

/-- The station after its session has met a warm reset (R35). -/
def Station.resets (x : Station) : Station :=
  match x.resetEnding.session with
  | none => x
  | some cur =>
    if x.resetEnding.endsDisabled then (x.resetEnding.settled (decide (cur.funding.kind = .bank))).entered .disabled
    else x.resetEnding.settled (decide (cur.funding.kind = .bank))

theorem resetEnding_isSome (x : Station) : x.resetEnding.session.isSome = x.session.isSome := by
  unfold Station.resetEnding
  split
  · exact Option.isSome_map
  · rw [closedAtOnce_session, Option.isSome_map]

theorem resetSession_none {n : StationId} {s : State} (h : (s.st n).session = none) : resetSession n s = s := by
  rw [resetSession, h]
  rfl

/-- A session that meets a warm reset is settled, and its station disabled where it is to be (R35). -/
theorem resetSession_some {n : StationId} {s : State} (h : (s.st n).session.isSome = true) : resetSession n s =
    if ((endForReset n s).st n).endsDisabled then enter true .disabled n (settleRecord n (endForReset n s))
    else settleRecord n (endForReset n s) := by
  rw [resetSession, if_neg (by rw [Option.isNone_iff_eq_none]; intro e; rw [e] at h; exact Bool.false_ne_true h)]
  rfl

theorem st_resetSession (n : StationId) (s : State) : (resetSession n s).st n = (s.st n).resets := by
  have hst := st_endForReset n s
  cases hcur : (s.st n).resetEnding.session with
  | none =>
    have hnone : (s.st n).session = none := by
      have := resetEnding_isSome (s.st n)
      rw [hcur] at this
      exact Option.isSome_eq_false_iff.mp this.symm |> Option.isNone_iff_eq_none.mp
    rw [resetSession_none hnone, Station.resets, hcur]
  | some cur =>
    have hsome : (s.st n).session.isSome = true := by rw [← resetEnding_isSome, hcur]; rfl
    rw [resetSession_some hsome, hst, Station.resets, hcur]
    dsimp only
    have hsettled : (settleRecord n (endForReset n s)).st n =
        (s.st n).resetEnding.settled (decide (cur.funding.kind = .bank)) := by
      rw [st_settleRecord (ses := cur) (by rw [hst]; exact hcur), hst]
    split
    · rw [st_enter, hsettled]
    · exact hsettled

theorem carried_resetEnding (x : Station) : x.Carried x.resetEnding := by
  unfold Station.resetEnding
  split
  · exact carried_credited x
  · exact carried_closedAtOnce .reset x

/-- The steps before the settlement leave the log and the tag counter. -/
theorem warmKept_endForReset (n : StationId) (s : State) : WarmKept s (endForReset n s) := by
  have hframe : endForReset n s = { s with
      stations := (endForReset n s).stations, accounts := (endForReset n s).accounts
      fetchOrder := (endForReset n s).fetchOrder } := by
    unfold endForReset
    split
    · rw [credit_rest]
    · unfold closeAtOnce setEndReason modSession dropJob sendHalt
      rw [credit_rest, voidTopup_frame]
      rfl
  have hothers : ∀ m, m ≠ n → (endForReset n s).st m = s.st m := fun m hm => by
    unfold endForReset
    split
    · exact credit_others s hm
    · exact (internal_closeAtOnce .reset n s).others m hm
  refine ⟨fun m => ?_, ⟨[], by rw [hframe, List.append_nil]⟩, by rw [hframe]⟩
  by_cases hm : m = n
  · rw [hm, st_endForReset]
    exact carried_resetEnding _
  · rw [hothers m hm]
    exact .refl _

theorem warmKept_settleRecord (n : StationId) (s : State) : WarmKept s (settleRecord n s) := by
  cases hses : (s.st n).session with
  | none =>
    rw [settleRecord, hses]
    exact .refl s
  | some ses =>
    rw [settleRecord_eq hses]
    obtain ⟨more, -, hmore⟩ := settledLog_records (n := n) (cur := ses) (v := s)
    refine (warmKept_aside (settledLog_stations n ses s) ⟨more, hmore⟩ ?_).trans
      ((atStation_modSt _ n _).warmKept (by rw [st_modSt_self]; exact carried_settled _ _))
    rw [settledLog_frame]

theorem warmKept_resetSession (n : StationId) (s : State) : WarmKept s (resetSession n s) := by
  cases hses : (s.st n).session with
  | none => rw [resetSession_none hses]; exact .refl s
  | some ses =>
    rw [resetSession_some (by rw [hses]; rfl)]
    have h := (warmKept_endForReset n s).trans (warmKept_settleRecord n (endForReset n s))
    split
    · exact h.trans ((atStation_enter true .disabled n _).warmKept (by rw [st_enter]; exact carried_entered _ _))
    · exact h

/-! ## The reset as a whole -/

theorem warmKept_inFreeOrder {f : StationId → State → State} (hf : ∀ n s, WarmKept s (f n s)) (s : State) :
    WarmKept s (inFreeOrder f s) :=
  (warmKept_aside (s := s) (t := (takeOrder s).2) rfl ⟨[], (List.append_nil _).symm⟩ rfl).trans (warmKept_atEach hf _ _)

theorem warmKept_abortCheck (s : State) : WarmKept s (abortCheck s) := by
  refine ⟨fun m => ?_, ⟨[], by rw [abortCheck_rest, List.append_nil]⟩, by rw [abortCheck_rest]⟩
  rw [abortCheck_st]
  exact ⟨rfl, rfl, rfl, rfl, rfl, rfl, rfl, rfl, rfl⟩

theorem warmKept_resetTurns (s : State) : WarmKept s (resetTurns s) :=
  (warmKept_abortCheck s).trans ((warmKept_inFreeOrder warmKept_resetPassage _).trans
    ((warmKept_inFreeOrder (warmKept_voidFirst .reset) _).trans (warmKept_inFreeOrder warmKept_resetSession _)))

/-- A station that a warm reset places by the state of its link (R35). -/
def Station.placed (x : Station) : Station :=
  if x.state = .disabled ∨ x.state = .service then x
  else if x.silence < 100 then x.idled
  else x.entered .down

theorem st_placeStation (n : StationId) (s : State) : (placeStation n s).st n = (s.st n).placed := by
  unfold placeStation Station.placed
  split
  · rfl
  · by_cases h : (s.st n).silence < 100
    · rw [if_pos (by simp [Station.alive, h]), if_pos h, st_enterIdle]
    · rw [if_neg (by simpa [Station.alive] using h), if_neg h, st_enter]

theorem atStation_placeStation (n : StationId) (s : State) : AtStation n s (placeStation n s) := by
  unfold placeStation
  split
  · exact .refl n s
  · split
    · exact atStation_enterIdle true n s
    · exact atStation_enter true .down n s

/-- Where a warm reset leaves a station: its turns, then what is cleared, then the placing (R35). -/
theorem st_warmState (s : State) (n : StationId) : (warmState s).st n = ((resetTurns s).st n).warm.placed := by
  obtain ⟨u, hu, ht⟩ := atEach_st_of_mem atStation_placeStation (rearmLogLow (clearHost (resetBlocks s)))
    (List.nodup_finRange 16) (List.mem_finRange n)
  rw [warmState, ht, st_placeStation, hu, rearmed_st]

/-- The placing changes stations and notices alone. -/
theorem warmState_frame (s : State) : warmState s = { rearmLogLow (clearHost (resetBlocks s)) with
    stations := (warmState s).stations, notices := (warmState s).notices } :=
  atEach_rest atStation_placeStation _ _

theorem warmState_log (s : State) : (warmState s).log = (rearmLogLow (clearHost (resetBlocks s))).log := by
  rw [warmState_frame]

/-- LOG_LOW is armed exactly above 16 free entries (R176). -/
theorem rearmLogLow_log (s : State) : (rearmLogLow s).log = { s.log with armed := decide (16 < s.log.unreserved) } := by
  unfold rearmLogLow
  split
  next h => rw [decide_eq_true h]
  next h => rw [decide_eq_false h]; rfl

theorem warmState_log_eq (s : State) : (warmState s).log = { (resetTurns s).log with
    reservations := 0, armed := decide (16 < ({ (resetTurns s).log with reservations := 0 } : Log).unreserved) } := by
  rw [warmState_log, rearmLogLow_log]
  rfl

/-- The state in which a warm reset leaves a station once its turns are over (R35). -/
def Station.placedState (x : Station) : StationState :=
  if x.state = .disabled then .disabled else if x.state = .service then .service
  else if 100 ≤ x.silence then .down
  else if x.settings.auditLock = true ∧ x.audit.state = .outOfStep then .service else .idle

theorem placedState_cases (x : Station) : x.placedState = .disabled ∨ x.placedState = .service ∨
    (x.placedState = .idle ∧ x.silence < 100) ∨ (x.placedState = .down ∧ 100 ≤ x.silence) := by
  unfold Station.placedState
  split
  · exact .inl rfl
  · split
    · exact .inr (.inl rfl)
    · split
      next h => exact .inr (.inr (.inr ⟨rfl, h⟩))
      next h =>
        split
        · exact .inr (.inl rfl)
        · exact .inr (.inr (.inl ⟨rfl, Nat.not_le.mp h⟩))

/-- It asks for a commit, and no idle timer runs in it (R6, R13). -/
theorem placedState_commits (x : Station) : x.placedState.commits = true ∧ x.placedState.idleRuns = false := by
  obtain h | h | ⟨h, -⟩ | ⟨h, -⟩ := placedState_cases x <;> rw [h] <;> exact ⟨rfl, rfl⟩

/-- The placing is an entry to that state. -/
theorem placed_warm_eq (x : Station) : x.warm.placed = x.warm.entered x.placedState := by
  have hentry : x.warm.idleEntry = if x.settings.auditLock = true ∧ x.audit.state = .outOfStep then .service else .idle := by
    unfold Station.idleEntry
    rw [if_neg (show ¬ x.warm.serviceDue = true from Bool.false_ne_true)]
    rfl
  unfold Station.placedState
  by_cases hd : x.state = .disabled
  · rw [if_pos hd, Station.placed, if_pos (.inl hd), entered_self (x := x.warm) hd]
  · rw [if_neg hd]
    by_cases hs : x.state = .service
    · rw [if_pos hs, Station.placed, if_pos (.inr hs), entered_self (x := x.warm) hs]
    · rw [if_neg hs]
      have hplaced : x.warm.placed = if x.silence < 100 then x.warm.idled else x.warm.entered .down :=
        if_neg (not_or.mpr ⟨hd, hs⟩)
      by_cases hdown : 100 ≤ x.silence
      · rw [if_pos hdown, hplaced, if_neg (Nat.not_lt.mpr hdown)]
      · rw [if_neg hdown, ← hentry, hplaced, if_pos (Nat.not_le.mp hdown)]
        rfl

/-- The tariffs after an entry whose state asks for a commit (R84). -/
theorem entered_commits {new : StationState} (h : new.commits = true) (x : Station) :
    (x.entered new).tariff = if x.state = new then x.tariff else x.committed := by
  by_cases hstate : x.state = new
  · rw [entered_self hstate, if_pos hstate]
  · rw [Station.entered, if_neg hstate, if_neg hstate]
    exact if_pos h

/-- An entry keeps a HALT on the send list (R202). -/
theorem entered_halt {new : StationState} {x : Station} (h : OutRecord.halt ∈ x.sendList) :
    OutRecord.halt ∈ (x.entered new).sendList := by
  by_cases hstate : x.state = new
  · rw [entered_self hstate]
    exact h
  · have hentering : OutRecord.halt ∈ (Station.entering new x).sendList := by
      show OutRecord.halt ∈ if new = .disabled then dropProbes x.sendList else x.sendList
      split
      · simp [dropProbes, h]
      · exact h
    rw [entered_sendList hstate, Station.panelList]
    split
    · exact hentering
    · simp [listPanel, hentering]

section
variable {x : Station}

/-- What warm clearing and placing leave of a station. -/
structure Station.WarmPlaced (x y : Station) : Prop where
  carried : x.Carried y
  state : y.state = x.placedState
  session : y.session = x.session
  job : y.job = none
  slot : y.slot = .free
  passage : y.passage = none
  start : y.startPending = false
  flags : y.serviceDue = false ∧ y.disablePending = false ∧ y.jamDuringClose = false
  timers : y.idleTimer = none ∧ y.confirmTimer = none ∧ y.drainTimer = none ∧ y.recoveryTimer = none
  advances : y.advances = []
  path : y.inPath = x.inPath
  counters : y.counters = x.counters
  tariff : y.tariff = if x.state = x.placedState then x.tariff else x.committed
  halt : OutRecord.halt ∈ x.sendList → OutRecord.halt ∈ y.sendList

theorem warmPlaced (x : Station) : x.WarmPlaced x.warm.placed := by
  obtain ⟨hcommits, hruns⟩ := placedState_commits x
  rw [placed_warm_eq]
  refine ⟨(carried_warm x).trans (carried_entered _ _), entered_state _ _, entered_session _ _, entered_job _ _,
    entered_slot _ _, entered_passage _ _, entered_startPending _ _, ⟨entered_serviceDue _ _, entered_disablePending _ _,
    entered_jamDuringClose _ _⟩, ⟨?_, entered_confirmTimer _ _, entered_drainTimer _ _, entered_recoveryTimer _ _⟩,
    entered_advances _ _, entered_inPath _ _, entered_counters _ _, entered_commits hcommits _, fun h => entered_halt h⟩
  by_cases hstate : x.warm.state = x.placedState
  · rw [entered_self hstate]
    rfl
  · rw [entered_idleTimer hstate, if_neg (by rw [hruns]; exact Bool.false_ne_true)]

end

/-- No session is left after the turns of a warm reset. -/
theorem resetTurns_session (s : State) (n : StationId) : ((resetTurns s).st n).session = none :=
  (inFreeOrder_establishes (I := fun _ => True) (Q := fun x => x.session = none) internal_resetSession
    (fun m u _ => ⟨trivial, (resetSession_ends m u).1⟩) (fun _ => trivial)).2 n

/-- A warm reset is internal from its host link's clearing on, but for the check and what the first step clears. -/
theorem exec_warmReset {s : State} (h : s.host.resetPhase = .replyBegun) : exec .warmReset s = .next (warmState s) := if_pos h

/-- A check in flight is aborted (R89). -/
theorem abortCheck_tariffs (s : State) : (abortCheck s).tariffs = { s.tariffs with
    check := none, lastResult := if s.tariffs.check.isSome then .aborted else s.tariffs.lastResult } := by
  cases h : s.tariffs.check with
  | none =>
    rw [abortCheck, h]
    exact congrArg (fun c => { s.tariffs with check := c }) h
  | some c =>
    rw [abortCheck, h]
    rfl

/-- The blocks that a warm reset leaves as they were (R34). -/
theorem warmState_rest (s : State) : warmState s = { s with
    stations := (warmState s).stations, accounts := endWalks (resetTurns s).accounts
    log := (rearmLogLow (clearHost (resetBlocks s))).log
    tariffs := { s.tariffs with check := none, lastResult := if s.tariffs.check.isSome then .aborted else s.tariffs.lastResult }
    fetchOrder := [], tagCounter := (resetTurns s).tagCounter, sessionCounter := (resetTurns s).sessionCounter
    host := { s.host with queue := [], replies := [], lastReset := .warm, resetPhase := .none, run := none }
    notices := (warmState s).notices, draws := (resetTurns s).draws, answer := (resetTurns s).answer } := by
  have hrearm : ∀ u, rearmLogLow u = { u with log := (rearmLogLow u).log, notices := (rearmLogLow u).notices } := fun u => by
    unfold rearmLogLow
    split <;> rfl
  have hframe := warmState_frame s
  generalize (warmState s).stations = stations at hframe ⊢
  generalize (warmState s).notices = notices at hframe ⊢
  rw [hframe, hrearm, resetBlocks_eq, clearBlocks, (internal_resetTurns s).rest, abortCheck_rest, abortCheck_tariffs]
  rfl

end Sys2Proof.Machine
end

section
/-! PROOF. The stations after a warm reset without cards in passage: each stands where R35 puts it. -/

namespace Sys2Proof.Machine

/-! ## The turns and what they leave -/

/-- Only stations, accounts, log, notices and fetch order have changed. -/
abbrev Turning (s t : State) : Prop :=
  t = { s with stations := t.stations, accounts := t.accounts, log := t.log, notices := t.notices
               fetchOrder := t.fetchOrder }

theorem Turning.trans {s t u : State} (h : Turning s t) (k : Turning t u) : Turning s u := by
  rw [Turning, k, h]

theorem AtStation.turning {n : StationId} {s t : State} (h : AtStation n s t) : Turning s t := by
  rw [Turning, h.rest]

theorem turning_atEach {f : StationId → State → State} (hf : ∀ n s, Turning s (f n s)) (l : List StationId) (s : State) :
    Turning s (atEach l f s) :=
  atEach_keeps (P := Turning s) (fun n _ h => h.trans (hf n _)) l s rfl

theorem turning_offerReserved (body : LogBody) (s : State) : Turning s (offerReserved body s) := by
  unfold offerReserved
  split
  · rw [Turning, joinLog_frame]
  · rfl

theorem turning_voidFirst (cause : VoidCause) (n : StationId) (s : State) : Turning s (voidFirst cause n s) := by
  unfold voidFirst
  split
  · exact Turning.trans (t := leaveFetchOrder n (s.modSt n (fun x => { x with slot := .free }))) rfl (turning_offerReserved _ _)
  · rfl
  · rfl
  · rfl

theorem turning_endForReset (n : StationId) (s : State) : Turning s (endForReset n s) := by
  unfold endForReset
  split
  · rw [Turning, credit_rest]
  · unfold closeAtOnce setEndReason modSession dropJob sendHalt
    rw [Turning, credit_rest, voidTopup_frame]
    rfl

theorem turning_settleRecord (n : StationId) (s : State) : Turning s (settleRecord n s) := by
  cases hses : (s.st n).session with
  | none =>
    rw [settleRecord, hses]
  | some ses =>
    rw [settleRecord_eq hses, settledLog_frame]
    rfl

theorem turning_resetSession (n : StationId) (s : State) : Turning s (resetSession n s) := by
  cases hses : (s.st n).session with
  | none => rw [resetSession_none hses]
  | some ses =>
    rw [resetSession_some (by rw [hses]; rfl)]
    have h := (turning_endForReset n s).trans (turning_settleRecord n (endForReset n s))
    split
    · exact h.trans (atStation_enter true .disabled n _).turning
    · exact h

/-- A station that takes its turn among others, each of which changes its own station alone, ends as its own turn makes it. -/
theorem atEach_st {f : StationId → State → State} {g : Station → Station} (hothers : ∀ n m s, m ≠ n → (f n s).st m = s.st m)
    (hf : ∀ n s, (f n s).st n = g (s.st n)) : ∀ (l : List StationId) (s : State), l.Nodup → ∀ n,
      (atEach l f s).st n = if n ∈ l then g (s.st n) else s.st n
  | [], _, _, n => by simp [atEach]
  | a :: l, s, hd, n => by
    obtain ⟨ha, hd⟩ := List.nodup_cons.mp hd
    show (atEach l f (f a s)).st n = _
    rw [atEach_st hothers hf l (f a s) hd n]
    by_cases hn : n = a
    · subst hn
      rw [if_neg ha, if_pos List.mem_cons_self, hf]
    · rw [hothers a n s hn]
      simp [hn]

/-- So it does where all take their turns, in a free order. -/
theorem atEach_order_st {f : StationId → State → State} {g : Station → Station}
    (hothers : ∀ n m s, m ≠ n → (f n s).st m = s.st m) (hf : ∀ n s, (f n s).st n = g (s.st n)) (s₀ s : State)
    (n : StationId) : (atEach (takeOrder s₀).1 f s).st n = g (s.st n) :=
  (atEach_st hothers hf _ s (nodup_stationOrder s₀.draws) n).trans (if_pos (mem_stationOrder s₀.draws n))

/-! ## A reset without cards in passage -/

theorem atEach_resetPassage {s : State} (h : ∀ n, (s.st n).passage = none) : ∀ l : List StationId,
    atEach l resetPassage s = s
  | [] => rfl
  | n :: l => by
    have hn : resetPassage n s = s := by rw [resetPassage, h n]
    show atEach l resetPassage (resetPassage n s) = s
    rw [hn]
    exact atEach_resetPassage h l

/-- A station whose check in flight has been aborted (R89). -/
def Station.aborted (checking : Bool) (x : Station) : Station :=
  { x with tariff := if checking then { x.tariff with status := x.tariff.status.abort } else x.tariff }

/-- The state that the first requests' turns find: the check aborted, the stations' order drawn. -/
def voidingFrom (s : State) : State := (takeOrder (takeOrder (abortCheck s)).2).2

/-- The state that the sessions' turns find. -/
def endingFrom (s : State) : State :=
  (takeOrder (atEach (takeOrder (takeOrder (abortCheck s)).2).1 (voidFirst .reset) (voidingFrom s))).2

section
variable {s : State} (hpassage : ∀ n, (s.st n).passage = none)
include hpassage

theorem resetTurns_eq : resetTurns s =
    atEach (takeOrder (atEach (takeOrder (takeOrder (abortCheck s)).2).1 (voidFirst .reset) (voidingFrom s))).1
      resetSession (endingFrom s) := by
  have hnone : ∀ n, ((takeOrder (abortCheck s)).2.st n).passage = none := fun n => by
    show ((abortCheck s).st n).passage = none
    rw [abortCheck_st]
    exact hpassage n
  have hfirst : inFreeOrder resetPassage (abortCheck s) = (takeOrder (abortCheck s)).2 := atEach_resetPassage hnone _
  unfold resetTurns
  rw [hfirst]
  rfl

end

theorem voidingFrom_st (s : State) (n : StationId) : (voidingFrom s).st n = (s.st n).aborted s.tariffs.check.isSome :=
  abortCheck_st s n

theorem endingFrom_st (s : State) (n : StationId) :
    (endingFrom s).st n = ((s.st n).aborted s.tariffs.check.isSome).firstVoided := by
  show (atEach _ (voidFirst .reset) (voidingFrom s)).st n = _
  rw [atEach_order_st (g := Station.firstVoided) (fun n m u hm => (internal_voidFirst .reset n u).others m hm)
    (fun n u => st_voidFirst .reset n u), voidingFrom_st]

theorem resetTurns_st {s : State} (hpassage : ∀ n, (s.st n).passage = none) (n : StationId) :
    (resetTurns s).st n = ((s.st n).aborted s.tariffs.check.isSome).firstVoided.resets := by
  rw [resetTurns_eq hpassage, atEach_order_st (g := Station.resets)
    (fun n m u hm => (internal_resetSession n u).others m hm) st_resetSession, endingFrom_st]

/-! ## One station -/

theorem resets_none {x : Station} (h : x.session = none) : x.resets = x := by
  have hnone : x.resetEnding.session = none := by
    have := resetEnding_isSome x
    rw [h] at this
    exact Option.isNone_iff_eq_none.mp (Option.isSome_eq_false_iff.mp this)
  rw [Station.resets, hnone]

/-- A session that meets a warm reset is to leave its station disabled (R35). -/
abbrev Station.toBeDisabled (x : Station) : Prop :=
  x.disablePending = true ∨ x.session.bind Session.endReason = some .disabled

/-- What the steps before the settlement leave of a station with a session. -/
theorem resetEnding_result {x : Station} {ses : Session} (h : x.session = some ses) :
    (x.resetEnding.endsDisabled = true ↔ x.toBeDisabled) ∧ x.resetEnding.state = x.state ∧
      x.resetEnding.tariff = x.tariff ∧ x.resetEnding.inPath = [] ∧
      x.resetEnding.counters = { x.counters with sheetsCredited := satAdd max32 x.counters.sheetsCredited x.inPath.length } ∧
      (x.state ≠ .closing → OutRecord.halt ∈ x.resetEnding.sendList) := by
  unfold Station.resetEnding
  by_cases hclosing : x.state = .closing
  · rw [if_pos hclosing]
    refine ⟨?_, rfl, rfl, rfl, rfl, fun hne => absurd hclosing hne⟩
    have hreason : x.credited.session.bind Session.endReason = x.session.bind Session.endReason := by
      show (x.session.map _).bind _ = _
      rw [h]
      rfl
    rw [Station.endsDisabled, Bool.or_eq_true, decide_eq_true_eq, hreason]
    rfl
  · rw [if_neg hclosing]
    have hreason : (x.closedAtOnce .reset).session.bind Session.endReason = some .disabled ↔
        x.session.bind Session.endReason = some .disabled := by
      rw [closedAtOnce_session, h]
      show some (ses.endReason.getD .reset) = some .disabled ↔ ses.endReason = some .disabled
      cases ses.endReason with
      | none => exact ⟨fun e => (nomatch e), fun e => (nomatch e)⟩
      | some r => exact Iff.rfl
    have hpending : (x.closedAtOnce .reset).disablePending = x.disablePending := topupVoided_disablePending x
    refine ⟨?_, topupVoided_state x, topupVoided_tariff x, rfl, ?_, fun _ => ?_⟩
    · rw [Station.endsDisabled, Bool.or_eq_true, decide_eq_true_eq, hreason, hpending]
    · have hcounters : x.topupVoided.halted.counters = x.counters := topupVoided_counters x
      have hpath : x.topupVoided.halted.inPath = x.inPath := topupVoided_inPath x
      show (Station.credited x.topupVoided.halted).counters = _
      rw [Station.credited, hcounters, hpath]
    · show OutRecord.halt ∈ listHalt x.topupVoided.sendList
      unfold listHalt
      dsimp only
      split
      next hmem => simpa using hmem
      next => simp

/-- What a session that meets a warm reset leaves of its station, before what is then cleared (R35). -/
structure Station.ResetEnded (x z : Station) : Prop where
  carried : x.Carried z
  session : z.session = none
  state : z.state = if x.toBeDisabled then .disabled else x.state
  tariff : z.tariff = if x.toBeDisabled ∧ x.state ≠ .disabled then x.committed else x.tariff
  path : z.inPath = []
  counters : z.counters = { x.counters with sheetsCredited := satAdd max32 x.counters.sheetsCredited x.inPath.length }
  halt : x.state ≠ .closing → OutRecord.halt ∈ z.sendList

theorem resetEnded {x : Station} {ses : Session} (h : x.session = some ses) : x.ResetEnded x.resets := by
  obtain ⟨hdisabled, hstate, htariff, hpath, hcounters, hhalt⟩ := resetEnding_result h
  have hsome : x.resetEnding.session.isSome = true := by rw [resetEnding_isSome, h]; rfl
  obtain ⟨cur, hcur⟩ := Option.isSome_iff_exists.mp hsome
  generalize hbank : decide (cur.funding.kind = .bank) = bank
  have hresets : x.resets = if x.resetEnding.endsDisabled then (x.resetEnding.settled bank).entered .disabled
      else x.resetEnding.settled bank := by rw [Station.resets, hcur, ← hbank]
  have hcarried : x.Carried (x.resetEnding.settled bank) := (carried_resetEnding x).trans (carried_settled _ _)
  have hcommitted : (x.resetEnding.settled bank).committed = x.committed := by
    unfold Station.committed
    rw [show (x.resetEnding.settled bank).tariff = x.tariff from htariff]
  rw [hresets]
  by_cases hd : x.toBeDisabled
  · rw [if_pos (hdisabled.mpr hd)]
    refine ⟨hcarried.trans (carried_entered _ _), entered_session _ _, ?_, ?_, ?_, ?_, fun hne => entered_halt (hhalt hne)⟩
    · rw [entered_state, if_pos hd]
    · rw [entered_commits rfl, hcommitted]
      show (if x.resetEnding.state = .disabled then x.resetEnding.tariff else x.committed) = _
      rw [hstate, htariff]
      by_cases hs : x.state = .disabled
      · rw [if_pos hs, if_neg fun e : x.toBeDisabled ∧ x.state ≠ .disabled => e.2 hs]
      · rw [if_neg hs, if_pos ⟨hd, hs⟩]
    · rw [entered_inPath]; exact hpath
    · rw [entered_counters]; exact hcounters
  · rw [if_neg (mt hdisabled.mp hd)]
    exact ⟨hcarried, rfl, by rw [if_neg hd]; exact hstate, by rw [if_neg fun e : x.toBeDisabled ∧ _ => hd e.1]; exact htariff,
      hpath, hcounters, hhalt⟩

/-- The state in which R35 leaves a station. -/
def Station.warmState (x : Station) : StationState :=
  if x.state = .disabled ∨ (x.session.isSome = true ∧ x.toBeDisabled) then .disabled
  else if x.state = .service then .service
  else if 100 ≤ x.silence then .down
  else if x.settings.auditLock = true ∧ x.audit.state = .outOfStep then .service
  else .idle

/-- A station's way through a warm reset without a card in passage (R35). -/
structure Station.WarmEnded (x y : Station) : Prop where
  carried : x.Carried y
  state : y.state = x.warmState
  advances : y.advances = []
  path : y.inPath = if x.session.isSome then [] else x.inPath
  counters : y.counters = if x.session.isSome then { x.counters with
    sheetsCredited := min 4294967295 (x.counters.sheetsCredited + x.inPath.length) } else x.counters
  halt : x.session.isSome = true → x.state ≠ .closing → OutRecord.halt ∈ y.sendList
  tariff : y.tariff = if y.state = x.state then x.tariff else x.committed

/-- The state after the turns decides the state that R35 leaves. -/
theorem placedState_eq {x z : Station} (hcarried : x.Carried z)
    (hstate : z.state = if x.session.isSome = true ∧ x.toBeDisabled then .disabled else x.state) :
    z.placedState = x.warmState := by
  unfold Station.placedState Station.warmState
  rw [hcarried.silence, hcarried.settings, hcarried.audit, hstate]
  by_cases hd : x.session.isSome = true ∧ x.toBeDisabled
  · rw [if_pos hd, if_pos rfl, if_pos (.inr hd)]
  · rw [if_neg hd]
    by_cases hs : x.state = .disabled
    · rw [if_pos hs, if_pos (.inl hs)]
    · rw [if_neg hs, if_neg (not_or.mpr ⟨hs, hd⟩)]

theorem warmState_hasSession (x : Station) : x.warmState.hasSession = false := by
  unfold Station.warmState
  split
  · rfl
  · split
    · rfl
    · split
      · rfl
      · split <;> rfl

theorem warmEnded {x : Station} (hagrees : x.session.isSome = x.state.hasSession) : x.WarmEnded x.resets.warm.placed := by
  have hplaced := warmPlaced x.resets
  cases hses : x.session with
  | none =>
    rw [resets_none hses] at hplaced ⊢
    have hstate : x.placedState = x.warmState := placedState_eq (.refl x) (by
      rw [if_neg]
      rintro ⟨h, -⟩
      rw [hses] at h
      exact Bool.false_ne_true h)
    refine ⟨hplaced.carried, hplaced.state.trans hstate, hplaced.advances, ?_, ?_, fun h => ?_, ?_⟩
    · rw [hplaced.path, hses]; rfl
    · rw [hplaced.counters, hses]; rfl
    · rw [hses] at h; exact absurd h Bool.false_ne_true
    · rw [hplaced.tariff, hplaced.state]
      by_cases h : x.state = x.placedState
      · rw [if_pos h, if_pos h.symm]
      · rw [if_neg h, if_neg (Ne.symm h)]
  | some ses =>
    have hended := resetEnded hses
    have hsome : x.session.isSome = true := by rw [hses]; rfl
    have hstate : x.resets.placedState = x.warmState := placedState_eq hended.carried (by
      rw [hended.state]
      by_cases hd : x.toBeDisabled
      · rw [if_pos hd, if_pos ⟨hsome, hd⟩]
      · rw [if_neg hd, if_neg fun e : _ ∧ _ => hd e.2])
    have hhas : x.state.hasSession = true := hagrees.symm.trans hsome
    have hne : ∀ new : StationState, new.hasSession = false → x.state ≠ new := fun new hnew e => by
      rw [e, hnew] at hhas
      exact Bool.false_ne_true hhas
    refine ⟨hended.carried.trans hplaced.carried, hplaced.state.trans hstate, hplaced.advances, ?_, ?_,
      fun _ hclosing => hplaced.halt (hended.halt hclosing), ?_⟩
    · rw [hplaced.path, hended.path, hses]; rfl
    · rw [hplaced.counters, hended.counters, hses]; rfl
    · rw [hplaced.state, if_neg (Ne.symm (hstate ▸ hne _ (warmState_hasSession x))), hplaced.tariff, hended.state]
      by_cases hd : x.toBeDisabled
      · have hplacedDisabled : x.resets.placedState = .disabled := by
          rw [Station.placedState, if_pos (by rw [hended.state, if_pos hd])]
        rw [if_pos hd, hplacedDisabled, if_pos rfl, hended.tariff, if_pos ⟨hd, hne .disabled rfl⟩]
      · have htariff : x.resets.tariff = x.tariff := by
          rw [hended.tariff, if_neg fun e : x.toBeDisabled ∧ _ => hd e.1]
        rw [if_neg hd, if_neg (hstate ▸ hne _ (warmState_hasSession x)), Station.committed, Station.committed, htariff]

/-! ## All stations -/

/-- Where a warm reset leaves a station that no card is in passage at (R35, R84, R89). -/
theorem warmEnded_station {s : State} (hpassage : ∀ n, (s.st n).passage = none) (n : StationId)
    (hagrees : (s.st n).session.isSome = (s.st n).state.hasSession) :
    ((s.st n).aborted s.tariffs.check.isSome).firstVoided.WarmEnded ((warmState s).st n) := by
  rw [st_warmState, resetTurns_st hpassage]
  exact warmEnded hagrees

end Sys2Proof.Machine
end

section
/-! PROOF. The settlements of a warm reset: their records, what they post, and what the log holds after them (R35, R114,
R166, R167). -/

namespace Sys2Proof.Machine

/-! ## The record of one settlement -/

/-- The session as the settlement of a warm reset finds it: its path credited, and closed where it was not closing (R35). -/
def Session.resetEnded (x : Station) (ses : Session) : Session :=
  if x.state = .closing then ses.creditSheets x.inPath else ses.endedAtOnce .reset x.slot.topupTags x.inPath

theorem resetEnding_session (x : Station) : x.resetEnding.session = x.session.map (Session.resetEnded x) := by
  unfold Station.resetEnding Session.resetEnded
  by_cases h : x.state = .closing
  · simp only [if_pos h]
    rfl
  · simp only [if_neg h]
    exact closedAtOnce_session .reset x

theorem resetEnded_opening (x : Station) (ses : Session) : SameOpening (ses.resetEnded x) ses ∧
    (ses.resetEnded x).funding = ses.funding.withVoided x.openTopup ∧ (ses.resetEnded x).jamCount = ses.jamCount := by
  unfold Session.resetEnded Station.openTopup
  by_cases h : x.state = .closing
  · rw [if_pos h, if_pos h, withVoided_nil]
    exact ⟨⟨rfl, rfl, ⟨rfl, rfl⟩, ⟨rfl, rfl, rfl⟩, rfl, rfl⟩, rfl, rfl⟩
  · rw [if_neg h, if_neg h]
    refine ⟨⟨rfl, rfl, ⟨rfl, rfl⟩, ⟨rfl, rfl, rfl⟩, rfl, rfl⟩, ?_, rfl⟩
    show ses.funding.withVoided x.slot.topupTags = _
    cases x.slot <;> rfl

/-- The record that a warm reset makes of a station's session (R166). -/
def resetRecord (s : State) (n : StationId) (ses : Session) : SessionRecord :=
  settlementRecord n (ses.resetEnded (s.st n)) (endForReset n s)

/-- It is read from the station and the clock alone. -/
theorem resetRecord_congr {s u : State} {n : StationId} (hst : u.st n = s.st n)
    (hclock : u.clock = s.clock ∧ u.clockSet = s.clockSet) (ses : Session) : resetRecord u n ses = resetRecord s n ses := by
  have hc : ∀ w : State, (endForReset n w).clock = w.clock ∧ (endForReset n w).clockSet = w.clockSet := fun w => by
    rw [turning_endForReset n w]
    exact ⟨rfl, rfl⟩
  simp only [resetRecord, settlementRecord, sessionRecord, st_endForReset, hst, hc, hclock]

/-- A record of a session whose opening and tags are another's says whose that other is (R166). -/
theorem recordOf_opening {n : StationId} {cur ses : Session} {topup : List Nat} (h : SameOpening cur ses)
    (hfunding : cur.funding = ses.funding.withVoided topup) (charge : Nat × Bool) (v : State) :
    RecordOf n ses topup (sessionRecord n cur charge v) := by
  refine ⟨⟨h.number, rfl, ?_⟩, fun i hi => ?_, fun a w k hbank => ?_, fun hfree => ?_, ?_, h.opened, h.figures, h.counts⟩
  · show cur.funding.kind = _
    rw [hfunding, withVoided_kind]
  · have hcur : cur.funding = .account i := by rw [hfunding, hi]; rfl
    simp only [sessionRecord, hcur]
    trivial
  · have hcur : cur.funding = .bank a (w ++ topup) k := by rw [hfunding, hbank]; rfl
    simp only [sessionRecord, hcur]
    trivial
  · have hcur : cur.funding = .free := by rw [hfunding, hfree]; rfl
    simp only [sessionRecord, hcur]
    trivial
  · show cardTail cur.card = _
    rw [h.card]
    rfl

/-- What the record of a session that a warm reset ends says (R35, R146, R166). -/
structure ResetRecorded (n : StationId) (ses : Session) (s : State) (r : SessionRecord) : Prop where
  record : RecordOf n ses (s.st n).openTopup r
  credited : Credited (s.st n).inPath ses r
  jams : r.jamCount = ses.jamCount
  closed : r.closeTime = s.clock ∧ r.closeClockSet = s.clockSet
  kept : ∀ reason, ses.endReason = some reason → r.endReason = reason
  reset : ses.endReason = none → (s.st n).state ≠ .closing → r.endReason = .reset
  charge : ∀ tf, (s.st n).tariff.active = some tf → (r.charge, r.minimumApplied) =
    settlementCharge tf ses.funding.kind r.gross ses.discount (ses.limit.getD 0) r.sideCounts.toList.sum

theorem resetRecorded (s : State) (n : StationId) (ses : Session) (hses : (s.st n).session = some ses) :
    ResetRecorded n ses s (resetRecord s n ses) := by
  obtain ⟨hopening, hfunding, hjams⟩ := resetEnded_opening (s.st n) ses
  have hclock : (endForReset n s).clock = s.clock ∧ (endForReset n s).clockSet = s.clockSet := by
    rw [turning_endForReset n s]
    exact ⟨rfl, rfl⟩
  obtain ⟨-, -, htariff, -⟩ := resetEnding_result hses
  refine ⟨recordOf_opening hopening hfunding _ _, credited_record ?_, hjams, hclock, fun reason hr => ?_,
    fun hnone hne => ?_, fun tf htf => ?_⟩
  · unfold Session.resetEnded
    split <;> rfl
  · show (ses.resetEnded (s.st n)).endReason.getD .finished = reason
    unfold Session.resetEnded
    split
    · show ses.endReason.getD .finished = _
      rw [hr]
      rfl
    · show ses.endReason.getD .reset = _
      rw [hr]
      rfl
  · show (ses.resetEnded (s.st n)).endReason.getD .finished = .reset
    rw [Session.resetEnded, if_neg hne]
    show ses.endReason.getD .reset = _
    rw [hnone]
    rfl
  · show ((endForReset n s).st n).charge (ses.resetEnded (s.st n)) = settlementCharge tf ses.funding.kind
      (ses.resetEnded (s.st n)).gross ses.discount (ses.limit.getD 0) (ses.resetEnded (s.st n)).sideCounts.toList.sum
    obtain ⟨hlimit, -, hdiscount⟩ := hopening.figures
    rw [Station.charge, st_endForReset, htariff, htf, hfunding, withVoided_kind, hlimit, hdiscount]

/-! ## One settlement -/

/-- What the steps before a settlement leave of the accounts (R118, R146). -/
theorem unposted_endForReset {n : StationId} {u : State} {ses : Session} (h : (u.st n).session = some ses) :
    Unposted ses u (endForReset n u) := by
  unfold endForReset
  split
  · refine unposted_credit (n := n) (u := u) rfl rfl fun i hi => ?_
    rw [h] at hi
    exact Option.some.inj hi
  · generalize hw : dropJob n (sendHalt n ((voidTopup n u).modSt n Station.stopForClose)) = w
    have hq : Quiet u w := by
      rw [← hw]
      exact (quiet_voidTopup n u).trans (((atStation_modSt _ n _).trans (atStation_modSt _ n _)).trans
        (atStation_modSt _ n _)).quiet
    have hv : Quiet (credit n w) (closeAtOnce .reset n u) := by
      rw [closeAtOnce, hw, setEndReason, modSession]
      exact (atStation_modSt _ n _).quiet
    refine unposted_credit hq hv fun i hi => ?_
    have hsession : (w.st n).session = (u.st n).topupVoided.session := by
      rw [← hw, dropJob, sendHalt, st_modSt_self, st_modSt_self, st_modSt_self, st_voidTopup]
      rfl
    rw [hsession, topupVoided_session, h] at hi
    cases hf : ses.funding <;> simp [Funding.withVoided, hf] at hi ⊢
    exact hi

/-- A posting leaves the state of the account (R114). -/
theorem requestPosting_state {s : State} (hs : AccountTable.wf s.accounts) (i : AccountId) (n : StationId) (charge : Nat) :
    ((requestPosting i n charge s).account i).state = (s.account i).state := by
  by_cases h : ∃ e ∈ (s.account i).funded, e.station = n
  · exact (requestPosting_charged hs charge h).kept.1
  · have hnone : (s.account i).entryOf n = none := by
      cases he : (s.account i).entryOf n with
      | none => rfl
      | some e => exact absurd ⟨e, (entryOf_mem he).1, (entryOf_mem he).2⟩ h
    rw [requestPosting, hnone]

/-- The account that a session draws on has taken its charge in a warm reset, and holds nothing for its station (R35, R114). -/
structure Account.ResetPosted (n : StationId) (charge : Nat) (a b : Account) : Prop where
  state : b.state = a.state
  funded : b.funded = a.funded.filter (fun e => decide (e.station ≠ n))
  posted : (∃ e ∈ a.funded, e.station = n) → b.balance = a.balance - charge ∧ b.charge = min 999999999 (a.charge + charge)

section
variable {n : StationId} {u : State} {ses : Session}

/-- After its settlement a reset session's log and accounts stand. -/
theorem resetSession_settles (h : (u.st n).session = some ses) :
    (resetSession n u).log = (settledLog n (ses.resetEnded (u.st n)) (endForReset n u)).log ∧
      ∀ i, (resetSession n u).account i = (settledLog n (ses.resetEnded (u.st n)) (endForReset n u)).account i := by
  have hcur : ((endForReset n u).st n).session = some (ses.resetEnded (u.st n)) := by
    rw [st_endForReset, resetEnding_session, h]
    rfl
  rw [resetSession_some (by rw [h]; rfl), settleRecord_eq hcur]
  split
  · exact ⟨(atStation_enter true .disabled n _).log, fun i => (atStation_enter true .disabled n _).account i⟩
  · exact ⟨rfl, fun _ => rfl⟩

theorem resetSession_records (h : (u.st n).session = some ses) (hroom : u.log.records.length < 256) :
    ∃ k, (resetSession n u).log.records = u.log.records ++ [{ number := k, body := .session (resetRecord u n ses) }] := by
  have hcur : ((endForReset n u).st n).session = some (ses.resetEnded (u.st n)) := by
    rw [st_endForReset, resetEnding_session, h]
    rfl
  have hlog : (endForReset n u).log = u.log := (unposted_endForReset h).log
  have htakes := (settle_takes hcur (by rw [hlog]; exact hroom)).1
  rw [settle_log hcur, hlog] at htakes
  exact ⟨_, by rw [(resetSession_settles h).1]; exact htakes⟩

/-- The accounts after a session has met a warm reset (R35). -/
theorem resetSession_accounts (h : (u.st n).session = some ses) (hu : AccountTable.wf u.accounts) (i : AccountId) :
    (ses.funding ≠ .account i → (resetSession n u).account i = u.account i) ∧
    (ses.funding = .account i →
      (u.account i).ResetPosted n (resetRecord u n ses).charge ((resetSession n u).account i)) := by
  have hunposted := unposted_endForReset h
  have hv := hunposted.tables hu
  have hfunding : ∀ k, (ses.resetEnded (u.st n)).funding = .account k ↔ ses.funding = .account k := fun k => by
    rw [(resetEnded_opening (u.st n) ses).2.1]
    cases ses.funding <;> simp [Funding.withVoided]
  rw [(resetSession_settles h).2]
  refine ⟨fun hne => ?_, fun heq => ?_⟩
  · rw [settledLog_account_ne (mt (hfunding i).mp hne), hunposted.unfunded hu i hne]
  · obtain ⟨sides, hsides⟩ := hunposted.accounts hu i
    rw [settledLog_account_self ((hfunding i).mpr heq)]
    refine ⟨?_, ?_, fun hentry => ?_⟩
    · rw [requestPosting_state hv, hsides]
    · rw [requestPosting_funded hv, if_pos rfl, hsides]
    · have hcharged := (requestPosting_charged hv (resetRecord u n ses).charge (by rw [hsides]; exact hentry)).sides
        ⟨sides, hsides⟩
      exact ⟨hcharged.balance, hcharged.period⟩

end

/-! ## All settlements -/

/-- The station has a session that draws on the account. -/
abbrev DrawsOn (s : State) (i : AccountId) (n : StationId) : Prop :=
  (s.st n).session.map Session.funding = some (.account i)

/-- The record of each station's session; a station without one has that of no session. -/
def resetRecords (s : State) (n : StationId) : SessionRecord :=
  resetRecord s n ((s.st n).session.getD (newSession 0 .free [] none 0 0 0 false))

/-- What the sessions on an account owe at the stations of a list. -/
def owedAt (s : State) (i : AccountId) (l : List StationId) : Nat :=
  ((l.filter (fun n => decide (DrawsOn s i n))).map (fun n => (resetRecords s n).charge)).sum

/-- The accounts after the sessions of a list have met a warm reset (R35, R114). -/
structure ResetTo (l : List StationId) (i : AccountId) (s u : State) : Prop where
  state : (u.account i).state = (s.account i).state
  funded : (u.account i).funded =
    (s.account i).funded.filter (fun e => decide (¬ (e.station ∈ l ∧ DrawsOn s i e.station)))
  untouched : (∀ n ∈ l, ¬ DrawsOn s i n) → u.account i = s.account i
  posted : (∀ n ∈ l, DrawsOn s i n → ∃ e ∈ (s.account i).funded, e.station = n) →
    (u.account i).balance = (s.account i).balance - owedAt s i l ∧
    ((∃ n ∈ l, DrawsOn s i n) → (u.account i).charge = min 999999999 ((s.account i).charge + owedAt s i l))

theorem owedAt_append (s : State) (i : AccountId) (l : List StationId) (a : StationId) : owedAt s i (l ++ [a]) =
    owedAt s i l + if DrawsOn s i a then (resetRecords s a).charge else 0 := by
  unfold owedAt
  rw [List.filter_append, List.map_append, List.sum_append]
  by_cases h : DrawsOn s i a
  · have hfilter : [a].filter (fun n => decide (DrawsOn s i n)) = [a] :=
      List.filter_cons_of_pos (p := fun n => decide (DrawsOn s i n)) (decide_eq_true h)
    rw [if_pos h, hfilter]
    rfl
  · have hfilter : [a].filter (fun n => decide (DrawsOn s i n)) = [] :=
      List.filter_cons_of_neg (p := fun n => decide (DrawsOn s i n)) (by simpa using h)
    rw [if_neg h, hfilter]
    rfl

theorem owedAt_none {s : State} {i : AccountId} {l : List StationId} (h : ∀ n ∈ l, ¬ DrawsOn s i n) : owedAt s i l = 0 := by
  have hnil : l.filter (fun n => decide (DrawsOn s i n)) = [] :=
    List.filter_eq_nil_iff.mpr fun n hn => by simpa using h n hn
  rw [owedAt, hnil]
  rfl

section
variable {l : List StationId} {a : StationId} {i : AccountId} {s u t : State}

/-- A station that draws on another account, or on none, leaves the account. -/
theorem ResetTo.pass (h : ResetTo l i s u) (ha : ¬ DrawsOn s i a) (ht : t.account i = u.account i) :
    ResetTo (l ++ [a]) i s t := by
  have hmem : ∀ n, (n ∈ l ++ [a] ∧ DrawsOn s i n) ↔ (n ∈ l ∧ DrawsOn s i n) := fun n => by
    refine ⟨fun ⟨hn, hd⟩ => ⟨?_, hd⟩, fun ⟨hn, hd⟩ => ⟨List.mem_append_left _ hn, hd⟩⟩
    obtain hn | hn := List.mem_append.mp hn
    · exact hn
    · rw [List.mem_singleton.mp hn] at hd
      exact absurd hd ha
  have howed : owedAt s i (l ++ [a]) = owedAt s i l := by rw [owedAt_append, if_neg ha, Nat.add_zero]
  refine ⟨by rw [ht]; exact h.state, ?_, fun hno => ?_, fun hentry => ?_⟩
  · rw [ht, h.funded]
    simp only [hmem]
  · rw [ht]
    exact h.untouched fun n hn => hno n (List.mem_append_left _ hn)
  · obtain ⟨hbalance, hcharge⟩ := h.posted fun n hn => hentry n (List.mem_append_left _ hn)
    rw [ht, howed]
    exact ⟨hbalance, fun ⟨n, hn⟩ => hcharge ⟨n, (hmem n).mp hn⟩⟩

/-- A station that draws on the account has its charge posted. -/
theorem ResetTo.post (h : ResetTo l i s u) (hl : a ∉ l) (ha : DrawsOn s i a)
    (ht : (u.account i).ResetPosted a (resetRecords s a).charge (t.account i)) : ResetTo (l ++ [a]) i s t := by
  have howed : owedAt s i (l ++ [a]) = owedAt s i l + (resetRecords s a).charge := by rw [owedAt_append, if_pos ha]
  have hself : a ∈ l ++ [a] := List.mem_append_right _ (List.mem_singleton_self a)
  refine ⟨ht.state.trans h.state, ?_, fun hno => absurd ha (hno a hself), fun hentry => ?_⟩
  · rw [ht.funded, h.funded, List.filter_filter]
    refine List.filter_congr fun e _ => ?_
    by_cases he : e.station = a
    · have hgone : ¬ ¬ (a ∈ l ++ [a] ∧ DrawsOn s i a) := fun hno => hno ⟨hself, ha⟩
      have hsame : ¬ a ≠ a := fun hne => hne rfl
      rw [he, decide_eq_false hsame, decide_eq_false hgone, Bool.false_and]
    · rw [decide_eq_true he, Bool.true_and]
      refine decide_eq_decide.mpr (not_congr (and_congr_left fun _ => ?_))
      rw [List.mem_append, List.mem_singleton]
      exact (or_iff_left he).symm
  · obtain ⟨e, he, hea⟩ := hentry a hself ha
    have hmem : e ∈ (u.account i).funded := by
      rw [h.funded, List.mem_filter, decide_eq_true_eq]
      exact ⟨he, fun hin => hl (hea ▸ hin.1)⟩
    obtain ⟨hbalance, hcharge⟩ := h.posted fun n hn => hentry n (List.mem_append_left _ hn)
    obtain ⟨hb, hc⟩ := ht.posted ⟨e, hmem, hea⟩
    rw [hb, hc, howed, hbalance]
    refine ⟨by omega, fun _ => ?_⟩
    by_cases hany : ∃ n ∈ l, DrawsOn s i n
    · rw [hcharge hany]
      omega
    · have hno : ∀ n ∈ l, ¬ DrawsOn s i n := fun n hn hd => hany ⟨n, hn, hd⟩
      rw [h.untouched hno, owedAt_none hno]
      omega

end

/-- The sessions of a list of stations meet a warm reset, one after another (R35). -/
theorem resetTo_atEach {s : State} (hs : AccountTable.wf s.accounts) (i : AccountId) (l : List StationId) (hd : l.Nodup) :
    ResetTo l i s (atEach l resetSession s) := by
  induction l using List.reverseRecOn with
  | nil =>
    refine ⟨rfl, ?_, fun _ => rfl, fun _ => ⟨?_, fun ⟨n, hn, _⟩ => absurd hn List.not_mem_nil⟩⟩
    · simp [atEach]
    · simp [atEach, owedAt]
  | append_singleton l a ih =>
    obtain ⟨hdl, -, hne⟩ := List.nodup_append.mp hd
    have hal : a ∉ l := fun h => hne a h a (List.mem_singleton_self a) rfl
    have hto := ih hdl
    have hfold : atEach (l ++ [a]) resetSession s = resetSession a (atEach l resetSession s) := by
      rw [atEach, List.foldl_append]
      rfl
    have hst : (atEach l resetSession s).st a = s.st a :=
      (atEach_st (g := Station.resets) (fun n m u hm => (internal_resetSession n u).others m hm) st_resetSession l s hdl
        a).trans (if_neg hal)
    have hclock : (atEach l resetSession s).clock = s.clock ∧ (atEach l resetSession s).clockSet = s.clockSet := by
      rw [turning_atEach turning_resetSession l s]
      exact ⟨rfl, rfl⟩
    have hwf : AccountTable.wf (atEach l resetSession s).accounts :=
      (internal_atEach (fun n u => (internal_resetSession n u).toInternal) l s).tables hs
    rw [hfold]
    cases hses : (s.st a).session with
    | none =>
      have hno : ¬ DrawsOn s i a := fun h => by rw [DrawsOn, hses] at h; exact nomatch h
      rw [resetSession_none (by rw [hst]; exact hses)]
      exact hto.pass hno rfl
    | some ses =>
      obtain ⟨hother, hown⟩ := resetSession_accounts (by rw [hst]; exact hses) hwf i
      rw [resetRecord_congr hst hclock] at hown
      have hdraws : DrawsOn s i a ↔ ses.funding = .account i := by
        rw [DrawsOn, hses]
        exact ⟨Option.some.inj, congrArg some⟩
      have hrecord : resetRecords s a = resetRecord s a ses := by rw [resetRecords, hses]; rfl
      by_cases ha : DrawsOn s i a
      · refine hto.post hal ha ?_
        rw [hrecord]
        exact hown (hdraws.mp ha)
      · exact hto.pass ha (hother (mt hdraws.mpr ha))

/-! ## The log -/

/-- Turns that each take at most one record, told from the station as it then still stands, take their records in turn. -/
theorem atEach_records {f : StationId → State → State} {g : StationId → Option LogBody} {s : State}
    (hothers : ∀ n m u, m ≠ n → (f n u).st m = u.st m) (hturning : ∀ n u, Turning u (f n u))
    (hf : ∀ n u, u.st n = s.st n → u.clock = s.clock ∧ u.clockSet = s.clockSet →
      u.log.records.length + (g n).toList.length ≤ 256 →
      ∃ more : List LogRecord, (f n u).log.records = u.log.records ++ more ∧ more.map LogRecord.body = (g n).toList)
    (l : List StationId) (hd : l.Nodup) (hroom : s.log.records.length + (l.filterMap g).length ≤ 256) :
    ∃ more : List LogRecord, (atEach l f s).log.records = s.log.records ++ more ∧
      more.map LogRecord.body = l.filterMap g := by
  induction l using List.reverseRecOn with
  | nil => exact ⟨[], (List.append_nil _).symm, rfl⟩
  | append_singleton l a ih =>
    obtain ⟨hdl, -, hne⟩ := List.nodup_append.mp hd
    have hal : a ∉ l := fun h => hne a h a (List.mem_singleton_self a) rfl
    have hsplit : (l ++ [a]).filterMap g = l.filterMap g ++ (g a).toList := by
      rw [List.filterMap_append]
      cases hg : g a <;> simp [hg]
    rw [hsplit, List.length_append] at hroom
    obtain ⟨before, hbefore, hbodies⟩ := ih hdl (by omega)
    have hfold : atEach (l ++ [a]) f s = f a (atEach l f s) := by
      rw [atEach, List.foldl_append]
      rfl
    have hst : ∀ l : List StationId, a ∉ l → (atEach l f s).st a = s.st a := fun l => by
      induction l using List.reverseRecOn with
      | nil => exact fun _ => rfl
      | append_singleton l b ihb =>
        intro h
        rw [atEach, List.foldl_append]
        show (f b (atEach l f s)).st a = _
        rw [hothers b a _ fun e => h (e ▸ List.mem_append_right _ (List.mem_singleton_self _))]
        exact ihb fun hm => h (List.mem_append_left _ hm)
    have hclock : (atEach l f s).clock = s.clock ∧ (atEach l f s).clockSet = s.clockSet := by
      rw [turning_atEach hturning l s]
      exact ⟨rfl, rfl⟩
    have hlength : before.length = (l.filterMap g).length := by rw [← hbodies, List.length_map]
    obtain ⟨more, hmore, hbody⟩ := hf a (atEach l f s) (hst l hal) hclock (by
      rw [hbefore, List.length_append, hlength]
      omega)
    refine ⟨before ++ more, ?_, ?_⟩
    · rw [hfold, hmore, hbefore, List.append_assoc]
    · rw [List.map_append, hbodies, hbody, hsplit]

/-- The VOID record of a first request that a warm reset ends (R167). -/
def voidBody (s : State) (n : StationId) : Option LogBody :=
  match (s.st n).slot with
  | .requested _ _ req => some (.void { tag := req.tag, station := n, time := s.clock, clockSet := s.clockSet, cause := .reset })
  | .free => none
  | .active _ _ => none
  | .topup _ _ _ => none

theorem voidFirst_records {s u : State} {n : StationId} (hst : u.st n = s.st n)
    (hclock : u.clock = s.clock ∧ u.clockSet = s.clockSet)
    (hroom : u.log.records.length + (voidBody s n).toList.length ≤ 256) : ∃ more : List LogRecord,
      (voidFirst .reset n u).log.records = u.log.records ++ more ∧ more.map LogRecord.body = (voidBody s n).toList := by
  cases hslot : (s.st n).slot with
  | requested card dc req =>
    have hbody : voidBody s n = some (.void
        { tag := req.tag, station := n, time := s.clock, clockSet := s.clockSet, cause := .reset }) := by
      rw [voidBody, hslot]
    rw [hbody] at hroom ⊢
    have hrecords := (voidFirst_result (cause := .reset) (s := u) (by rw [hst]; exact hslot) (by simpa using hroom)).2.2.1
    rw [hclock.1, hclock.2] at hrecords
    exact ⟨_, hrecords, rfl⟩
  | _ =>
    have hbody : voidBody s n = none := by rw [voidBody, hslot]
    rw [hbody]
    refine ⟨[], ?_, rfl⟩
    rw [voidFirst, hst, hslot, List.append_nil]

/-- The SESSION record of a session that a warm reset ends (R166). -/
def sessionBody (s : State) (n : StationId) : Option LogBody := (s.st n).session.map (fun _ => .session (resetRecords s n))

theorem resetSession_bodies {s u : State} {n : StationId} (hst : u.st n = s.st n)
    (hclock : u.clock = s.clock ∧ u.clockSet = s.clockSet)
    (hroom : u.log.records.length + (sessionBody s n).toList.length ≤ 256) : ∃ more : List LogRecord,
      (resetSession n u).log.records = u.log.records ++ more ∧ more.map LogRecord.body = (sessionBody s n).toList := by
  cases hses : (s.st n).session with
  | none =>
    have hbody : sessionBody s n = none := by rw [sessionBody, hses]; rfl
    rw [hbody, resetSession_none (by rw [hst]; exact hses)]
    exact ⟨[], (List.append_nil _).symm, rfl⟩
  | some ses =>
    have hbody : sessionBody s n = some (.session (resetRecord s n ses)) := by
      rw [sessionBody, resetRecords, hses]
      rfl
    rw [hbody] at hroom ⊢
    obtain ⟨k, hrecords⟩ := resetSession_records (n := n) (u := u) (by rw [hst]; exact hses) (by simpa using hroom)
    rw [resetRecord_congr hst hclock] at hrecords
    exact ⟨_, hrecords, rfl⟩

/-- Every order of the stations is one of the sixteen. -/
theorem order_perm (s : State) : (takeOrder s).1.Perm (List.finRange 16) :=
  (List.perm_ext_iff_of_nodup (nodup_stationOrder s.draws) (List.nodup_finRange 16)).mpr fun n =>
    ⟨fun _ => List.mem_finRange n, fun _ => mem_stationOrder s.draws n⟩

/-- The count of first requests is the count of their VOID records. -/
theorem firstRequests_eq (s : State) : firstRequests s = ((List.finRange 16).filterMap (voidBody s)).length := by
  have hsome : ∀ n, (voidBody s n).isSome = (s.st n).slot.isRequested := fun n => by
    unfold voidBody
    cases (s.st n).slot <;> rfl
  rw [firstRequests, stations_toList, List.filter_map, List.length_map, List.length_filterMap_eq_countP,
    ← List.countP_eq_length_filter]
  exact List.countP_congr fun n _ => by rw [hsome n]; rfl

theorem openSessions_bodies (s : State) : openSessions s = ((List.finRange 16).filterMap (sessionBody s)).length := by
  have hsome : ∀ n, (sessionBody s n).isSome = (s.st n).session.isSome := fun n => Option.isSome_map
  rw [openSessions, stations_toList, List.filter_map, List.length_map, List.length_filterMap_eq_countP,
    ← List.countP_eq_length_filter]
  exact List.countP_congr fun n _ => by rw [hsome n]; rfl

end Sys2Proof.Machine
end

section
/-! PROOF. The notices that a warm reset raises (R9, R176, R199), and the warm reset as a whole. -/

namespace Sys2Proof.Machine

/-! ## Notices -/

/-- The source at a place of the list of sources (R196). -/
def sourceAt (k : Fin 12) : NoticeSource :=
  #v[NoticeSource.logLow, .authWaiting, .confirmWaiting, .lostCard, .jam, .stationDown, .service, .protocol, .settlement,
    .starved, .audit, .tariff][k]

theorem sourceAt_index (src : NoticeSource) : sourceAt src.index = src := by cases src <;> rfl

theorem index_injective {a b : NoticeSource} (h : a.index = b.index) : a = b := by
  rw [← sourceAt_index a, h, sourceAt_index]

/-- A raise leaves every other source (R196). -/
theorem raiseMask_source_ne {src x : NoticeSource} (h : x ≠ src) (m : Mask) (s : State) :
    (raiseMask src m s).source x = s.source x := by
  have hne : src.index.val ≠ x.index.val := fun e => h (index_injective (Fin.ext e.symm))
  simp [State.source, raiseMask, Vector.getElem_set_ne, hne]

theorem source_congr {s t : State} (h : t.notices = s.notices) (src : NoticeSource) : t.source src = s.source src := by
  rw [State.source, h]
  rfl

theorem clearHost_source (s : State) (src : NoticeSource) :
    (clearHost s).source src = { s.source src with pending := false, bitmap := 0#16 } := by
  simp [clearHost, clearNotices, State.source]

/-- LOG_LOW is raised where it is not re-armed, and no other source (R176). -/
theorem rearmLogLow_source (s : State) (src : NoticeSource) :
    (src ≠ .logLow → (rearmLogLow s).source src = s.source src) ∧
    ((s.source .logLow).pending = false →
      ((rearmLogLow s).source .logLow).pending = decide (s.log.unreserved ≤ 16)) := by
  unfold rearmLogLow
  split
  next h =>
    refine ⟨fun _ => rfl, fun hclear => ?_⟩
    rw [decide_eq_false (Nat.not_le.mpr h)]
    exact hclear
  next h =>
    refine ⟨fun hne => ?_, fun _ => ?_⟩
    · exact raiseMask_source_ne hne _ _
    · rw [decide_eq_true (Nat.not_lt.mp h), raise, raiseMask_source]

/-- The commit of a warm reset raises nothing (R85, R89). -/
theorem commitTariff_quiet (n : StationId) (s : State) : (commitTariff true n s).notices = s.notices := by
  unfold commitTariff
  split <;> rfl

/-- A quiet entry raises the entry's own notice, where the state is another (R9, R85). -/
theorem enter_quiet (new : StationState) (n : StationId) (s : State) (h : (s.st n).state ≠ new) :
    (enter true new n s).notices = (raiseEntry new n s).notices := by
  have hraise : (raiseEntry new n (s.modSt n (Station.entering new))).notices = (raiseEntry new n s).notices := by
    unfold raiseEntry
    split <;> rfl
  rw [enter, if_neg h]
  dsimp only
  split
  · rw [commitTariff_quiet, statePanel_notices, hraise]
  · rw [statePanel_notices, hraise]

/-- The station is placed in another state, whose notice is this one (R9, R183). -/
def Station.placeRaises (z : Station) (src : NoticeSource) : Prop :=
  z.state ≠ z.placedState ∧
    ((src = .stationDown ∧ z.placedState = .down) ∨ (src = .service ∧ z.placedState = .service))

/-- What the placing of one station raises (R9, R183). -/
theorem placeStation_source {z : Station} {n : StationId} {u : State} (hu : u.st n = z.warm) (src : NoticeSource) :
    (z.placeRaises src → (placeStation n u).source src =
      { u.source src with pending := true, bitmap := (u.source src).bitmap ||| maskOf n }) ∧
    (¬ z.placeRaises src → (placeStation n u).source src = u.source src) := by
  have hstate : (u.st n).state = z.state := by rw [hu]; rfl
  have hkeeps : z.placedState = z.state → ¬ z.placeRaises src := fun h hr => hr.1 h.symm
  by_cases hstays : z.state = .disabled ∨ z.state = .service
  · have hplace : placeStation n u = u := if_pos (by rw [hstate]; exact hstays)
    have hsame : z.placedState = z.state := by
      unfold Station.placedState
      obtain h | h := hstays
      · rw [if_pos h, h]
      · rw [if_neg (by rw [h]; exact StationState.noConfusion), if_pos h, h]
    rw [hplace]
    exact ⟨fun hr => absurd hr (hkeeps hsame), fun _ => rfl⟩
  · obtain ⟨hd, hs⟩ := not_or.mp hstays
    have hplace : placeStation n u = if (u.st n).alive then enterIdle true n u else enter true .down n u :=
      if_neg (by rw [hstate]; exact hstays)
    have halive : (u.st n).alive = decide (z.silence < 100) := by rw [hu]; rfl
    have hlocked : (u.st n).lockedOut = true ↔ z.settings.auditLock = true ∧ z.audit.state = .outOfStep := by
      rw [hu, Station.lockedOut, Bool.and_eq_true, decide_eq_true_eq]
      rfl
    have hidle : enterIdle true n u = if (u.st n).lockedOut then enterService true n u else enter true .idle n u := by
      unfold enterIdle
      have hdue : ¬ (u.st n).serviceDue = true := by rw [hu]; exact Bool.false_ne_true
      have hslot : ¬ (u.st n).slot.isRequested = true := by rw [hu]; exact Bool.false_ne_true
      rw [if_neg hdue, if_neg hslot]
    have hplaced : z.placedState = if 100 ≤ z.silence then .down
        else if z.settings.auditLock = true ∧ z.audit.state = .outOfStep then .service else .idle := by
      rw [Station.placedState, if_neg hd, if_neg hs]
    rw [hplace, halive]
    by_cases hdown : 100 ≤ z.silence
    · rw [if_pos hdown] at hplaced
      rw [decide_eq_false (Nat.not_lt.mpr hdown), if_neg Bool.false_ne_true]
      by_cases hsame : z.state = .down
      · rw [enter, if_pos (hstate.trans hsame)]
        exact ⟨fun hr => absurd hr (hkeeps (hplaced.trans hsame.symm)), fun _ => rfl⟩
      · have hnotices : (enter true .down n u).notices = (raiseFor .stationDown n u).notices :=
          enter_quiet .down n u (by rw [hstate]; exact hsame)
        rw [source_congr hnotices, raiseFor]
        by_cases hsrc : src = .stationDown
        · rw [hsrc, raiseMask_source]
          exact ⟨fun _ => rfl, fun hno => absurd ⟨by rw [hplaced]; exact hsame, .inl ⟨rfl, hplaced⟩⟩ hno⟩
        · rw [raiseMask_source_ne hsrc]
          refine ⟨fun hr => ?_, fun _ => rfl⟩
          obtain ⟨h, -⟩ | ⟨-, h⟩ := hr.2
          · exact absurd h hsrc
          · rw [hplaced] at h
            exact nomatch h
    · rw [if_neg hdown] at hplaced
      rw [decide_eq_true (Nat.not_le.mp hdown), if_pos rfl, hidle]
      by_cases hlock : (u.st n).lockedOut = true
      · rw [if_pos (hlocked.mp hlock)] at hplaced
        have hnotices : (enterService true n u).notices = (raiseFor .service n u).notices :=
          enter_quiet .service n (raiseFor .service n u) (by rw [st_raiseFor, hstate]; exact hs)
        rw [if_pos hlock, source_congr hnotices, raiseFor]
        by_cases hsrc : src = .service
        · rw [hsrc, raiseMask_source]
          exact ⟨fun _ => rfl, fun hno => absurd ⟨by rw [hplaced]; exact hs, .inr ⟨rfl, hplaced⟩⟩ hno⟩
        · rw [raiseMask_source_ne hsrc]
          refine ⟨fun hr => ?_, fun _ => rfl⟩
          obtain ⟨-, h⟩ | ⟨h, -⟩ := hr.2
          · rw [hplaced] at h
            exact nomatch h
          · exact absurd h hsrc
      · rw [if_neg (mt hlocked.mpr hlock)] at hplaced
        rw [if_neg hlock]
        have hquiet : (enter true .idle n u).notices = u.notices := by
          by_cases hsame : (u.st n).state = .idle
          · rw [enter, if_pos hsame]
          · exact enter_quiet .idle n u hsame
        rw [source_congr hquiet]
        refine ⟨fun hr => ?_, fun _ => rfl⟩
        obtain ⟨-, h⟩ | ⟨-, h⟩ := hr.2
        · rw [hplaced] at h
          exact nomatch h
        · rw [hplaced] at h
          exact nomatch h

theorem inMask_or_maskOf (m : Mask) (a n : StationId) : inMask (m ||| maskOf a) n = (inMask m n || decide (a = n)) := by
  have hor : inMask (m ||| maskOf a) n = (inMask m n || inMask (maskOf a) n) := by simp [inMask]
  rw [hor, getLsbD_maskOf]

/-- What the placing of the stations of a list raises (R9, R183). -/
theorem placeAll_source {w : State} {z : StationId → Station} (hw : ∀ n, w.st n = (z n).warm) (src : NoticeSource)
    (l : List StationId) (hd : l.Nodup) :
    ((∀ n ∈ l, ¬ (z n).placeRaises src) → (atEach l placeStation w).source src = w.source src) ∧
    (∀ n, inMask ((atEach l placeStation w).source src).bitmap n = true ↔
      inMask (w.source src).bitmap n = true ∨ (n ∈ l ∧ (z n).placeRaises src)) ∧
    (((atEach l placeStation w).source src).pending = true ↔
      (w.source src).pending = true ∨ ∃ n ∈ l, (z n).placeRaises src) := by
  induction l using List.reverseRecOn with
  | nil => simp [atEach]
  | append_singleton l a ih =>
    obtain ⟨hdl, -, hne⟩ := List.nodup_append.mp hd
    have hal : a ∉ l := fun h => hne a h a (List.mem_singleton_self a) rfl
    have hself : a ∈ l ++ [a] := List.mem_append_right _ (List.mem_singleton_self a)
    obtain ⟨hkept, hbits, hpending⟩ := ih hdl
    have hfold : atEach (l ++ [a]) placeStation w = placeStation a (atEach l placeStation w) := by
      rw [atEach, List.foldl_append]
      rfl
    obtain ⟨hraises, hleaves⟩ := placeStation_source (n := a) (u := atEach l placeStation w) (z := z a)
      ((atEach_st_of_notMem atStation_placeStation w hal).trans (hw a)) src
    have hmem : ∀ n, n ∈ l ++ [a] ↔ n ∈ l ∨ n = a := fun n => by rw [List.mem_append, List.mem_singleton]
    rw [hfold]
    by_cases ha : (z a).placeRaises src
    · rw [hraises ha]
      refine ⟨fun hno => absurd ha (hno a hself), fun n => ?_, ?_⟩
      · rw [inMask_or_maskOf, Bool.or_eq_true, hbits, decide_eq_true_eq, hmem, or_assoc]
        refine or_congr_right ⟨fun h => ?_, fun ⟨h, hr⟩ => ?_⟩
        · obtain ⟨hn, hr⟩ | rfl := h
          · exact ⟨.inl hn, hr⟩
          · exact ⟨.inr rfl, ha⟩
        · obtain hn | rfl := h
          · exact .inl ⟨hn, hr⟩
          · exact .inr rfl
      · exact ⟨fun _ => .inr ⟨a, hself, ha⟩, fun _ => rfl⟩
    · rw [hleaves ha]
      have hsame : ∀ n, (n ∈ l ++ [a] ∧ (z n).placeRaises src) ↔ (n ∈ l ∧ (z n).placeRaises src) := fun n => by
        rw [hmem]
        refine ⟨fun ⟨h, hr⟩ => ⟨h.resolve_right fun e => ha (e ▸ hr), hr⟩, fun ⟨h, hr⟩ => ⟨.inl h, hr⟩⟩
      refine ⟨fun hno => hkept fun n hn => hno n ((hmem n).mpr (.inl hn)), fun n => by rw [hbits, hsame],
        hpending.trans (or_congr_right (exists_congr fun n => (hsame n).symm))⟩

/-- What a warm reset raises of a source that it has cleared (R199). -/
theorem warmState_source (s : State) (src : NoticeSource) (hne : src ≠ .logLow) :
    ((∀ n, ¬ ((resetTurns s).st n).placeRaises src) → ((warmState s).source src).pending = false ∧
      ((warmState s).source src).bitmap = 0#16) ∧
    (∀ n, inMask ((warmState s).source src).bitmap n = true ↔ ((resetTurns s).st n).placeRaises src) ∧
    (((warmState s).source src).pending = true ↔ ∃ n, ((resetTurns s).st n).placeRaises src) := by
  have hcleared : (rearmLogLow (clearHost (resetBlocks s))).source src =
      { (resetBlocks s).source src with pending := false, bitmap := 0#16 } := by
    rw [(rearmLogLow_source _ src).1 hne, clearHost_source]
  obtain ⟨hkept, hbits, hpending⟩ := placeAll_source (rearmed_st s) src (List.finRange 16) (List.nodup_finRange 16)
  rw [hcleared] at hkept hbits hpending
  have hnone : ∀ n, ¬ inMask (0#16) n = true := fun n => by simp [inMask]
  refine ⟨fun hno => ?_, fun n => (hbits n).trans ⟨fun h => (h.resolve_left (hnone n)).2, fun h =>
    .inr ⟨List.mem_finRange n, h⟩⟩, hpending.trans ⟨fun h => ?_, fun ⟨n, h⟩ => .inr ⟨n, List.mem_finRange n, h⟩⟩⟩
  · have hsource := hkept fun n _ => hno n
    rw [warmState, hsource]
    exact ⟨rfl, rfl⟩
  · obtain ⟨n, -, hr⟩ := h.resolve_left Bool.false_ne_true
    exact ⟨n, hr⟩

/-- LOG_LOW stands pending exactly at 16 free entries or fewer (R176). -/
theorem warmState_logLow (s : State) :
    ((warmState s).source .logLow).pending = decide ((warmState s).log.unreserved ≤ 16) := by
  have hnone : ∀ n, ¬ ((resetTurns s).st n).placeRaises .logLow := fun n hr => by
    obtain ⟨h, -⟩ | ⟨h, -⟩ := hr.2
    · exact nomatch h
    · exact nomatch h
  have hsame := (placeAll_source (rearmed_st s) .logLow (List.finRange 16) (List.nodup_finRange 16)).1 fun n _ => hnone n
  have hpending := (rearmLogLow_source (clearHost (resetBlocks s)) .logLow).2 (by rw [clearHost_source])
  rw [warmState_log, rearmLogLow_log, warmState, hsame, hpending]
  rfl

end Sys2Proof.Machine
end

section
/-! PROOF. The warm reset as a whole: its blocks, and its stations, accounts, notices and records where no card is in passage
(R35, R111, R195, R199). -/

namespace Sys2Proof.Machine

/-! ## The blocks -/

section
variable (s : State)

theorem warmState_host : (warmState s).host =
    { s.host with queue := [], replies := [], lastReset := .warm, resetPhase := .none, run := none } := by
  rw [warmState_rest]

theorem warmState_tariffs : (warmState s).tariffs = { s.tariffs with
    check := none, lastResult := if s.tariffs.check.isSome then .aborted else s.tariffs.lastResult } := by
  rw [warmState_rest]

/-- The levels stay, and so does the mask level (R34). -/
theorem warmState_levels : (warmState s).notices.maskLevel = s.notices.maskLevel ∧
    ∀ src, ((warmState s).source src).level = (s.source src).level := by
  have hplaced := internal_warmState s
  have hturns := internal_resetTurns s
  have habort : ∀ src, ((abortCheck s).source src) = s.source src := fun src =>
    source_congr (by rw [abortCheck_rest]) src
  refine ⟨?_, fun src => ?_⟩
  · refine hplaced.maskLevel.trans ?_
    show (resetTurns s).notices.maskLevel = _
    rw [hturns.maskLevel, abortCheck_rest]
  · rw [hplaced.levels, clearHost_level]
    show ((resetTurns s).source src).level = _
    rw [hturns.levels, habort]

theorem warmState_records : (∃ more, (warmState s).log.records = s.log.records ++ more) ∧
    (warmState s).log.records = (resetTurns s).log.records ∧ (warmState s).log.reservations = 0 ∧
    (warmState s).log.armed = decide (16 < (warmState s).log.unreserved) := by
  obtain ⟨more, hmore⟩ := (warmKept_resetTurns s).records
  rw [warmState_log_eq]
  exact ⟨⟨more, hmore⟩, rfl, rfl, rfl⟩

end

/-- Where a warm reset leaves every station, whatever was in passage (R35). -/
theorem warmState_placed (s : State) (n : StationId) : ((resetTurns s).st n).WarmPlaced ((warmState s).st n) ∧
    (s.st n).Carried ((warmState s).st n) ∧ ((warmState s).st n).session = none := by
  have hplaced := warmPlaced ((resetTurns s).st n)
  rw [← st_warmState] at hplaced
  exact ⟨hplaced, ((warmKept_resetTurns s).stations n).trans hplaced.carried,
    hplaced.session.trans (resetTurns_session s n)⟩

/-! ## Stations without cards in passage -/

theorem aborted_tariff (checking : Bool) (x : Station) : (x.aborted checking).tariff = { x.tariff with
    status := if checking = true ∧ x.tariff.status = .inProgress then .aborted else x.tariff.status } := by
  cases checking with
  | false => rfl
  | true =>
    show ({ x.tariff with status := x.tariff.status.abort } : StationTariff) = _
    cases hstatus : x.tariff.status <;> simp [ApplyStatus.abort]

/-- The tariffs that a warm reset leaves at a station (R84, R89). -/
theorem Station.WarmEnded.tariffs {x y : Station} {checking : Bool} (h : (x.aborted checking).firstVoided.WarmEnded y) :
    (y.state = x.state ∨ x.tariff.next = none → y.tariff = { x.tariff with
      status := if checking = true ∧ x.tariff.status = .inProgress then .aborted else x.tariff.status }) ∧
    (∀ tf, y.state ≠ x.state → x.tariff.next = some tf → y.tariff.active = some tf ∧ y.tariff.next = none) := by
  have htariff : (x.aborted checking).firstVoided.tariff = (x.aborted checking).tariff := rfl
  have hnext : (x.aborted checking).tariff.next = x.tariff.next := by rw [aborted_tariff]
  have hsame : (x.aborted checking).firstVoided.state = x.state := rfl
  have hend := h.tariff
  rw [Station.committed, htariff, hnext, hsame] at hend
  refine ⟨fun hcase => ?_, fun tf hne hsome => ?_⟩
  · rw [← aborted_tariff, hend]
    by_cases hstate : y.state = x.state
    · exact if_pos hstate
    · rw [hcase.resolve_left hstate]
      exact ite_self _
  · rw [hsome, if_neg hne] at hend
    rw [hend]
    exact ⟨rfl, rfl⟩

/-- The state that the turns leave a station in: its own, or DISABLED for good (R35). -/
theorem resetTurns_state {s : State} (hpassage : ∀ n, (s.st n).passage = none) (n : StationId) :
    ((resetTurns s).st n).state = (s.st n).state ∨ ((resetTurns s).st n).placedState = .disabled := by
  rw [resetTurns_st hpassage]
  cases hses : (s.st n).session with
  | none =>
    have hnone : ((s.st n).aborted s.tariffs.check.isSome).firstVoided.session = none := hses
    rw [resets_none hnone]
    exact .inl rfl
  | some ses =>
    have hsome : ((s.st n).aborted s.tariffs.check.isSome).firstVoided.session = some ses := hses
    have hstate := (resetEnded hsome).state
    by_cases hd : ((s.st n).aborted s.tariffs.check.isSome).firstVoided.toBeDisabled
    · rw [if_pos hd] at hstate
      exact .inr (by rw [Station.placedState, if_pos hstate])
    · rw [if_neg hd] at hstate
      exact .inl hstate

/-- A placing raises exactly where the state it ends in is new to the station (R9, R183). -/
theorem placeRaises_iff {x z : Station} (h : z.state = x.state ∨ z.placedState = .disabled) {src : NoticeSource}
    {new : StationState} (hsrc : (src = .stationDown ∧ new = .down) ∨ (src = .service ∧ new = .service)) :
    z.placeRaises src ↔ z.placedState = new ∧ x.state ≠ new := by
  have hpair : ((src = .stationDown ∧ z.placedState = .down) ∨ (src = .service ∧ z.placedState = .service)) ↔
      z.placedState = new := by
    obtain ⟨rfl, rfl⟩ | ⟨rfl, rfl⟩ := hsrc
    · exact ⟨fun e => e.elim And.right fun e => (nomatch e.1), fun e => .inl ⟨rfl, e⟩⟩
    · exact ⟨fun e => e.elim (fun e => (nomatch e.1)) And.right, fun e => .inr ⟨rfl, e⟩⟩
  rw [Station.placeRaises, hpair, and_comm]
  refine and_congr_right fun hnew => ?_
  have hstate : z.state = x.state := h.resolve_right fun hd => by
    rw [hnew] at hd
    obtain ⟨-, e⟩ | ⟨-, e⟩ := hsrc
    · rw [e] at hd; exact nomatch hd
    · rw [e] at hd; exact nomatch hd
  rw [hnew, hstate]

/-- The notices that a warm reset raises for its stations (R9, R183, R199). -/
theorem warmState_raises {s : State} (hpassage : ∀ n, (s.st n).passage = none) {src : NoticeSource} {new : StationState}
    (hsrc : (src = .stationDown ∧ new = .down) ∨ (src = .service ∧ new = .service)) :
    (∀ n, inMask ((warmState s).source src).bitmap n =
      decide (((warmState s).st n).state = new ∧ (s.st n).state ≠ new)) ∧
    (((warmState s).source src).pending = true ↔
      ∃ n, ((warmState s).st n).state = new ∧ (s.st n).state ≠ new) := by
  have hne : src ≠ .logLow := by
    obtain ⟨rfl, -⟩ | ⟨rfl, -⟩ := hsrc <;> exact NoticeSource.noConfusion
  obtain ⟨-, hbits, hpending⟩ := warmState_source s src hne
  have hraises : ∀ n, ((resetTurns s).st n).placeRaises src ↔
      ((warmState s).st n).state = new ∧ (s.st n).state ≠ new := fun n => by
    rw [placeRaises_iff (resetTurns_state hpassage n) hsrc, (warmState_placed s n).1.state]
  exact ⟨fun n => Bool.eq_iff_iff.mpr ((hbits n).trans ((hraises n).trans decide_eq_true_iff.symm)),
    hpending.trans (exists_congr hraises)⟩

/-! ## Accounts -/

theorem voidFirst_accounts (cause : VoidCause) (n : StationId) (s : State) : (voidFirst cause n s).accounts = s.accounts := by
  unfold voidFirst
  split
  · rw [offerReserved_accounts]
    rfl
  · rfl
  · rfl
  · rfl

/-- What the sessions' turns find of the rest. -/
theorem endingFrom_kept (s : State) : (endingFrom s).accounts = s.accounts ∧
    (endingFrom s).clock = s.clock ∧ (endingFrom s).clockSet = s.clockSet ∧
    (endingFrom s).sessionCounter = s.sessionCounter := by
  have haccounts : ∀ l, (atEach l (voidFirst .reset) (voidingFrom s)).accounts = (abortCheck s).accounts := fun l =>
    atEach_keeps (P := fun u => u.accounts = (abortCheck s).accounts)
      (fun n u h => (voidFirst_accounts .reset n u).trans h) l _ rfl
  have hturning := turning_atEach (turning_voidFirst .reset) (takeOrder (takeOrder (abortCheck s)).2).1 (voidingFrom s)
  refine ⟨?_, ?_, ?_, ?_⟩
  · rw [endingFrom]
    show (atEach _ (voidFirst .reset) (voidingFrom s)).accounts = _
    rw [haccounts, abortCheck_rest]
  · rw [endingFrom, hturning]
    show (abortCheck s).clock = _
    rw [abortCheck_rest]
  · rw [endingFrom, hturning]
    show (abortCheck s).clockSet = _
    rw [abortCheck_rest]
  · rw [endingFrom, hturning]
    show (abortCheck s).sessionCounter = _
    rw [abortCheck_rest]

/-- The order of the sessions' turns. -/
def endingOrder (s : State) : List StationId :=
  (takeOrder (atEach (takeOrder (takeOrder (abortCheck s)).2).1 (voidFirst .reset) (voidingFrom s))).1

theorem endingOrder_perm (s : State) : (endingOrder s).Perm (List.finRange 16) := order_perm _

theorem mem_endingOrder (s : State) (n : StationId) : n ∈ endingOrder s := mem_stationOrder _ n

theorem endingFrom_draws (s : State) (i : AccountId) (n : StationId) : DrawsOn (endingFrom s) i n ↔ DrawsOn s i n := by
  rw [DrawsOn, endingFrom_st]
  exact Iff.rfl

/-- What the sessions on an account owe. -/
def resetOwed (s : State) (i : AccountId) : Nat :=
  (((List.finRange 16).filter (fun n => decide ((s.st n).session.map Session.funding = some (.account i)))).map
    (fun n => (resetRecords (endingFrom s) n).charge)).sum

theorem resetOwed_eq (s : State) (i : AccountId) : owedAt (endingFrom s) i (endingOrder s) = resetOwed s i := by
  have hfilter : (List.finRange 16).filter (fun n => decide (DrawsOn (endingFrom s) i n)) =
      (List.finRange 16).filter (fun n => decide ((s.st n).session.map Session.funding = some (.account i))) :=
    List.filter_congr fun n _ => decide_eq_decide.mpr (endingFrom_draws s i n)
  rw [resetOwed, ← hfilter, owedAt]
  exact (((endingOrder_perm s).filter _).map _).sum_eq

section
variable {s : State} (hpassage : ∀ n, (s.st n).passage = none) (hs : AccountTable.wf s.accounts) (i : AccountId)
include hpassage hs

theorem warmState_account : ResetTo (endingOrder s) i (endingFrom s) (resetTurns s) ∧
    (warmState s).account i = { (resetTurns s).account i with walk := none } ∧
    (endingFrom s).account i = s.account i := by
  have haccounts := (endingFrom_kept s).1
  refine ⟨?_, ?_, by rw [State.account, haccounts]; rfl⟩
  · rw [resetTurns_eq hpassage]
    exact resetTo_atEach (by rw [haccounts]; exact hs) i (endingOrder s) (nodup_stationOrder _)
  · have hwf : AccountTable.wf (resetTurns s).accounts :=
      (internal_resetTurns s).tables (by rw [abortCheck_rest]; exact hs)
    rw [State.account, warmState_rest]
    exact lookup_endWalks hwf i

/-- The accounts after a warm reset (R111, R114). -/
theorem warmState_accounts : ((warmState s).account i).walk = none ∧
    ((warmState s).account i).state = (s.account i).state ∧
    ((warmState s).account i).funded = (s.account i).funded.filter (fun e =>
      decide ((s.st e.station).session.map Session.funding ≠ some (.account i))) ∧
    ((∀ n, (s.st n).session.map Session.funding ≠ some (.account i)) →
      (warmState s).account i = { s.account i with walk := none }) := by
  obtain ⟨hto, hwalk, hsame⟩ := warmState_account hpassage hs i
  rw [hwalk]
  refine ⟨rfl, hto.state.trans (by rw [hsame]), ?_, fun hno => ?_⟩
  · show ((resetTurns s).account i).funded = _
    rw [hto.funded, hsame]
    refine List.filter_congr fun e _ => decide_eq_decide.mpr (not_congr ?_)
    rw [endingFrom_draws]
    exact ⟨And.right, fun h => ⟨mem_endingOrder s _, h⟩⟩
  · rw [hto.untouched fun n _ => mt (endingFrom_draws s i n).mp (hno n), hsame]

/-- What an account has paid after a warm reset, all of whose sessions it holds an entry for (R114). -/
theorem warmState_posted
    (hentries : ∀ n, (s.st n).session.map Session.funding = some (.account i) → ∃ e ∈ (s.account i).funded, e.station = n) :
    ((warmState s).account i).balance = (s.account i).balance - resetOwed s i ∧
    ((∃ n, (s.st n).session.map Session.funding = some (.account i)) →
      ((warmState s).account i).charge = min 999999999 ((s.account i).charge + resetOwed s i)) := by
  obtain ⟨hto, hwalk, hsame⟩ := warmState_account hpassage hs i
  obtain ⟨hbalance, hcharge⟩ := hto.posted fun n _ hd => by
    rw [hsame]
    exact hentries n ((endingFrom_draws s i n).mp hd)
  rw [hsame, resetOwed_eq] at hbalance hcharge
  rw [hwalk]
  exact ⟨hbalance, fun ⟨n, hn⟩ => hcharge ⟨n, mem_endingOrder s n, (endingFrom_draws s i n).mpr hn⟩⟩

end

/-! ## Records -/

theorem firstRequests_congr {s t : State} (h : ∀ n, (t.st n).slot.isRequested = (s.st n).slot.isRequested) :
    firstRequests t = firstRequests s := by
  have hfilter : (fun x : Station => x.slot.isRequested) ∘ t.st = (fun x : Station => x.slot.isRequested) ∘ s.st :=
    funext h
  rw [firstRequests, firstRequests, stations_toList, stations_toList, List.filter_map, List.filter_map, List.length_map,
    List.length_map, hfilter]

/-- The records that a warm reset writes: one VOID for each first request, one SESSION for each session (R35, R143). -/
theorem warmState_writes {s : State} (hpassage : ∀ n, (s.st n).passage = none)
    (hroom : s.log.records.length + firstRequests s + openSessions s ≤ 256) : ∃ more : List LogRecord,
      (warmState s).log.records = s.log.records ++ more ∧ (more.map LogRecord.body).Perm
        ((List.finRange 16).filterMap (voidBody s) ++ (List.finRange 16).filterMap (sessionBody (endingFrom s))) := by
  have habort : (voidingFrom s).log = s.log ∧ (voidingFrom s).clock = s.clock ∧ (voidingFrom s).clockSet = s.clockSet := by
    show (abortCheck s).log = _ ∧ (abortCheck s).clock = _ ∧ (abortCheck s).clockSet = _
    rw [abortCheck_rest]
    exact ⟨rfl, rfl, rfl⟩
  have hvoid : voidBody (voidingFrom s) = voidBody s := funext fun n => by
    unfold voidBody
    rw [voidingFrom_st, habort.2.1, habort.2.2]
    rfl
  have hsessions : openSessions (endingFrom s) = openSessions s := by
    have hsame : ∀ n, ((endingFrom s).st n).session = (s.st n).session := fun n => by rw [endingFrom_st]; rfl
    exact Nat.le_antisymm (openSessions_le fun m hm => by rw [← hsame]; exact hm)
      (openSessions_le fun m hm => by rw [hsame]; exact hm)
  have hfirst := (order_perm (takeOrder (abortCheck s)).2).filterMap (voidBody (voidingFrom s))
  have hsecond := (endingOrder_perm s).filterMap (sessionBody (endingFrom s))
  have hfirstLength := hfirst.length_eq
  have hsecondLength := hsecond.length_eq
  rw [← openSessions_bodies, hsessions] at hsecondLength
  rw [hvoid, ← firstRequests_eq] at hfirstLength
  obtain ⟨voids, hvoids, hvoidBodies⟩ := atEach_records (g := voidBody (voidingFrom s))
    (fun n m u hm => (internal_voidFirst .reset n u).others m hm) (turning_voidFirst .reset)
    (fun n u => voidFirst_records) (takeOrder (takeOrder (abortCheck s)).2).1 (nodup_stationOrder _) (by
      rw [habort.1, hvoid, hfirstLength]
      omega)
  have hmiddle : (endingFrom s).log.records = s.log.records ++ voids := by
    show (atEach _ (voidFirst .reset) (voidingFrom s)).log.records = _
    rw [hvoids, habort.1]
  have hvoidsLength : voids.length = firstRequests s := by
    rw [← List.length_map (f := LogRecord.body), hvoidBodies, hvoid, hfirstLength]
  obtain ⟨ended, hended, hendedBodies⟩ := atEach_records (g := sessionBody (endingFrom s))
    (fun n m u hm => (internal_resetSession n u).others m hm) turning_resetSession
    (fun n u => resetSession_bodies) (endingOrder s) (nodup_stationOrder _) (by
      rw [hmiddle, List.length_append, hvoidsLength, hsecondLength]
      omega)
  refine ⟨voids ++ ended, ?_, ?_⟩
  · rw [(warmState_records s).2.1, resetTurns_eq hpassage, ← List.append_assoc, ← hmiddle]
    exact hended
  · rw [List.map_append, hvoidBodies, hendedBodies, ← hvoid]
    exact hfirst.append hsecond

theorem firstVoided_openTopup (checking : Bool) (x : Station) : (x.aborted checking).firstVoided.openTopup = x.openTopup := by
  have hstate : (x.aborted checking).firstVoided.state = x.state := rfl
  have hslot : (x.aborted checking).firstVoided.slot = if x.slot.isRequested then .free else x.slot := rfl
  by_cases h : x.state = .closing
  · rw [Station.openTopup, hstate, if_pos h, Station.openTopup, if_pos h]
  · rw [openTopup_eq (by rw [hstate]; exact h), openTopup_eq h, hslot]
    cases x.slot <;> rfl

/-- Settles O6: what a warm reset leaves of the blocks, and what becomes of stations, accounts, notices and records. -/
theorem warmResetResult : Obligations.WarmResetResult := by
  unfold Obligations.WarmResetResult
  refine ⟨fun s h => ⟨warmState s, exec_warmReset h, ?_⟩, fun s h hpassage hagrees hs => ⟨warmState s, exec_warmReset h, ?_⟩⟩
  · obtain ⟨hmask, hlevels⟩ := warmState_levels s
    obtain ⟨hrecords, -, hreservations, harmed⟩ := warmState_records s
    rw [warmState_host, warmState_tariffs]
    refine ⟨rfl, rfl, rfl, rfl, rfl, rfl, rfl, rfl, rfl, rfl, hmask, hlevels, hrecords, hreservations, harmed,
      by rw [warmState_rest], ?_, rfl, rfl, rfl, by rw [warmState_rest], by rw [warmState_rest], by rw [warmState_rest],
      by rw [warmState_rest], by rw [warmState_rest], by rw [warmState_rest], by rw [warmState_rest], fun n => ?_⟩
    · rw [warmState_rest]
      exact (warmKept_resetTurns s).tags
    · obtain ⟨hplaced, hcarried, hsession⟩ := warmState_placed s n
      obtain ⟨hidle, hconfirm, hdrain, hrecovery⟩ := hplaced.timers
      refine ⟨hsession, hplaced.job, hplaced.slot, hplaced.passage, hplaced.start, hplaced.flags.1, hplaced.flags.2.1,
        hplaced.flags.2.2, hidle, hconfirm, hdrain, hrecovery, hcarried.settings, hcarried.identity, hcarried.silence, ?_⟩
      rw [hplaced.state, ← ((warmKept_resetTurns s).stations n).silence]
      exact placedState_cases _
  · refine ⟨?_, fun n => ?_, by rw [warmState_tariffs], warmState_accounts hpassage hs, warmState_logLow s,
      (warmState_raises hpassage (.inl ⟨rfl, rfl⟩)).1, (warmState_raises hpassage (.inl ⟨rfl, rfl⟩)).2,
      (warmState_raises hpassage (.inr ⟨rfl, rfl⟩)).1, (warmState_raises hpassage (.inr ⟨rfl, rfl⟩)).2,
      fun src hlow hdown hservice => (warmState_source s src hlow).1 fun n hr => ?_, fun hroom => ?_⟩
    · rw [warmState_rest]
      show (resetTurns s).sessionCounter = _
      rw [resetTurns_eq hpassage, turning_atEach turning_resetSession]
      exact (endingFrom_kept s).2.2.2
    · have hended := warmEnded_station hpassage n (hagrees n).session
      obtain ⟨htariff, hcommit⟩ := hended.tariffs
      exact ⟨hended.state, hended.carried.audit, hended.carried.lastSeq, hended.carried.seqKnown, hended.carried.lastJam,
        hended.carried.rx, hended.carried.line, hended.advances, hended.path, hended.counters, hended.halt, htariff, hcommit⟩
    · obtain ⟨e, -⟩ | ⟨e, -⟩ := hr.2
      · exact hdown e
      · exact hservice e
    · obtain ⟨more, hmore, hperm⟩ := warmState_writes hpassage hroom
      obtain ⟨-, hclock, hclockSet, -⟩ := endingFrom_kept s
      refine ⟨more, resetRecords (endingFrom s), hmore, hperm.trans (.of_eq (congrArg₂ _ ?_ ?_)), fun i hentries =>
        warmState_posted hpassage hs i hentries, fun n ses hses => ?_⟩
      · refine List.filterMap_congr fun n _ => ?_
        unfold voidBody
        cases (s.st n).slot <;> rfl
      · refine List.filterMap_congr fun n _ => ?_
        rw [sessionBody, endingFrom_st]
        rfl
      · have hst := endingFrom_st s n
        have hfound : ((endingFrom s).st n).session = some ses := by rw [hst]; exact hses
        have hrecord : resetRecords (endingFrom s) n = resetRecord (endingFrom s) n ses := by
          rw [resetRecords, hfound]
          rfl
        obtain ⟨hof, hcredited, hjams, hclosed, hkept, hreset, hcharge⟩ := resetRecorded (endingFrom s) n ses hfound
        rw [hst, firstVoided_openTopup] at hof
        rw [hst] at hcredited hreset hcharge
        rw [hrecord]
        refine ⟨hof, hcredited, hjams, hclosed.1.trans hclock, hclosed.2.trans hclockSet, hkept, hreset, fun tf htf =>
          hcharge tf ?_⟩
        show ((s.st n).aborted s.tariffs.check.isSome).tariff.active = _
        rw [aborted_tariff]
        exact htf

end Sys2Proof.Machine
end
